-- ==== Sys2Proof/Word.lean ====
section
/-!
DEFINITION. The word types of the HK5120 model and their plainest arithmetic: bytes, 64-bit register words,
64-byte lines, and the reading and replacing of a bit range [h:l] (R1, R2, R5).
-/

namespace Sys2Proof

/-- A byte. -/
abbrev Byte := BitVec 8

/-- A 64-bit register of the management address space, or one 8-byte little-endian field (R5). -/
abbrev Word := BitVec 64

/-- The 64 data bytes of one pool line; byte k is bits [8k+7:8k] (R5). -/
abbrev Line := BitVec 512

/-- Sparse data by key: (key, value) pairs, keys strictly rising, no entry equal to what an unlisted key reads as. -/
abbrev Table (α : Type) := List (Nat × α)

/-- Bits [hi:lo] of a number, both ends included (R2). -/
def bitsOf (n hi lo : Nat) : Nat := (n >>> lo) % 2 ^ (hi + 1 - lo)

/-- Bits [hi:lo] of a register word (R2). -/
def getBits (w : Word) (hi lo : Nat) : Nat := bitsOf w.toNat hi lo

/-- A register word with bits [hi:lo] replaced by the low bits of `v` (R2). -/
def setBits (w : Word) (hi lo v : Nat) : Word :=
  BitVec.ofNat 64 (w.toNat - bitsOf w.toNat hi lo * 2 ^ lo + v % 2 ^ (hi + 1 - lo) * 2 ^ lo)

/-- Bit `n` of a number as a Boolean. -/
def bitAt (n k : Nat) : Bool := bitsOf n k k == 1

/-- The number 1 or 0 of a flag. -/
def b2n (b : Bool) : Nat := if b then 1 else 0

/-- The number a little-endian byte list spells (R5). -/
def leNat : List Byte → Nat
  | [] => 0
  | b :: bs => b.toNat + 256 * leNat bs

/-- The `n` little-endian bytes of a number (R5). -/
def natLe : Nat → Nat → List Byte
  | 0, _ => []
  | n + 1, v => BitVec.ofNat 8 (v % 256) :: natLe n (v / 256)

/-- The bytes of `bs` from `i`, `n` of them, zero beyond the end. -/
def bytesAt (bs : List Byte) (i n : Nat) : List Byte :=
  let t := (bs.drop i).take n
  t ++ List.replicate (n - t.length) 0

/-- The little-endian number in `n` bytes of `bs` from `i` (R5). -/
def leAt (bs : List Byte) (i n : Nat) : Nat := leNat (bytesAt bs i n)

end Sys2Proof
end

