-- ==== Sys2Proof/Message.lean ====
section
/-!
DEFINITION. What the commands carry and the state holds about messages: postmarks (R32), message kinds (R111, R293),
protocol headers as received, and the message as the device carries it (R80).
-/

namespace Sys2Proof

/-- R32: a postmark. TICK is Fabric Time bits [47:0], SOURCE 0 to 255, SLOT 0 to 15. -/
structure Postmark where
  tick : Nat
  source : Nat
  slot : Nat
  deriving DecidableEq, Repr, Inhabited

/-- The kinds of message the device carries (R111, R293). -/
inductive MsgKind where
  | memRd | memRdData | memInv | memInvNT | memSpecRd | memClnEvct | biConflict   -- M2S Req
  | memWr | memWrPtl                                                              -- M2S RwD
  | biRspI | biRspS | biRspE | biRspBlk                                           -- M2S BIRsp
  | cmp | cmpS | cmpE | biConflictAck                                             -- S2M NDR
  | memData                                                                       -- S2M DRS
  | biSnpCur | biSnpData | biSnpInv | biSnpBlk                                    -- S2M BISnp
  | d2hReq | d2hRsp | d2hData | h2dReq | h2dRsp | h2dData                         -- CXL.cache
  | mwr | msg | msgD                                                              -- CXL.io posted
  | mrd | mrdLk | iord | iowr | cfgRd | cfgWr | fetchAdd | swap | cas             -- CXL.io non-posted
  | cpl | cplD                                                                    -- CXL.io completions
  | lineRd | lineWr | lineAtomic | lineData | lineAck                             -- parcel line operations
  | receipt | mirrorWr | mirrorCmp | hostRemoved                                  -- between HK5120s
  | time | mgmt                                                                   -- MC7
  | reservedOp                                                                    -- an opcode R293 reserves
  deriving DecidableEq, Repr, Inhabited

/-- CXL.mem MetaValue: Invalid, Shared or Any. -/
inductive MetaVal where
  | i | s | a
  deriving DecidableEq, Repr, Inhabited

/-- Where the host's virtual switch or the member's routing decodes a CXL.io message to (R63, R219, R220). -/
inductive IoTarget where
  | nowhere
  | pool
  | fldBar (fld off : Nat)
  | fldCfg (fld off : Nat)
  | port (p : Nat)
  | cci
  | dpid
  deriving DecidableEq, Repr, Inhabited

/-- The status of a CXL.io completion. -/
inductive CplStatus where
  | ok | ur | crs | ca
  deriving DecidableEq, Repr, Inhabited

/-- A message as a partner sends it: the protocol header, and on a Courier link the envelope fields (R292, R293). -/
structure Hdr where
  kind : MsgKind
  /-- MetaValue of a CXL.mem request or RwD. -/
  mv : MetaVal := .i
  /-- HPA on a host link, pool address on a Courier link, TLP address for CXL.io. -/
  addr : Nat := 0
  tag : Nat := 0
  /-- PCIe traffic class. -/
  tc : Nat := 0
  /-- PCIe Relaxed Ordering and ID-Based Ordering. -/
  ro : Bool := false
  ido : Bool := false
  reqId : Nat := 0
  cplId : Nat := 0
  ldId : Nat := 0
  spid : Nat := 0
  dpid : Nat := 0
  tee : Bool := false
  /-- Bytes of payload, or bytes asked for. -/
  len : Nat := 0
  /-- Bytes of a TLP header as sent in flit mode. -/
  hdrBytes : Nat := 16
  /-- Byte enables of a partial CXL.mem write: bit k for byte k. -/
  mask : Nat := 0
  data : List Byte := []
  poison : Bool := false
  /-- Far atomic: R189 OP code and size code, operand and compare value. -/
  aop : Nat := 0
  asize : Nat := 0
  operand : Nat := 0
  compare : Nat := 0
  /-- PCIe multicast index. -/
  mcIndex : Option Nat := none
  ioTo : IoTarget := .nowhere
  status : CplStatus := .ok
  /-- Courier envelope: source and destination postcodes, classes, hop count, group. -/
  src : Nat := 0
  dst : Nat := 0
  mc : Nat := 0
  sc : Nat := 0
  hop : Nat := 0
  group : Option Nat := none
  /-- Courier envelope POSTMARK, kept for records only (R33). -/
  sentPm : Word := 0
  /-- Receipt: the postmark the write took at its first ingress (R123). -/
  firstPm : Postmark := ⟨0, 0, 0⟩
  /-- LINE_ACK, LINE_DATA and mirror completion: ERROR. -/
  err : Bool := false
  engine : Nat := 0
  etag : Nat := 0
  /-- HOST_REMOVED: postcode of the removed host port. -/
  hostPc : Nat := 0
  /-- Mirror write: TICK of the primary write, group and copy number. -/
  mtick : Nat := 0
  mgroup : Nat := 0
  mcopy : Nat := 0
  /-- S2M DevLoad field (R132). -/
  devLoad : Nat := 0
  /-- PCIe AT field and viral indication (R273, R274). -/
  atField : Nat := 0
  viral : Bool := false
  /-- CXL.cache: the CacheID (R272). -/
  cacheId : Nat := 0
  deriving DecidableEq, Repr, Inhabited

/-- R240, R241: the attributes the guard delivers for a granule. -/
structure Attr where
  /-- 0 uncached, 1 HDM-H, 2 HDM-DB. -/
  cache : Nat := 0
  relaxed : Bool := false
  specAllowed : Bool := false
  alloc : Bool := false
  mirror : Nat := 0
  arrival : Bool := false
  deriving DecidableEq, Repr, Inhabited

/-- Where a message is bound inside the device (R80 TARGET). -/
inductive Target where
  | egress (p : Nat)
  | group (g : Nat)
  | slice (s : Nat)
  | dispatcher
  | engine (e : Nat)
  | postmaster
  | ingress (p : Nat)
  deriving DecidableEq, Repr, Inhabited

/-- A message inside the device: header, postmark, classes, postcodes, and what the ingress fixed at its postmark
(R63, R77, R222, R238, R250). -/
structure Msg where
  h : Hdr
  pm : Postmark
  mc : Nat
  sc : Nat
  src : Nat
  dst : Nat
  /-- Pool address after translation (R224). -/
  pool : Nat := 0
  fld : Option Nat := none
  /-- 0 normal, 1 trusted, 2 management, 3 none (R238). -/
  world : Nat := 0
  sg : Nat := 0
  /-- Sending attachment: 0-127 ports, 128-131 quadrants, 132-147 engines, 148 Postmaster (R80). -/
  att : Nat
  /-- Letters of the message (R79). -/
  n : Nat
  attr : Attr := {}
  /-- Member port and member address under R70 at the postmark; none where no valid home range holds it (R68). -/
  member : Option (Nat × Nat) := none
  /-- Traffic in arrival mode (R52, R53). -/
  arrival : Bool := false
  /-- Its admission gives back a credit: all but the later lines of a split CXL.io request (R112, R130). -/
  credit : Bool := true
  /-- R246: a read whose data is followed by a completion with UR; lines of a write that the guard denies. -/
  ur : Bool := false
  skip : List Nat := []
  /-- For a derived message: the postmark of its item (R38, R404). -/
  root : Option Postmark := none
  /-- Nothing gives it a destination postcode (R63, R68). -/
  lost : Bool := false
  deriving DecidableEq, Repr, Inhabited

/-- R352: where a management access comes from: an FLD's mailbox (R219), the Switch CCI mailbox of a port, MCTP over PCIe
VDM at a port, MCTP over I3C, Brumin from a source address (inside an SPDM secure session or not, R365), DOE at a port
(R450), the Courier admission stream of a port (R285). -/
inductive Iface where
  | fld (f : Nat)
  | cci (p : Nat)
  | pcie (p : Nat)
  | i3c
  | brumin (mac : Nat) (sess : Bool)
  | doe (p : Nat)
  | courier (p : Nat)
  deriving DecidableEq, Repr, Inhabited

/-- How a mailbox command ends (R355, R357, R358); `unstated` is a code that the spec does not name. -/
inductive Ret where
  | success | background | invalidInput | unsupported | busy
  | unstated (code : Nat)
  deriving DecidableEq, Repr, Inhabited

/-- R303: what a SESSION flit carries. -/
structure SessionFlit where
  id : Nat := 0
  op : Nat := 0
  timeDir : Nat := 0
  next : Nat := 0
  credits : List Nat := []
  postcode : Nat := 0
  ver : Nat := 0
  oldest : Nat := 0
  newest : Nat := 0
  deriving DecidableEq, Repr, Inhabited

/-- R270, R278: the partner that a host or member port trains with. -/
structure Partner where
  /-- 0 CXL 3.x with 256-byte flits; 1 CXL 2.0 with 68-byte flits only; 2 PCIe 6.x without CXL; 3 PCIe 5.0 or earlier. -/
  offer : Nat := 0
  /-- It advertises latency-optimised flits. -/
  lopt : Bool := false
  /-- RATE and WIDTH codes at which training ends. -/
  rate : Nat := 6
  width : Nat := 5
  /-- A member: CXL.mem negotiated, capacity in bytes, multi-logical, and the LD-IDs offered; IDE established. -/
  mem : Bool := true
  cap : Nat := 0
  multi : Bool := false
  lds : Nat := 0
  ide : Bool := false
  deriving DecidableEq, Repr, Inhabited

/-- R283-R285, R452: what a Courier port finds of its peer as the link comes up: that it offers Courier; the WIDTH code; its
RATE128 and whether equalisation at 128 GT/s succeeds; the verdicts on its certificate chains and lifecycle; that it is
the device of the held session; its postcode, version and window; its IDE_REQ and whether IDE keys are established. -/
structure CourierPeer where
  offers : Bool := true
  width : Nat := 5
  rate128 : Bool := true
  eqOk : Bool := true
  chain0 : Bool := true
  chain1 : Bool := true
  production : Bool := true
  same : Bool := true
  postcode : Nat := 0
  ver : Nat := 0
  oldest : Nat := 0
  newest : Nat := 0
  ideReq : Bool := false
  ideOk : Bool := true
  deriving DecidableEq, Repr, Inhabited

/-- R286, R287: a Courier flit as it arrives: whether its FEC decode and CRC check pass, TYPE, ACK and LINK_CTL; for a
sequenced flit its place in the sequence, the messages that begin in it and the VOID envelopes (POSTMARK, SRC, DST); whether
the IDE tag of a PAYLOAD_MAC flit verifies; and the sixteenth of the tick at which its last bit arrives (R298). -/
structure CourierFlit where
  ok : Bool := true
  kind : Nat := 1
  ack : Nat := 4095
  tslot : Nat := 0
  markDelta : Nat := 0
  crClass : Nat := 0
  crCum : Nat := 0
  seq : Nat := 0
  msgs : List Hdr := []
  voids : List (Word × Nat × Nat) := []
  tagOk : Bool := true
  sub : Nat := 0
  /-- Sixteenths of a tick after its arrival at which the answering flit of a time exchange leaves (R298). -/
  gap : Nat := 0
  deriving DecidableEq, Repr, Inhabited

/-- What start-up finds outside the state (R60, R324, R335, R383): BOARD_ID; per slot, whether both signatures of the
firmware bundle and of the configuration image verify; which HBM stacks train; whether REFCLK_IN is present. -/
structure BootFacts where
  board : Nat := 15
  fwSig0 : Bool := true
  fwSig1 : Bool := true
  cfgSig0 : Bool := true
  cfgSig1 : Bool := true
  hbm : Nat := 255
  refclk : Bool := false
  deriving DecidableEq, Repr, Inhabited

/-- R450: an SPDM request, with the verdicts that the cryptography gives. -/
inductive SpdmReq where
  | getVersion
  /-- The requester's highest version, 0x12 or 0x13. -/
  | getCapabilities (ver : Nat)
  | negotiateAlgorithms
  | getDigests
  | getCertificate (slot off len : Nat)
  | challenge (slot : Nat)
  | keyExchange
  /-- The requester's FINISH verifies; `known`: it has authenticated itself. -/
  | finish (ok known : Bool)
  | keyUpdate
  | endSession
  | other
  deriving DecidableEq, Repr, Inhabited

/-- R359: an MCTP control request: set and get endpoint ID, get message type support, and any other. -/
inductive MctpCtl where
  | setEid (e : Nat)
  | getEid
  | getTypes
  | other (cmd : Nat)
  deriving DecidableEq, Repr

/-- R359, R361: a PLDM request of type 0 (terminus ID, version, types) or type 2 (the sensors numbered in the order of R361's
table: 0 junction, 1 to 8 HBM stacks, 9 main FET, 10 VIN, 11 input current, 12 input power, 13 guard state, 14 safe mode). -/
inductive PldmReq where
  | setTid (t : Nat)
  | getTid
  | getVersion
  | getTypes
  | getReading (n : Nat)
  | getState (n : Nat)
  | getThresholds (n : Nat)
  | getPdr (n : Nat)
  | other
  deriving DecidableEq, Repr

/-- R363 OP 6: the MCTP packet that a Brumin frame carries: control, PLDM, SPDM with its two requests of rows of their own, and any
other message type. -/
inductive McMsg where
  | control (r : MctpCtl)
  | pldm (r : PldmReq)
  | spdm (r : SpdmReq)
  | measurements (index : Nat)
  | setCertificate (slot : Nat) (chain : List Byte)
  | other (type : Nat)
  deriving DecidableEq, Repr

/-- R456: a debug token as it is presented; `sig` says that its signature verifies with the signer's key. -/
structure DebugToken where
  serial : Nat
  nonce : List Byte
  life : Nat
  perms : Nat
  signer : Nat
  sig : Bool
  deriving DecidableEq, Repr

/-- R361: what the sensors read: junction and HBM stack temperatures (0.1 °C), VIN and VOUT (0.1 V), input current (0.01 A), input
power (W). The FET's temperature comes by FET_SENSOR_READ. -/
structure Sensors where
  tj : Int := 250
  hbm : List Int := []
  vin : Nat := 540
  vout : Nat := 540
  iin : Nat := 0
  pin : Nat := 0
  deriving DecidableEq, Repr, Inhabited

/-- What a slice finds in HBM as it confirms an item: an uncorrectable error in the line's way and in its mirror (R183),
and the state of the Carbon set's two copies (R432): 0 good, 1 one copy fails, 2 the copies differ, 3 both fail; `other`
lists what the second copy of a differing set holds: tag, host index, and 1 for S or 2 for A. `fixed` and `fixedSram` count
the HBM lines and SRAM words that it read corrected (R431). `ways` are other ways of the line's Fabric Cache set, or of the set that
a cleaning item examines, that it read with an uncorrectable error: each with whether its mirror fails too (R183). -/
structure HbmErr where
  fixed : Nat := 0
  fixedSram : Nat := 0
  way : Bool := false
  mirror : Bool := false
  carbon : Nat := 0
  other : List (Nat × Nat × Nat) := []
  ways : List (Nat × Bool) := []
  deriving DecidableEq, Repr, Inhabited

/-- A message or a slice that a command names by its number, with what the slice finds in HBM on the way. -/
structure HbmVisit where
  n : Nat
  e : HbmErr := {}
  deriving DecidableEq, Repr, Inhabited

/-- The device's register description (R11): base address, dimensions (stride, first index, count), reset value, and the
masks of RW and RWS, W1S, WO, reserved and cfg bits; `acks` lists the flag bits of its ACK fields, each with its
16-bit count directly below (R12). -/
structure RegDef where
  base : Nat
  dims : List (Nat × Nat × Nat)
  rst : Nat
  rw : Nat
  w1s : Nat
  wo : Nat
  rsv : Nat
  cfg : Nat
  acks : List Nat
  deriving DecidableEq, Repr

/-- One field of a register: bits [hi:lo]. -/
structure FieldRef where
  reg : RegDef
  hi : Nat
  lo : Nat
  deriving DecidableEq, Repr

end Sys2Proof
end

