-- ==== Sys2Proof/Syntax.lean ====
section
/-!
DEFINITION. The commands of the block: one constructor for each row of the opcode table, with what it acts on and what it
learns from outside as its operands.
-/

namespace Sys2Proof

/-- The commands. -/
inductive Instr where
  /-- R29: Fabric Time advances by one 250 ps tick from the on-package resonator, slewed as R30 and R31 allow. -/
  | fabricTimeTick
  /-- R29: A write to FTM_LOAD loads Fabric Time before the first port is ready; after that the write is discarded and counted. -/
  | ftmLoad (who : Iface) (v : Word)
  /-- R31: An accepted rising edge on PPS_IN makes the device slew Fabric Time toward a multiple of 4,000,000,000 ticks. -/
  | ppsInEdge
  /-- R33: A flit completes at a port ingress, and each message that begins in it is postmarked, franked, translated, checked and routed. -/
  | flitArrival (p : Nat) (hs : List Hdr)
  /-- R37: A message neither confirmed nor selected within 2^36 ticks of its TICK completes with error and is dead-lettered. -/
  | staleLimit
  /-- R40: An internal source issues a message once its trigger is confirmed and its scheduled TICK is reached. -/
  | internalMessageDue (i : Nat)
  /-- R40: A message not issued 64 ticks after it became due takes the current tick, and the source's later TICKs move with it. -/
  | slip (src : Nat)
  /-- R85: A source sends its broadcast mark in a blank letter at least every 32 ticks. -/
  | blankLetter (src : Nat) (l : Nat)
  /-- R83: A letter handed from a plane to an attachment is checked, acknowledged, or discarded as a duplicate. -/
  | letterHandover (i : Nat) (ok : Bool)
  /-- R83: A letter that fails its check or has no acknowledgement within 64 ticks is sent again on the next working plane. -/
  | letterResend (i : Nat)
  /-- R84: After sixteen failed handovers, a control-path parity fault or a domain failure, the plane is retired and isolated. -/
  | planeRetire (n : Nat) (parity : Bool)
  /-- R84: A RETIRE bit written in SOF_PLANE_CTL retires a plane unless fewer than three would remain. -/
  | sofPlaneRetire (bits : Nat)
  /-- R84: A RESTORE bit written in SOF_PLANE_CTL starts the self-test of a retired plane. -/
  | sofPlaneRestore (bits : Nat)
  /-- R84: The plane's self-test ends, and the plane joins the rotations or stays retired. -/
  | planeSelfTestDone (n : Nat) (pass : Bool)
  /-- R91: When a message's first letter reaches the egress, it is admitted on die, by spill, on the guarantee or from the reserve, or else refused. -/
  | admitMessage (i : Nat)
  /-- R94: A refused message is offered again when occupancy, F, the queue's spill or a limit changes. -/
  | reoffer (i : Nat)
  /-- R97: The egress fetches spilled letters back into its refill letters ahead of the settled head. -/
  | mailbagRefill (q : Nat) (bad : Bool)
  /-- R87: A queued message whose TICK the horizon has passed moves to the tail of the settled section. -/
  | settleMessage (q : Nat)
  /-- R257: The egress chooses the next message by class and notional order, and it begins to leave once its gate, shaper and threshold allow. -/
  | egressBegin (p : Nat) (held : List Nat)
  /-- R108: The last letter of a message leaves: its letters, guarantee and multicast reference are released. -/
  | messageLeaveDone (p : Nat)
  /-- R90: Writing LOW_RESET in SOF_FREE sets LOW to the current FREE. -/
  | lowReset
  /-- R104: A SOF_FLUSH request with MODE 0 starts a flush that discards silently. -/
  | flushDiscard (ticket : Nat) (scope : Nat) (p : Nat) (mc : Nat) (sc : Nat)
  /-- R104: A SOF_FLUSH request with MODE 1 starts a flush that completes each item with error and dead-letters it. -/
  | flushError (ticket : Nat) (scope : Nat) (p : Nat) (mc : Nat) (sc : Nat)
  /-- R102: When a queue's horizon passes the flush postmark, the flush removes the scope's earlier messages at item boundaries. -/
  | flushAct (q : Nat)
  /-- R128: Every 1,024 ticks each port's MC7 policing bucket refills. -/
  | mc7BucketRefill
  /-- R123: A receipt reaches the ingress of a pool posted write and releases later messages held behind that write. -/
  | receipt (n : Nat)
  /-- R118: A class that has an eligible head and moves no letter for STALL_MS contains the port. -/
  | classStall (p : Nat) (c : Nat)
  /-- R131: At each window end the FLD's load level is computed and the reported level updated. -/
  | devloadWindowEnd (f : Nat)
  /-- R140: An item reaches its home slice, takes an intake entry or write record, and begins speculation. -/
  | itemArrival (n : HbmVisit)
  /-- R149: A BIRsp whose TICK the horizon has passed completes its snoop and settles the Carbon entry. -/
  | applyBirsp (s : Nat)
  /-- R140: A member's S2M NDR or DRS lands in its response slot and is applied in postmark order. -/
  | applyMemberResponse (s : Nat)
  /-- R164: A HOST_REMOVED notice is applied at its postmark at a remote home. -/
  | applyHostRemoved (n : Nat)
  /-- R148: A MemRd or MemRdData is confirmed and served with the snoops, data and NDR of the state table. -/
  | confirmMemRd (s : Nat) (e : HbmErr)
  /-- R148: A MemInv or MemInvNT is confirmed and served as the MemRd rows without data, or as a non-caching write. -/
  | confirmMemInv (s : Nat) (e : HbmErr)
  /-- R148: A MemSpecRd is confirmed, changes nothing, and is discarded. -/
  | confirmMemSpecRd (s : Nat)
  /-- R149: A MemClnEvct is confirmed, frees or settles the host's entry, and is answered Cmp. -/
  | confirmMemClnEvct (s : Nat) (e : HbmErr)
  /-- R151: A BIConflict is answered with BIConflictAck at its confirmation. -/
  | confirmBiConflict (s : Nat)
  /-- R149: An RwD writeback from a host is confirmed, committed and forwarded to any waiting requester. -/
  | confirmWriteback (s : Nat) (e : HbmErr)
  /-- R154: A non-caching write snoops every holder invalid, merges any writeback, commits and completes. -/
  | confirmNoncachingWrite (s : Nat) (e : HbmErr)
  /-- R155: A non-caching read snoops any owner with BISnpCur and returns the current value. -/
  | confirmNoncachingRead (s : Nat) (e : HbmErr)
  /-- R191: A far atomic snoops holders invalid, obtains the line, performs the operation and returns the old value. -/
  | confirmFarAtomic (s : Nat) (e : HbmErr)
  /-- R112: A line item of a CXL.io request to pool memory is confirmed as a non-caching access. -/
  | confirmCxlIoPool (s : Nat) (e : HbmErr)
  /-- R186: A mirror write at its home goes around the cache to the member and is answered NDR Cmp. -/
  | confirmMirrorWrite (s : HbmVisit)
  /-- R139: A snoop held for want of an outstanding-snoop slot is issued when one frees. -/
  | heldSnoopIssue (s : Nat)
  /-- R146: An item waiting for a free slot or eviction-buffer room chooses again once a BIRsp frees one. -/
  | evictionWaitResume (s : Nat)
  /-- R147: Every 16 ticks while a host is over quota, a sweep item back-invalidates its excess entries in one set. -/
  | sweepItem (s : Nat)
  /-- R180: Every 16 ticks while the dirty count is high, a cleaning item writes the dirty ways of one set to their members. -/
  | cleaningItem (s : HbmVisit)
  /-- R163: A census visits every set and frees the remaining entries of a removed host. -/
  | hostCensus (q : Nat)
  /-- R433: A census back-invalidates every line of a Carbon set whose copies both failed, then empties the set. -/
  | carbonCensus (s : Nat)
  /-- R164: A write to HQn_REMOVE removes a host index in that quadrant at the Postmaster's tick of issue. -/
  | hqRemove (q : Nat) (ticket : Nat) (h : Nat)
  /-- R181: A write to FCH_CLEAN starts a clean of every line dirty at its postmark. -/
  | fchClean (ticket : Nat)
  /-- R187: A write to FCH_MIRROR_CLR clears DEGRADED of a mirror group. -/
  | fchMirrorClr (g : Nat)
  /-- R197: A descriptor write to a parcel slot takes effect at the dispatcher in postmark order. -/
  | descriptorWrite
  /-- R204: A SUBMIT doorbell copies and checks the descriptor and admits the parcel to an engine. -/
  | doorbellSubmit
  /-- R204: A RELEASE doorbell zeroes an idle slot's result area and sets its TICKET. -/
  | doorbellRelease
  /-- R204: An ABORT doorbell with the parcel's ticket stops further line operations. -/
  | doorbellAbort
  /-- R214: A read of a result area returns a snapshot of every change postmarked before it. -/
  | resultAreaRead
  /-- R206: At each tick that is a multiple of 4, the engine gives its slot to the parcel at the head of its rotation. -/
  | engineSlot (e : Nat)
  /-- R208: A parcel write is issued when the read data it depends on has arrived. -/
  | parcelWriteIssue (e : Nat)
  /-- R212: A line operation's acknowledgement or data reaches the engine, and PROGRESS and the result area advance. -/
  | lineOpSettle (n : Nat)
  /-- R219: The FLD mailbox returns its dynamic capacity configuration. -/
  | getDynamicCapacityConfiguration (f : Nat)
  /-- R219: The FLD mailbox returns the FLD's extent list. -/
  | getDynamicCapacityExtentList (f : Nat)
  /-- R228: The host accepts or rejects offered blocks, which turn ACTIVE or EMPTY at a cut-over. -/
  | addDynamicCapacityResponse (f : Nat) (tick : Nat) (acc : List (Nat × Nat)) (rej : List (Nat × Nat))
  /-- R228: The host releases RELEASING blocks, which turn EMPTY with KEEP set at a cut-over. -/
  | releaseDynamicCapacity (f : Nat) (tick : Nat) (xs : List (Nat × Nat))
  /-- R228: The FM API offers blocks to an FLD; they turn OFFERED at a cut-over. -/
  | initiateDynamicCapacityAdd (who : Iface) (f : Nat) (prescriptive : Bool) (xs : List (Nat × Nat))
  /-- R228: The FM API asks for blocks to be released; they turn RELEASING at a cut-over. -/
  | initiateDynamicCapacityRelease (who : Iface) (f : Nat) (prescriptive : Bool) (forced : Bool) (xs : List (Nat × Nat))
  /-- R230: Once the FLD's earlier requests complete, a released block with SOR set starts a sanitize parcel. -/
  | sanitizeOnRelease (e : Nat)
  /-- R231: The FM API binds an FLD to a vPPB at a cut-over. -/
  | bindVppb (who : Iface) (p : Nat) (v : Nat) (q : Nat)
  /-- R231: The FM API unbinds an FLD at a cut-over, after which its traffic faults and its parcels end. -/
  | unbindVppb (who : Iface) (p : Nat) (v : Nat) (opt : Nat)
  /-- R251: Writing 1 to PENDING starts or restarts a guard barrier. -/
  | grdBarrier (v : Bool)
  /-- R251: The barrier completes and PENDING clears once every later check uses the rule words written before it. -/
  | barrierComplete
  /-- R258: At each multiple of 1,024 ticks, every shaper's notional and real buckets refill by INC up to BURST. -/
  | shaperRefill
  /-- R264: Each FLD and port pacer refills and returns any credits it held. -/
  | pacerRefill
  /-- R263: A SWAP request checks the pending gate list and fixes its start tick. -/
  | gateSwapRequest (p : Nat) (ticket : Nat) (plen : Nat)
  /-- R263: At the start tick S the pending gate bank becomes active. -/
  | gateSwap (p : Nat)
  /-- R267: PERST_N at a host port changes level: low holds the port in port reset, and high lets it train. -/
  | perstNChange (p : Nat) (low : Bool)
  /-- R14: A link hot reset resets the port's link and transaction state. -/
  | hotReset (p : Nat)
  /-- R268: A change of PRSNT_N that lasts 20 ms is reported, and a member's PERST_N follows. -/
  | prsntDebounced (p : Nat) (low : Bool)
  /-- R268: A member port's PERST_N is released 100 ms after presence is debounced, with its domain up and PERST_ASSERT clear. -/
  | perstRelease (p : Nat)
  /-- R270: A port trains to DL_Active at the mode of its partner. -/
  | linkTrained (p : Nat) (t : Partner)
  /-- R276: A port's data link layer leaves DL_Active, which contains a host or member port or starts a Courier hold interval. -/
  | linkDown (p : Nat) (n : Nat) (cut : Option (Hdr × Nat × Nat))
  /-- R275: A link enters or leaves L0p, L1 or recovery, or changes width or rate, without leaving DL_Active. -/
  | linkStateChange (p : Nat) (ls : Nat) (rate : Nat) (width : Nat)
  /-- R275: A write of L0P_REQ asks the link to enter L0p at a width, or to return to full width. -/
  | l0pRequest (p : Nat) (code : Nat)
  /-- R268: Setting PERST_ASSERT holds a member's PERST_N low, and clearing it allows release. -/
  | perstAssert (p : Nat) (on : Bool)
  /-- R276: The RETRAIN bit starts link recovery and retraining without link-down. -/
  | retrain (p : Nat)
  /-- R279: REJOIN releases a contained member port once its link is up and its fence complete. -/
  | rejoin (p : Nat)
  /-- R279: The vPPB owner clears DPC Trigger Status, which acts as a REJOIN. -/
  | dpcTriggerStatusClear (p : Nat)
  /-- R279: An uncorrectable error triggers DPC and contains the member port. -/
  | dpcUncorrectable (p : Nat) (tick : Nat) (slot : Nat) (dpc : Bool)
  /-- R280: A CXL.mem request without response for MEM_TO ms contains the member port. -/
  | memTimeout (p : Nat)
  /-- R274: A viral indication is signalled across its coherence domain, or contains the port in domain 0. -/
  | viralIndication (p : Nat) (tick : Nat) (slot : Nat)
  /-- R283: A Courier link trains, authenticates, sets up IDE and opens a session. -/
  | courierBringup (p : Nat) (t : CourierPeer)
  /-- R284: A trained link that failed admission retries from step 3 every 1 s. -/
  | admissionRetry (p : Nat) (t : CourierPeer)
  /-- R287: A Courier flit passes FEC and CRC, and its header, credits and stream are processed, or it is discarded. -/
  | courierFlitReceive (p : Nat) (f : CourierFlit)
  /-- R289: A received NAK makes the sender replay from the flit after ACK. -/
  | nakReceive (p : Nat) (ack : Nat)
  /-- R290: Four replays from one position without progress put the port into Recovery. -/
  | courierRecovery (p : Nat) (ok : Bool)
  /-- R303: A SESSION OPEN flit opens a session and advertises credits. -/
  | sessionOpen (p : Nat) (f : SessionFlit)
  /-- R303: An OPEN_ACK answers OPEN, and the link is admitted. -/
  | sessionOpenAck (p : Nat) (f : SessionFlit)
  /-- R305: A RESUME with the old session ID asks the peer to resume the session. -/
  | sessionResume (p : Nat) (f : SessionFlit)
  /-- R305: A RESUME_ACK makes both ends replay their retry buffers and continue. -/
  | sessionResumeAck (p : Nat) (f : SessionFlit)
  /-- R305: A REFUSE ends the old session, and its traffic is settled. -/
  | sessionRefuse (p : Nat) (f : SessionFlit)
  /-- R303: An unanswered SESSION flit is sent again every 64 ticks. -/
  | sessionResend (p : Nat)
  /-- R305: A hold interval that ends without resume ends the session and fences the link. -/
  | holdExpiry (p : Nat)
  /-- R298: Every 65,536 ticks the follower starts a Fabric Time exchange with a TSLOT flit. -/
  | timeExchange (p : Nat) (sub : Nat)
  /-- R298: The follower receives t2 and t3 in a TIME message, computes its offset and slews. -/
  | time (i : Nat)
  /-- R301: Courier IDE keys are updated by SPDM KEY_UPDATE before 2^32 groups have used them. -/
  | ideKeyUpdate (p : Nat)
  /-- R307: A write to RAS_CONTAIN contains a host or member port with cause 9. -/
  | rasContain (ticket : Nat) (p : Nat)
  /-- R315: The fence completes once every earlier message has settled, and the port stops being an active source. -/
  | fenceComplete (p : Nat)
  /-- R314: The purge that invalidates the clean ways of a fenced member ends. -/
  | memberPurgeEnd (p : Nat)
  /-- R321: A HEAD write releases dead-letter records, and a HEAD beyond TAIL is discarded. -/
  | dlHeadWrite (v : Nat)
  /-- R409: VIN rises above 38 V, the always-on domain comes up, and the inlet guard starts. -/
  | vinRise (vin : Nat) (en : Bool) (f : BootFacts)
  /-- R411: VIN falls below 30 V, and the always-on domain goes down. -/
  | aonLoss
  /-- R468: RST_N held low for 1 µs or more starts a warm reset, which counts from its rise. -/
  | rstNAssert
  /-- R326: A warm reset reruns steps 5 to 8 of start-up and discards caches, Carbon tags, Mailbag and amendments. -/
  | warmReset (f : BootFacts)
  /-- R481: A write of WARM to GLB_RESET starts a warm reset 1 ms after its tick of issue. -/
  | glbReset (who : Iface)
  /-- R341: OPEN sets the amendment owner, empties the stage and enters STAGING. -/
  | amdOpen (who : Iface) (ticket : Nat)
  /-- R340: A write to AMD_STAGE_ADDR appends an item to the stage. -/
  | amdStageItem (who : Iface) (a : Nat)
  /-- R341: CHECK runs the checks of the staged set without dispatching it. -/
  | amdCheck (who : Iface)
  /-- R345: DISPATCH checks the set, and on a pass seals it for its cut-over. -/
  | amdDispatch (who : Iface)
  /-- R341: DISCARD empties the stage and returns to IDLE. -/
  | amdDiscard (who : Iface)
  /-- R350: PERSIST writes the running configuration into the inactive slot. -/
  | amdPersist (who : Iface) (ticket : Nat)
  /-- R342: The checks of a set finish with a pass or the REASON of the first failure. -/
  | amdCheckDone
  /-- R347: At the cut-over postmark every item of a sealed set takes effect together. -/
  | amendmentCutover
  /-- R350: The persist finishes writing its slot. -/
  | persistDone (ok : Bool)
  /-- R353: A management write to a register with no behaviour of its own takes effect at its tick of issue. -/
  | mgmtRegisterWrite (who : Iface) (a : Nat) (v : Word)
  /-- R369: A write to ACK fields clears each flag whose count written back still matches. -/
  | ackFlagWrite (who : Iface) (a : Nat) (v : Word)
  /-- R355: The Switch CCI returns identification. -/
  | identify (who : Iface)
  /-- R355: The Switch CCI returns the state of its background operation. -/
  | backgroundOperationStatus (who : Iface)
  /-- R355: The CCI returns its response message limit. -/
  | getResponseMessageLimit (who : Iface)
  /-- R355: The CCI sets its response message limit. -/
  | setResponseMessageLimit (who : Iface) (n : Nat)
  /-- R355: The CCI returns records from its CXL event logs. -/
  | getEventRecords (who : Iface) (log : Nat)
  /-- R355: The CCI clears records from its CXL event logs. -/
  | clearEventRecords (who : Iface) (log : Nat) (all : Bool) (hs : List Nat)
  /-- R355: The CCI returns its event interrupt policy. -/
  | getEventInterruptPolicy (who : Iface)
  /-- R355: The CCI sets its event interrupt policy. -/
  | setEventInterruptPolicy (who : Iface) (v : Word)
  /-- R356: Get Timestamp returns MBX_TS_OFFSET plus Fabric Time in ns. -/
  | getTimestamp (who : Iface)
  /-- R356: Set Timestamp writes MBX_TS_OFFSET without touching Fabric Time. -/
  | setTimestamp (who : Iface) (v : Word)
  /-- R355: Physical Port Control acts on a member port, and on other ports returns Invalid Input. -/
  | physicalPortControl (who : Iface) (p : Nat) (op : Nat)
  /-- R355: A command is tunnelled to a multi-logical member. -/
  | tunnelManagementCommand (who : Iface) (p : Nat) (body : List Byte)
  /-- R355: A configuration request is sent to an LD of a member. -/
  | sendLdCxlIoConfigurationRequest (who : Iface) (p : Nat) (ld : Nat) (reg : Nat) (data : Option Nat)
  /-- R355: A memory request is sent to an LD of a member. -/
  | sendLdCxlIoMemoryRequest (who : Iface) (p : Nat) (ld : Nat) (off : Nat) (len : Nat) (data : Option (List Byte))
  /-- R355: The CCI returns LD information. -/
  | getLdInfo (who : Iface)
  /-- R355: The CCI returns LD allocations. -/
  | getLdAllocations (who : Iface) (first : Nat) (n : Nat)
  /-- R355: Set LD Allocations returns Unsupported. -/
  | setLdAllocations (who : Iface)
  /-- R355: Set DC Region Configuration becomes a Postmaster set applied at a cut-over. -/
  | setDcRegionConfiguration (who : Iface) (f : Nat) (r : Nat) (bsz : Nat) (sor : Bool)
  /-- R62: A PBR ID assignment command writes an edge port's LOCAL. -/
  | pbrIdAssignment (who : Iface) (p : Nat) (id : Nat)
  /-- R355: Get FW Info returns firmware information. -/
  | getFwInfo (who : Iface)
  /-- R355: Transfer FW returns Unsupported. -/
  | transferFw (who : Iface)
  /-- R355: Activate FW returns Unsupported. -/
  | activateFw (who : Iface)
  /-- R357: Vendor opcode C000h reads 1 to 64 bytes of registers. -/
  | registerRead (who : Iface) (a : Nat) (len : Nat)
  /-- R357: Vendor opcode C001h writes 1 to 64 bytes of registers. -/
  | registerWrite (who : Iface) (a : Nat) (data : List Byte)
  /-- R357: Vendor opcode C002h returns and removes up to MAX event records. -/
  | eventQueueRead (who : Iface) (max : Nat)
  /-- R357: Vendor opcode C003h issues an amendment command as AMD_CMD does. -/
  | amendmentCommand (who : Iface) (cmd : Nat) (ticket : Nat) (cut : Word)
  /-- R357: Vendor opcode C004h stages up to 341 amendment items. -/
  | stageItems (who : Iface) (items : List (Word × Word × Nat))
  /-- R359: An MCTP control message is served. -/
  | mctpControl (who : Iface) (r : MctpCtl)
  /-- R361: A PLDM discovery or monitoring request is served from the sensor repository. -/
  | pldmRequest (who : Iface) (r : PldmReq)
  /-- R361: Every 10 ms the PLDM sensors are updated. -/
  | sensorUpdate (v : Sensors)
  /-- R450: An SPDM request is answered by the device as responder. -/
  | spdmRequest (who : Iface) (r : SpdmReq)
  /-- R451: GET_MEASUREMENTS returns the SHA-384 measurement blocks. -/
  | getMeasurements (who : Iface) (index : Nat)
  /-- R448: SET_CERTIFICATE installs the owner chain in slot 1 within an authenticated session. -/
  | setCertificate (who : Iface) (slot : Nat) (chain : List Byte)
  /-- R363: A Brumin DISCOVER returns GLB_ID and the station address. -/
  | discover (who : Iface) (seq : Nat)
  /-- R363: A Brumin REG_READ returns 1 to 64 bytes of registers. -/
  | regRead (who : Iface) (seq : Nat) (a : Nat) (len : Nat)
  /-- R363: A Brumin REG_WRITE writes registers, once only, inside a session when an owner key is set. -/
  | regWrite (who : Iface) (seq : Nat) (a : Nat) (data : List Byte)
  /-- R363: A Brumin EVQ_READ returns and removes up to MAX event records. -/
  | evqRead (who : Iface) (seq : Nat) (max : Nat)
  /-- R366: Image-load BEGIN invalidates the chosen configuration slot and starts a load. -/
  | imageBegin (who : Iface) (seq : Nat) (len : Nat) (ticket : Nat) (slot : Nat)
  /-- R366: Image-load DATA writes or holds one 1 KiB part. -/
  | imageData (who : Iface) (seq : Nat) (idx : Nat) (body : List Byte)
  /-- R366: Image-load END writes the held parts and tests the slot. -/
  | imageEnd (who : Iface) (seq : Nat) (sig : Bool)
  /-- R363: A Brumin MCTP frame carries one MCTP packet and returns the response packet. -/
  | bruminMctp (who : Iface) (seq : Nat) (r : McMsg)
  /-- R455: A debug CHALLENGE returns a new nonce and the serial. -/
  | challenge (who : Iface) (seq : Nat)
  /-- R456: PRESENT checks a debug token and binds it to the presenting address. -/
  | present (who : Iface) (seq : Nat) (t : DebugToken)
  /-- R456: END ends the debug token in force. -/
  | debugEnd (who : Iface) (seq : Nat)
  /-- R455: Under a token, MRAM_READ returns MRAM bytes outside locked regions. -/
  | mramRead (who : Iface) (seq : Nat) (off : Nat) (len : Nat)
  /-- R455: Under a token, MRAM_WRITE writes MRAM bytes outside locked regions. -/
  | mramWrite (who : Iface) (seq : Nat) (off : Nat) (data : List Byte)
  /-- R457: The RMA sub-operation zeroes the key store, blows the fuse and performs a warm reset. -/
  | rma (who : Iface) (seq : Nat) (f : BootFacts)
  /-- R449: OWNER_SET provisions the owner key once, inside an SPDM session. -/
  | ownerSet (who : Iface) (seq : Nat) (keys : List Byte)
  /-- R385: Firmware BEGIN clears the target slot and starts a transfer. -/
  | fwBegin (who : Iface) (seq : Nat) (len : Nat) (ticket : Nat)
  /-- R386: Firmware DATA writes a 1 KiB part and checks each completed block. -/
  | fwData (who : Iface) (seq : Nat) (idx : Nat) (body : List Byte)
  /-- R387: Firmware END runs the whole-bundle checks and marks the slot verified. -/
  | fwEnd (who : Iface) (seq : Nat) (sig : Bool) (f : BootFacts)
  /-- R389: Firmware ACTIVATE checks the bundle and starts the standby pair's boot. -/
  | fwActivate (who : Iface) (seq : Nat) (ticket : Nat)
  /-- R385: Firmware ABORT ends a running transfer or an activation before handover. -/
  | fwAbort (who : Iface) (seq : Nat)
  /-- R391: Courier links still in hold or admission after 1 s make the activation fail with 0x808. -/
  | courierSettleTimeout
  /-- R389: The standby pair has booted the new image, and the handover begins. -/
  | standbyBootDone (ok : Bool) (sig : Bool)
  /-- R392: The new firmware reports healthy and is committed. -/
  | fwHealthy (ok : Bool)
  /-- R392: No health report within 10 s hands back to the old pair. -/
  | fwHealthTimeout
  /-- R389: The standby pair has reloaded the new firmware, and the microcode rollout starts. -/
  | standbyReloadDone
  /-- R394: After its adaptation run ends, a station loads and checks the new microcode. -/
  | ucodeStationLoad (k : Nat) (ok : Bool)
  /-- R374: A 32-byte read at RAS_EVQ_POP0 returns the record at HEAD and advances HEAD. -/
  | evqPop (who : Iface)
  /-- R374: A HEAD write releases event records and re-arms the ports when the queue empties. -/
  | evqHeadWrite (who : Iface) (v : Nat)
  /-- R370: A change to a monitor's configuration re-evaluates ALARM at once. -/
  | wmConfigWrite (who : Iface) (k : Nat) (hyst : Bool) (v : Word)
  /-- R398: A write to a counter's VALUE discards its pending earlier events. -/
  | ctrValueWrite (c : Nat) (v : Nat)
  /-- R398: CLEAR sets every counter to 0. -/
  | pmuClear
  /-- R398: FREEZE stops counters from counting events of later ticks. -/
  | pmuFreeze (on : Bool)
  /-- R401: A bandwidth window ends, becomes readable and advances WSEQ. -/
  | bwWindowEnd
  /-- R402: A change to WIN discards the accumulating windows. -/
  | bwWinChange (win : Nat)
  /-- R403: EN turning on or SEED changing reseeds every source's Tracking state. -/
  | trackingReseed (w : Word)
  /-- R405: A HEAD write releases Tracking ring entries. -/
  | trkHeadWrite (v : Nat)
  /-- R407: A HEAD write releases recorded-delivery records. -/
  | rdHeadWrite (slot : Nat) (lap : Nat)
  /-- R413: A pre-charge begins once EN is high and the resistor model allows it. -/
  | prechargeStart
  /-- R409: VOUT reaches 92 % of VIN, and the gate ramp begins. -/
  | prechargeComplete (e : Nat)
  /-- R414: A pre-charge not complete after 100 ms trips with cause 5. -/
  | prechargeTimeout (e : Nat)
  /-- R409: The main FET gate reaches full on. -/
  | gateRampDone
  /-- R420: After 1 ms without current limit, PWRGD_OUT is asserted. -/
  | pwrgdAssert (f : BootFacts)
  /-- R410: VIN below 36 V turns the gate off. -/
  | uvlo (vin : Nat) (e : Nat)
  /-- R410: VIN above 62 V turns the gate off. -/
  | ovlo (vin : Nat) (e : Nat)
  /-- R410: VIN within range for 10 ms ends the lockout and restarts from pre-charge. -/
  | lockoutEnd (vin : Nat)
  /-- R415: The input current reaches I_LIM, the limit holds it, and the fault timer runs. -/
  | currentLimitEngage
  /-- R415: The fault timer reaches its limit and the guard trips with cause 1. -/
  | faultTimerTrip
  /-- R416: Input current above 2 × I_LIM trips the guard with cause 2 within 1 µs. -/
  | fastTrip (iin : Nat)
  /-- R417: The FET sensor is read every 10 µs, and validity and temperature trips are judged. -/
  | fetSensorRead (t : Int) (selfTest : Bool) (model : Int) (e : Nat)
  /-- R412: EN going low turns the gate off and deasserts PWRGD_OUT. -/
  | enFall (e : Nat)
  /-- R412: EN rising restarts the guard from pre-charge, and clears a latch after 10 ms low. -/
  | enRise
  /-- R419: REARM over Brumin or I3C clears the latched guard. -/
  | rearm (who : Iface)
  /-- R426: Tj is read every 10 µs, and throttling and the thermal trip are judged. -/
  | junctionRead (tj : Int) (e : Nat)
  /-- R422: A write to INL_PD_CTL turns domains on or off, within the limits of the rule. -/
  | inlPdCtlWrite (who : Iface) (v : Word)
  /-- R421: A domain that was turned on reaches the on state. -/
  | domainPowerOnDone (dom : Nat)
  /-- R423: Overcurrent or loss of regulation isolates a domain. -/
  | domainIsolation (dom : Nat) (oc : Bool) (lr : Bool)
  /-- R429: An uncorrectable table SRAM entry is treated as invalid and rewritten by the Postmaster. -/
  | sramUncorrectable (addr : Nat) (rewritten : Bool)
  /-- R430: Both copies of a slice record fail, and its item is settled at once. -/
  | sliceRecordFailure (s : Nat) (seq : Nat)
  /-- R434: A lost quadrant's slices are taken over by its partner quadrant from the shadows. -/
  | quadrantTakeover (n : Nat) (parity : Bool)
  /-- R435: A lost HBM stack loses its clean ways, and its dirty lines are cleaned from their mirrors. -/
  | hbmStackLoss (b : Nat)
  /-- R436: A lockstep mismatch hands service to the standby Postmaster pair. -/
  | postmasterFailover
  /-- R440: A fatal fault logs KIND 0x1B and pulls ALERT_N low. -/
  | fatalFault (code : Nat)
  /-- R440: With AUTO_RESET set, a warm reset follows 10 ms after the fatal record. -/
  | autoReset (f : BootFacts)
  /-- R441: A HEAD write releases RAS log entries. -/
  | rasLogHeadWrite (v : Nat)
  /-- R454: Writing LOCK requests the TSP lock, which is granted or refused. -/
  | tspLock (who : Iface) (ticket : Nat)
  /-- R454: A host's TSP lock request over DOE is granted or refused. -/
  | tspLockRequest (p : Nat)
  /-- R453: IDE_KM messages set up or refresh a port's IDE keys. -/
  | ideKm (p : Nat) (cm : Bool) (link : Bool) (sel : Nat)
  /-- R453: An IDE check failure makes the stream Insecure and takes the link down. -/
  | ideCheckFailure (p : Nat)
  /-- R456: A debug token reaches the end of its LIFETIME. -/
  | debugTokenExpiry
  /-- R455: A debug nonce expires 60 s after its CHALLENGE. -/
  | nonceExpiry
  /-- R458: Selecting an EXTEST instruction takes every link down. -/
  | jtagExtest (on : Bool)
  /-- R273: A CXL.io request that the Postmaster issued and that has no completion after 50 ms times out. -/
  | postmasterRequestTimeout
  /-- R415: The input current falls below I_LIM: the limit goes inactive, LIMIT clears, the fault timer counts down and the 1 ms power-good wait starts again. -/
  | currentLimitRelease
  /-- R436: The self-test of a faulted Postmaster pair ends: the pair becomes standby, or stays out and RAS_AVAIL shows one pair. -/
  | postmasterPairSelfTestDone (ok : Bool)
  /-- R360: The I3C controller assigns the target its dynamic address. -/
  | i3cDynamicAddressAssignment (a : Nat)
  deriving DecidableEq, Repr

end Sys2Proof
end

