-- ==== Sys2Proof/Decode.lean ====
section
/-!
DEFINITION. The reading of a table word as a command. No row of the opcode table gives bits, so no word spells a command.
-/

namespace Sys2Proof

/-- The command that a word spells: none, for the opcode table gives no row any bits. -/
def decodeTableWord (_nbits _w : Nat) : Option Instr := none

end Sys2Proof
end

