-- ==== Sys2Proof/Config.lean ====
section
/-!
DEFINITION. What an implementation fixes and what the spec leaves open: constants with no body, so that nothing can be
proved of their values.
-/

namespace Sys2Proof

/-- The n-th value that the spec leaves undefined (the state counts how many have been taken). -/
opaque Config.freeValue : Nat → Word

/-- CHECK of an 8-byte Carbon entry or way word, the SEC-DED code over its bits [55:0] (R141, R170): no rule gives the code (DESIGN CHOICE: log entry 178). -/
opaque Config.secded : Nat → BitVec 8

/-- CHECK of a letter, the CRC-16 over the letter and its other fields (R80): no rule gives the polynomial (DESIGN CHOICE: log entry 178). -/
opaque Config.letterCheck : Nat → BitVec 16

/-- Which of the forms that a guard-rule word, or a whole rule, may show before a barrier completes an access sees (R251): by the access's
postmark, and the address of the word or the number of the rule (DEDUCED: log entry 191). -/
opaque Config.ruleSeen : Nat → Nat → Nat

/-- The HBM stack on which a slot of the recorded-delivery log lies: no rule says how the log spreads over the stacks. -/
opaque Config.rdStack : Nat → Nat

/-- Raw MRAM contents that no rule states: what a byte reads as before anything is written to it. -/
def Config.mramBlank : Byte := 0

end Sys2Proof
end

