-- ==== Sys2Proof/Machine/Registers.lean ====
section
/-!
DEFINITION. The register map of the management address space (R11, R13, R477, R482): every register of the spec's field
tables with its address, reset value and access codes, and every field with its bit range.
-/

namespace Sys2Proof.Machine
open Sys2Proof

/-- FTM_NOW (02_postmarks.md). -/
def Reg.FTM_NOW : RegDef := ⟨0x200000, [], 0x0, 0x0, 0x0, 0x0, 0x0, 0x0, []⟩
def F.FTM_NOW_NOW : FieldRef := ⟨Reg.FTM_NOW, 63, 0⟩
/-- FTM_LOAD (02_postmarks.md). -/
def Reg.FTM_LOAD : RegDef := ⟨0x200008, [], 0x0, 0x0, 0x0, 0xFFFFFFFFFFFFFFFF, 0x0, 0x0, []⟩
def F.FTM_LOAD_VALUE : FieldRef := ⟨Reg.FTM_LOAD, 63, 0⟩
/-- FTM_CTL (02_postmarks.md). -/
def Reg.FTM_CTL : RegDef := ⟨0x200010, [], 0x0, 0x7, 0x0, 0x0, 0xFFFFFFFFFFFFFFF8, 0x7, []⟩
def F.FTM_CTL_PPS_EN : FieldRef := ⟨Reg.FTM_CTL, 2, 2⟩
def F.FTM_CTL_SPEC_EN : FieldRef := ⟨Reg.FTM_CTL, 1, 1⟩
def F.FTM_CTL_DEFAULT_ARRIVAL : FieldRef := ⟨Reg.FTM_CTL, 0, 0⟩
/-- FTM_HZ_SEL (02_postmarks.md). -/
def Reg.FTM_HZ_SEL : RegDef := ⟨0x200018, [], 0x0, 0x7FF, 0x0, 0x0, 0xFFFFFFFFFFFFF800, 0x0, []⟩
def F.FTM_HZ_SEL_CLASS : FieldRef := ⟨Reg.FTM_HZ_SEL, 10, 8⟩
def F.FTM_HZ_SEL_POINT : FieldRef := ⟨Reg.FTM_HZ_SEL, 7, 0⟩
/-- FTM_HZ (02_postmarks.md). -/
def Reg.FTM_HZ : RegDef := ⟨0x200020, [], 0x0, 0x0, 0x0, 0x0, 0xFF00000000000000, 0x0, []⟩
def F.FTM_HZ_HOLDER : FieldRef := ⟨Reg.FTM_HZ, 55, 48⟩
def F.FTM_HZ_HORIZON : FieldRef := ⟨Reg.FTM_HZ, 47, 0⟩
/-- FTM_SLIP (02_postmarks.md). -/
def Reg.FTM_SLIP : RegDef := ⟨0x200028, [], 0x0, 0x0, 0x0, 0x0, 0xFFFFFF00FFFE0000, 0x0, [16]⟩
def F.FTM_SLIP_LAST_SOURCE : FieldRef := ⟨Reg.FTM_SLIP, 39, 32⟩
def F.FTM_SLIP_SLIPPED : FieldRef := ⟨Reg.FTM_SLIP, 16, 16⟩
def F.FTM_SLIP_SLIP_COUNT : FieldRef := ⟨Reg.FTM_SLIP, 15, 0⟩
/-- FTM_STALE (02_postmarks.md). -/
def Reg.FTM_STALE : RegDef := ⟨0x200030, [], 0x0, 0x0, 0x0, 0x0, 0xFFFFFF00FFFE0000, 0x0, [16]⟩
def F.FTM_STALE_LAST_SOURCE : FieldRef := ⟨Reg.FTM_STALE, 39, 32⟩
def F.FTM_STALE_STALE : FieldRef := ⟨Reg.FTM_STALE, 16, 16⟩
def F.FTM_STALE_STALE_COUNT : FieldRef := ⟨Reg.FTM_STALE, 15, 0⟩
/-- RTE_SELF (03_postcodes_and_routing.md). -/
def Reg.RTE_SELF : RegDef := ⟨0x9000000, [], 0x0, 0x0, 0x0, 0x0, 0x7FFFFFFFFFC00000, 0x3F000, []⟩
def F.RTE_SELF_VALID : FieldRef := ⟨Reg.RTE_SELF, 63, 63⟩
def F.RTE_SELF_BOARD_ID : FieldRef := ⟨Reg.RTE_SELF, 21, 18⟩
def F.RTE_SELF_DISTRICT : FieldRef := ⟨Reg.RTE_SELF, 17, 12⟩
def F.RTE_SELF_LOCAL : FieldRef := ⟨Reg.RTE_SELF, 11, 0⟩
/-- RTE_UNROUTED (03_postcodes_and_routing.md). -/
def Reg.RTE_UNROUTED : RegDef := ⟨0x9000010, [], 0x0, 0x0, 0x0, 0x0, 0xFC0000F0FFFE0000, 0x0, [16]⟩
def F.RTE_UNROUTED_LAST_DEST : FieldRef := ⟨Reg.RTE_UNROUTED, 57, 40⟩
def F.RTE_UNROUTED_LAST_CAUSE : FieldRef := ⟨Reg.RTE_UNROUTED, 35, 32⟩
def F.RTE_UNROUTED_UNROUTED : FieldRef := ⟨Reg.RTE_UNROUTED, 16, 16⟩
def F.RTE_UNROUTED_UNROUTED_COUNT : FieldRef := ⟨Reg.RTE_UNROUTED, 15, 0⟩
/-- RTE_PORT_ID (03_postcodes_and_routing.md). -/
def Reg.RTE_PORT_ID : RegDef := ⟨0x9000800, [(8, 0, 128)], 0x0, 0xFFFF00000FFF, 0x0, 0x0, 0xFFFF0000FFFC0000, 0xFFFF0003FFFF, []⟩
def F.RTE_PORT_ID_MC_BASE : FieldRef := ⟨Reg.RTE_PORT_ID, 47, 32⟩
def F.RTE_PORT_ID_DISTRICT : FieldRef := ⟨Reg.RTE_PORT_ID, 17, 12⟩
def F.RTE_PORT_ID_LOCAL : FieldRef := ⟨Reg.RTE_PORT_ID, 11, 0⟩
/-- RTE_DIST (03_postcodes_and_routing.md). -/
def Reg.RTE_DIST : RegDef := ⟨0x9001000, [(8, 0, 64)], 0x0, 0x800000007F7F7F7F, 0x0, 0x0, 0x7FFFFFFF80808080, 0x800000007F7F7F7F, []⟩
def F.RTE_DIST_VALID : FieldRef := ⟨Reg.RTE_DIST, 63, 63⟩
def F.RTE_DIST_SLOT3 : FieldRef := ⟨Reg.RTE_DIST, 30, 24⟩
def F.RTE_DIST_SLOT2 : FieldRef := ⟨Reg.RTE_DIST, 22, 16⟩
def F.RTE_DIST_SLOT1 : FieldRef := ⟨Reg.RTE_DIST, 14, 8⟩
def F.RTE_DIST_SLOT0 : FieldRef := ⟨Reg.RTE_DIST, 6, 0⟩
/-- RTE_LOCAL (03_postcodes_and_routing.md). -/
def Reg.RTE_LOCAL : RegDef := ⟨0x9008000, [(8, 0, 4096)], 0x0, 0x8C0000007F7F7F7F, 0x0, 0x0, 0x73FFFFFF80808080, 0x8C0000007F7F7F7F, []⟩
def F.RTE_LOCAL_VALID : FieldRef := ⟨Reg.RTE_LOCAL, 63, 63⟩
def F.RTE_LOCAL_KIND : FieldRef := ⟨Reg.RTE_LOCAL, 59, 58⟩
def F.RTE_LOCAL_SLOT3 : FieldRef := ⟨Reg.RTE_LOCAL, 30, 24⟩
def F.RTE_LOCAL_SLOT2 : FieldRef := ⟨Reg.RTE_LOCAL, 22, 16⟩
def F.RTE_LOCAL_SLOT1 : FieldRef := ⟨Reg.RTE_LOCAL, 14, 8⟩
def F.RTE_LOCAL_SLOT0 : FieldRef := ⟨Reg.RTE_LOCAL, 6, 0⟩
/-- RTE_HR_BASE (03_postcodes_and_routing.md). -/
def Reg.RTE_HR_BASE : RegDef := ⟨0x9020000, [(64, 0, 1024)], 0x0, 0x800FFFFFF0000000, 0x0, 0x0, 0x7FF000000FFFFFFF, 0x800FFFFFF0000000, []⟩
def F.RTE_HR_BASE_VALID : FieldRef := ⟨Reg.RTE_HR_BASE, 63, 63⟩
def F.RTE_HR_BASE_BASE : FieldRef := ⟨Reg.RTE_HR_BASE, 51, 28⟩
/-- RTE_HR_CFG (03_postcodes_and_routing.md). -/
def Reg.RTE_HR_CFG : RegDef := ⟨0x9020008, [(64, 0, 1024)], 0x0, 0xFEFFFFFF03FFFF, 0x0, 0x0, 0xFF01000000FC0000, 0xFEFFFFFF03FFFF, []⟩
def F.RTE_HR_CFG_WAYS : FieldRef := ⟨Reg.RTE_HR_CFG, 55, 52⟩
def F.RTE_HR_CFG_GRAN : FieldRef := ⟨Reg.RTE_HR_CFG, 51, 49⟩
def F.RTE_HR_CFG_SIZE : FieldRef := ⟨Reg.RTE_HR_CFG, 47, 24⟩
def F.RTE_HR_CFG_HOME : FieldRef := ⟨Reg.RTE_HR_CFG, 17, 0⟩
/-- RTE_HR_MEMA (03_postcodes_and_routing.md). -/
def Reg.RTE_HR_MEMA : RegDef := ⟨0x9020010, [(64, 0, 1024)], 0x0, 0xFFFFFFFFFFFFFFFF, 0x0, 0x0, 0x0, 0xFFFFFFFFFFFFFFFF, []⟩
def F.RTE_HR_MEMA_MEMBERS : FieldRef := ⟨Reg.RTE_HR_MEMA, 63, 0⟩
/-- RTE_HR_MEMB (03_postcodes_and_routing.md). -/
def Reg.RTE_HR_MEMB : RegDef := ⟨0x9020018, [(64, 0, 1024)], 0x0, 0xFFFFFFFFFFFFFFFF, 0x0, 0x0, 0x0, 0xFFFFFFFFFFFFFFFF, []⟩
def F.RTE_HR_MEMB_MEMBERS : FieldRef := ⟨Reg.RTE_HR_MEMB, 63, 0⟩
/-- RTE_HR_MBASE (03_postcodes_and_routing.md). -/
def Reg.RTE_HR_MBASE : RegDef := ⟨0x9020020, [(64, 0, 1024)], 0x0, 0xFFFFFFFFF0000000, 0x0, 0x0, 0xFFFFFFF, 0xFFFFFFFFF0000000, []⟩
def F.RTE_HR_MBASE_MBASE : FieldRef := ⟨Reg.RTE_HR_MBASE, 63, 28⟩
/-- RTE_MCG_LO (03_postcodes_and_routing.md). -/
def Reg.RTE_MCG_LO : RegDef := ⟨0x9100000, [(16, 0, 65536)], 0x0, 0xFFFFFFFFFFFFFFFF, 0x0, 0x0, 0x0, 0xFFFFFFFFFFFFFFFF, []⟩
def F.RTE_MCG_LO_PORTS_LO : FieldRef := ⟨Reg.RTE_MCG_LO, 63, 0⟩
/-- RTE_MCG_HI (03_postcodes_and_routing.md). -/
def Reg.RTE_MCG_HI : RegDef := ⟨0x9100008, [(16, 0, 65536)], 0x0, 0xFFFFFFFFFFFFFFFF, 0x0, 0x0, 0x0, 0xFFFFFFFFFFFFFFFF, []⟩
def F.RTE_MCG_HI_PORTS_HI : FieldRef := ⟨Reg.RTE_MCG_HI, 63, 0⟩
/-- TEN_FRANK_CFG (03_postcodes_and_routing.md). -/
def Reg.TEN_FRANK_CFG : RegDef := ⟨0x6040000, [(8, 0, 128)], 0x0, 0xFFFFFFFF0000FFFF, 0x0, 0x0, 0xFFFF0000, 0xFFFFFFFF0000FFFF, []⟩
def F.TEN_FRANK_CFG_THRESHOLD : FieldRef := ⟨Reg.TEN_FRANK_CFG, 63, 48⟩
def F.TEN_FRANK_CFG_BUS_LAST : FieldRef := ⟨Reg.TEN_FRANK_CFG, 47, 40⟩
def F.TEN_FRANK_CFG_BUS_FIRST : FieldRef := ⟨Reg.TEN_FRANK_CFG, 39, 32⟩
def F.TEN_FRANK_CFG_LD_MASK : FieldRef := ⟨Reg.TEN_FRANK_CFG, 15, 0⟩
/-- TEN_FRANK_STATUS (03_postcodes_and_routing.md). -/
def Reg.TEN_FRANK_STATUS : RegDef := ⟨0x6040400, [(8, 0, 128)], 0x0, 0x0, 0x0, 0x0, 0xFE00FFFE0000, 0x0, [16]⟩
def F.TEN_FRANK_STATUS_TOTAL : FieldRef := ⟨Reg.TEN_FRANK_STATUS, 63, 48⟩
def F.TEN_FRANK_STATUS_CONTAINED : FieldRef := ⟨Reg.TEN_FRANK_STATUS, 40, 40⟩
def F.TEN_FRANK_STATUS_LAST_KIND : FieldRef := ⟨Reg.TEN_FRANK_STATUS, 39, 32⟩
def F.TEN_FRANK_STATUS_MISMATCH : FieldRef := ⟨Reg.TEN_FRANK_STATUS, 16, 16⟩
def F.TEN_FRANK_STATUS_MISMATCH_COUNT : FieldRef := ⟨Reg.TEN_FRANK_STATUS, 15, 0⟩
/-- TEN_FRANK_DMASK (03_postcodes_and_routing.md). -/
def Reg.TEN_FRANK_DMASK : RegDef := ⟨0x6040800, [(8, 0, 128)], 0x0, 0xFFFFFFFFFFFFFFFF, 0x0, 0x0, 0x0, 0xFFFFFFFFFFFFFFFF, []⟩
def F.TEN_FRANK_DMASK_DISTRICTS : FieldRef := ⟨Reg.TEN_FRANK_DMASK, 63, 0⟩
/-- SOF_ALPHA (04_sorting_office.md). -/
def Reg.SOF_ALPHA : RegDef := ⟨0x2000000, [], 0x2468, 0xFFFF, 0x0, 0x0, 0xFFFFFFFFFFFF0000, 0xFFFF, []⟩
def F.SOF_ALPHA_ALPHA_SC3 : FieldRef := ⟨Reg.SOF_ALPHA, 15, 12⟩
def F.SOF_ALPHA_ALPHA_SC2 : FieldRef := ⟨Reg.SOF_ALPHA, 11, 8⟩
def F.SOF_ALPHA_ALPHA_SC1 : FieldRef := ⟨Reg.SOF_ALPHA, 7, 4⟩
def F.SOF_ALPHA_ALPHA_SC0 : FieldRef := ⟨Reg.SOF_ALPHA, 3, 0⟩
/-- SOF_FREE (04_sorting_office.md). -/
def Reg.SOF_FREE : RegDef := ⟨0x2000008, [], 0x1F2680F9340, 0x0, 0x0, 0x40000000000, 0xFFFFF80000000000, 0x0, []⟩
def F.SOF_FREE_LOW_RESET : FieldRef := ⟨Reg.SOF_FREE, 42, 42⟩
def F.SOF_FREE_LOW : FieldRef := ⟨Reg.SOF_FREE, 41, 21⟩
def F.SOF_FREE_FREE : FieldRef := ⟨Reg.SOF_FREE, 20, 0⟩
/-- SOF_PLANE_STATUS (04_sorting_office.md). -/
def Reg.SOF_PLANE_STATUS : RegDef := ⟨0x2000010, [], 0x0, 0x0, 0x0, 0x0, 0xFFFE0000FFFFFF00, 0x0, [48]⟩
def F.SOF_PLANE_STATUS_RETIRED : FieldRef := ⟨Reg.SOF_PLANE_STATUS, 48, 48⟩
def F.SOF_PLANE_STATUS_RETIRED_COUNT : FieldRef := ⟨Reg.SOF_PLANE_STATUS, 47, 32⟩
def F.SOF_PLANE_STATUS_PL3_STATE : FieldRef := ⟨Reg.SOF_PLANE_STATUS, 7, 6⟩
def F.SOF_PLANE_STATUS_PL2_STATE : FieldRef := ⟨Reg.SOF_PLANE_STATUS, 5, 4⟩
def F.SOF_PLANE_STATUS_PL1_STATE : FieldRef := ⟨Reg.SOF_PLANE_STATUS, 3, 2⟩
def F.SOF_PLANE_STATUS_PL0_STATE : FieldRef := ⟨Reg.SOF_PLANE_STATUS, 1, 0⟩
/-- SOF_PLANE_CTL (04_sorting_office.md). -/
def Reg.SOF_PLANE_CTL : RegDef := ⟨0x2000018, [], 0x0, 0x0, 0xFF, 0x0, 0xFFFFFFFFFFFFFF00, 0x0, []⟩
def F.SOF_PLANE_CTL_RETIRE : FieldRef := ⟨Reg.SOF_PLANE_CTL, 7, 4⟩
def F.SOF_PLANE_CTL_RESTORE : FieldRef := ⟨Reg.SOF_PLANE_CTL, 3, 0⟩
/-- SOF_MAILBAG (04_sorting_office.md). -/
def Reg.SOF_MAILBAG : RegDef := ⟨0x2000020, [], 0x400000000000, 0x0, 0x0, 0x0, 0xFFFF000000000000, 0xFFFFFF000000, []⟩
def F.SOF_MAILBAG_SIZE : FieldRef := ⟨Reg.SOF_MAILBAG, 47, 24⟩
def F.SOF_MAILBAG_USED : FieldRef := ⟨Reg.SOF_MAILBAG, 23, 0⟩
/-- SOF_FLUSH (04_sorting_office.md). -/
def Reg.SOF_FLUSH : RegDef := ⟨0x2000028, [], 0x0, 0x0, 0x0, 0xFFFF070000007F1F, 0xF8FFFFFF80E0, 0x0, []⟩
def F.SOF_FLUSH_TICKET : FieldRef := ⟨Reg.SOF_FLUSH, 63, 48⟩
def F.SOF_FLUSH_MODE : FieldRef := ⟨Reg.SOF_FLUSH, 42, 42⟩
def F.SOF_FLUSH_SCOPE : FieldRef := ⟨Reg.SOF_FLUSH, 41, 40⟩
def F.SOF_FLUSH_PORT : FieldRef := ⟨Reg.SOF_FLUSH, 14, 8⟩
def F.SOF_FLUSH_MC : FieldRef := ⟨Reg.SOF_FLUSH, 4, 2⟩
def F.SOF_FLUSH_SC : FieldRef := ⟨Reg.SOF_FLUSH, 1, 0⟩
/-- SOF_FLUSH_STATUS (04_sorting_office.md). -/
def Reg.SOF_FLUSH_STATUS : RegDef := ⟨0x2000030, [], 0x0, 0x0, 0x0, 0x0, 0x0, 0x0, []⟩
def F.SOF_FLUSH_STATUS_TICKET : FieldRef := ⟨Reg.SOF_FLUSH_STATUS, 63, 48⟩
def F.SOF_FLUSH_STATUS_STATE : FieldRef := ⟨Reg.SOF_FLUSH_STATUS, 47, 44⟩
def F.SOF_FLUSH_STATUS_REASON : FieldRef := ⟨Reg.SOF_FLUSH_STATUS, 43, 32⟩
def F.SOF_FLUSH_STATUS_DONE_UNITS : FieldRef := ⟨Reg.SOF_FLUSH_STATUS, 31, 0⟩
/-- SOF_FLUSH_RESULT (04_sorting_office.md). -/
def Reg.SOF_FLUSH_RESULT : RegDef := ⟨0x2000038, [], 0x0, 0x0, 0x0, 0x0, 0x0, 0x0, []⟩
def F.SOF_FLUSH_RESULT_NULLIFIED : FieldRef := ⟨Reg.SOF_FLUSH_RESULT, 63, 32⟩
def F.SOF_FLUSH_RESULT_DISCARDED : FieldRef := ⟨Reg.SOF_FLUSH_RESULT, 31, 0⟩
/-- SOF_PORT_CFG (04_sorting_office.md). -/
def Reg.SOF_PORT_CFG : RegDef := ⟨0x2001000, [(8, 0, 128)], 0x100000100003, 0x3FFFFFFFFFFFFF, 0x0, 0x0, 0xFFC0000000000000, 0x3FFFFFFFFFFFFF, []⟩
def F.SOF_PORT_CFG_CAP_SC3 : FieldRef := ⟨Reg.SOF_PORT_CFG, 53, 30⟩
def F.SOF_PORT_CFG_CAP_SC2 : FieldRef := ⟨Reg.SOF_PORT_CFG, 29, 6⟩
def F.SOF_PORT_CFG_CT : FieldRef := ⟨Reg.SOF_PORT_CFG, 5, 0⟩
/-- SOF_PORT_STATUS (04_sorting_office.md). -/
def Reg.SOF_PORT_STATUS : RegDef := ⟨0x2001400, [(8, 0, 128)], 0x0, 0x0, 0x0, 0x0, 0xFFFFF800FFFE0000, 0x0, [16]⟩
def F.SOF_PORT_STATUS_SORTER : FieldRef := ⟨Reg.SOF_PORT_STATUS, 42, 32⟩
def F.SOF_PORT_STATUS_UNDERRUN : FieldRef := ⟨Reg.SOF_PORT_STATUS, 16, 16⟩
def F.SOF_PORT_STATUS_UNDERRUN_COUNT : FieldRef := ⟨Reg.SOF_PORT_STATUS, 15, 0⟩
/-- SOF_Q_OCC (04_sorting_office.md). -/
def Reg.SOF_Q_OCC : RegDef := ⟨0x2010000, [(8, 0, 4096)], 0x0, 0x0, 0x0, 0x0, 0xFF000000FFE00000, 0x0, []⟩
def F.SOF_Q_OCC_SPILL : FieldRef := ⟨Reg.SOF_Q_OCC, 55, 32⟩
def F.SOF_Q_OCC_OCC : FieldRef := ⟨Reg.SOF_Q_OCC, 20, 0⟩
/-- SOF_DEVLOAD_CFG (05_mail_classes.md). -/
def Reg.SOF_DEVLOAD_CFG : RegDef := ⟨0x2000040, [], 0x1932000040, 0xFFFF00FFFF, 0x0, 0x0, 0xFFFFFF0000FF0000, 0xFFFF00FFFF, []⟩
def F.SOF_DEVLOAD_CFG_LIGHT_PCT : FieldRef := ⟨Reg.SOF_DEVLOAD_CFG, 39, 32⟩
def F.SOF_DEVLOAD_CFG_SEV_PCT : FieldRef := ⟨Reg.SOF_DEVLOAD_CFG, 31, 24⟩
def F.SOF_DEVLOAD_CFG_WIN : FieldRef := ⟨Reg.SOF_DEVLOAD_CFG, 15, 0⟩
/-- SOF_DEVLOAD_EVT (05_mail_classes.md). -/
def Reg.SOF_DEVLOAD_EVT : RegDef := ⟨0x2000048, [], 0x0, 0x0, 0x0, 0x0, 0xFFFFFFFF80FE0000, 0x0, [16]⟩
def F.SOF_DEVLOAD_EVT_LAST_PORT : FieldRef := ⟨Reg.SOF_DEVLOAD_EVT, 30, 24⟩
def F.SOF_DEVLOAD_EVT_SEVERE : FieldRef := ⟨Reg.SOF_DEVLOAD_EVT, 16, 16⟩
def F.SOF_DEVLOAD_EVT_SEVERE_COUNT : FieldRef := ⟨Reg.SOF_DEVLOAD_EVT, 15, 0⟩
/-- SOF_MC_CFG (05_mail_classes.md). -/
def Reg.SOF_MC_CFG : RegDef := ⟨0x2001800, [(8, 0, 128)], 0xA08080808080810, 0xFFFFFFFFFFFFFFFF, 0x0, 0x0, 0x0, 0xFFFFFFFFFFFFFFFF, []⟩
def F.SOF_MC_CFG_STALL_MS : FieldRef := ⟨Reg.SOF_MC_CFG, 63, 56⟩
def F.SOF_MC_CFG_W_MC6 : FieldRef := ⟨Reg.SOF_MC_CFG, 55, 48⟩
def F.SOF_MC_CFG_W_MC5 : FieldRef := ⟨Reg.SOF_MC_CFG, 47, 40⟩
def F.SOF_MC_CFG_W_MC4 : FieldRef := ⟨Reg.SOF_MC_CFG, 39, 32⟩
def F.SOF_MC_CFG_W_MC3 : FieldRef := ⟨Reg.SOF_MC_CFG, 31, 24⟩
def F.SOF_MC_CFG_W_MC2 : FieldRef := ⟨Reg.SOF_MC_CFG, 23, 16⟩
def F.SOF_MC_CFG_W_MC1 : FieldRef := ⟨Reg.SOF_MC_CFG, 15, 8⟩
def F.SOF_MC_CFG_W_MC0 : FieldRef := ⟨Reg.SOF_MC_CFG, 7, 0⟩
/-- SOF_MC7_POLICE (05_mail_classes.md). -/
def Reg.SOF_MC7_POLICE : RegDef := ⟨0x2001C00, [(8, 0, 128)], 0x40000003E8, 0xFF000FFFFF, 0x0, 0x0, 0xFFFFFF00FFF00000, 0xFF000FFFFF, []⟩
def F.SOF_MC7_POLICE_BURST : FieldRef := ⟨Reg.SOF_MC7_POLICE, 39, 32⟩
def F.SOF_MC7_POLICE_RATE : FieldRef := ⟨Reg.SOF_MC7_POLICE, 19, 0⟩
/-- SOF_ING_STATUS (05_mail_classes.md). -/
def Reg.SOF_ING_STATUS : RegDef := ⟨0x2002000, [(8, 0, 128)], 0x0, 0x0, 0x0, 0x0, 0xFE00FDFFFE0000, 0x0, [16]⟩
def F.SOF_ING_STATUS_WITHHELD : FieldRef := ⟨Reg.SOF_ING_STATUS, 63, 56⟩
def F.SOF_ING_STATUS_UNRECEIPTED : FieldRef := ⟨Reg.SOF_ING_STATUS, 48, 40⟩
def F.SOF_ING_STATUS_STALLED : FieldRef := ⟨Reg.SOF_ING_STATUS, 33, 33⟩
def F.SOF_ING_STATUS_WITHHOLD : FieldRef := ⟨Reg.SOF_ING_STATUS, 16, 16⟩
def F.SOF_ING_STATUS_WITHHOLD_COUNT : FieldRef := ⟨Reg.SOF_ING_STATUS, 15, 0⟩
/-- SOF_DEVLOAD_STATUS (05_mail_classes.md). -/
def Reg.SOF_DEVLOAD_STATUS : RegDef := ⟨0x2002400, [(8, 0, 128)], 0x0, 0x0, 0x0, 0x0, 0x0, 0x0, []⟩
def F.SOF_DEVLOAD_STATUS_LEVELS : FieldRef := ⟨Reg.SOF_DEVLOAD_STATUS, 63, 0⟩
/-- HQn_SLICE_MAP (06_coherence.md). -/
def Reg.HQ_SLICE_MAP : RegDef := ⟨0x3000000, [(4194304, 0, 4)], 0x0, 0x0, 0x0, 0x0, 0xFFFFFFFC00000000, 0x0, []⟩
def F.HQ_SLICE_MAP_SERVED_BY : FieldRef := ⟨Reg.HQ_SLICE_MAP, 33, 32⟩
def F.HQ_SLICE_MAP_PAUSED : FieldRef := ⟨Reg.HQ_SLICE_MAP, 31, 16⟩
def F.HQ_SLICE_MAP_ACTIVE : FieldRef := ⟨Reg.HQ_SLICE_MAP, 15, 0⟩
/-- HQn_CARBON_CFG (06_coherence.md). -/
def Reg.HQ_CARBON_CFG : RegDef := ⟨0x3000008, [(4194304, 0, 4)], 0x2000017E00, 0x0, 0x0, 0x0, 0xFFFFFFC0F0000000, 0x3F0FFFFFFF, []⟩
def F.HQ_CARBON_CFG_WIDE : FieldRef := ⟨Reg.HQ_CARBON_CFG, 37, 32⟩
def F.HQ_CARBON_CFG_K : FieldRef := ⟨Reg.HQ_CARBON_CFG, 27, 0⟩
/-- HQn_CARBON_STATUS (06_coherence.md). -/
def Reg.HQ_CARBON_STATUS : RegDef := ⟨0x3000010, [(4194304, 0, 4)], 0x0, 0x0, 0x0, 0x0, 0xFFF00000FF000000, 0x0, [16]⟩
def F.HQ_CARBON_STATUS_WIDE_USED : FieldRef := ⟨Reg.HQ_CARBON_STATUS, 51, 32⟩
def F.HQ_CARBON_STATUS_EVB_USED : FieldRef := ⟨Reg.HQ_CARBON_STATUS, 23, 17⟩
def F.HQ_CARBON_STATUS_WIDE_FULL : FieldRef := ⟨Reg.HQ_CARBON_STATUS, 16, 16⟩
def F.HQ_CARBON_STATUS_WIDE_FULL_COUNT : FieldRef := ⟨Reg.HQ_CARBON_STATUS, 15, 0⟩
/-- HQn_PROTO_ERR (06_coherence.md). -/
def Reg.HQ_PROTO_ERR : RegDef := ⟨0x3000018, [(4194304, 0, 4)], 0x0, 0x0, 0x0, 0x0, 0xFC0000F0FFFE0000, 0x0, [16]⟩
def F.HQ_PROTO_ERR_LAST_SOURCE : FieldRef := ⟨Reg.HQ_PROTO_ERR, 57, 40⟩
def F.HQ_PROTO_ERR_LAST_KIND : FieldRef := ⟨Reg.HQ_PROTO_ERR, 35, 32⟩
def F.HQ_PROTO_ERR_ERR : FieldRef := ⟨Reg.HQ_PROTO_ERR, 16, 16⟩
def F.HQ_PROTO_ERR_ERR_COUNT : FieldRef := ⟨Reg.HQ_PROTO_ERR, 15, 0⟩
/-- HQn_REMOVE (06_coherence.md). -/
def Reg.HQ_REMOVE : RegDef := ⟨0x3000020, [(4194304, 0, 4)], 0x0, 0x0, 0x0, 0xFFFF0000000001FF, 0xFFFFFFFFFE00, 0x0, []⟩
def F.HQ_REMOVE_TICKET : FieldRef := ⟨Reg.HQ_REMOVE, 63, 48⟩
def F.HQ_REMOVE_HOST : FieldRef := ⟨Reg.HQ_REMOVE, 8, 0⟩
/-- HQn_REMOVE_STATUS (06_coherence.md). -/
def Reg.HQ_REMOVE_STATUS : RegDef := ⟨0x3000028, [(4194304, 0, 4)], 0x0, 0x0, 0x0, 0x0, 0x0, 0x0, []⟩
def F.HQ_REMOVE_STATUS_TICKET : FieldRef := ⟨Reg.HQ_REMOVE_STATUS, 63, 48⟩
def F.HQ_REMOVE_STATUS_STATE : FieldRef := ⟨Reg.HQ_REMOVE_STATUS, 47, 44⟩
def F.HQ_REMOVE_STATUS_REASON : FieldRef := ⟨Reg.HQ_REMOVE_STATUS, 43, 32⟩
def F.HQ_REMOVE_STATUS_DONE_UNITS : FieldRef := ⟨Reg.HQ_REMOVE_STATUS, 31, 0⟩
/-- HQn_HOST_CFG (06_coherence.md). -/
def Reg.HQ_HOST_CFG : RegDef := ⟨0x3001000, [(4194304, 0, 4), (8, 0, 512)], 0x0, 0x8C000FFFFFFFFFFF, 0x0, 0x0, 0x73FFF00000000000, 0x8C000FFFFFFFFFFF, []⟩
def F.HQ_HOST_CFG_VALID : FieldRef := ⟨Reg.HQ_HOST_CFG, 63, 63⟩
def F.HQ_HOST_CFG_SC : FieldRef := ⟨Reg.HQ_HOST_CFG, 59, 58⟩
def F.HQ_HOST_CFG_QUOTA : FieldRef := ⟨Reg.HQ_HOST_CFG, 43, 18⟩
def F.HQ_HOST_CFG_POSTCODE : FieldRef := ⟨Reg.HQ_HOST_CFG, 17, 0⟩
/-- HQn_HOST_STATUS (06_coherence.md). -/
def Reg.HQ_HOST_STATUS : RegDef := ⟨0x3002000, [(4194304, 0, 4), (8, 0, 512)], 0x0, 0x0, 0x0, 0x0, 0xFFFE0000, 0x0, [16]⟩
def F.HQ_HOST_STATUS_USED : FieldRef := ⟨Reg.HQ_HOST_STATUS, 63, 34⟩
def F.HQ_HOST_STATUS_OVER : FieldRef := ⟨Reg.HQ_HOST_STATUS, 33, 33⟩
def F.HQ_HOST_STATUS_SCRUB : FieldRef := ⟨Reg.HQ_HOST_STATUS, 32, 32⟩
def F.HQ_HOST_STATUS_QUOTA_EVT : FieldRef := ⟨Reg.HQ_HOST_STATUS, 16, 16⟩
def F.HQ_HOST_STATUS_QUOTA_EVT_COUNT : FieldRef := ⟨Reg.HQ_HOST_STATUS, 15, 0⟩
/-- FCH_CFG (07_fabric_cache_and_atomics.md). -/
def Reg.FCH_CFG : RegDef := ⟨0x4000000, [], 0x505A04400000, 0xFFFF0F7FFFFF, 0x0, 0x0, 0xFFFF0000F0800000, 0xFFFF0F7FFFFF, []⟩
def F.FCH_CFG_CLEAN_STOP : FieldRef := ⟨Reg.FCH_CFG, 47, 40⟩
def F.FCH_CFG_CLEAN_START : FieldRef := ⟨Reg.FCH_CFG, 39, 32⟩
def F.FCH_CFG_MIRROR_MAX : FieldRef := ⟨Reg.FCH_CFG, 27, 24⟩
def F.FCH_CFG_BUDGET : FieldRef := ⟨Reg.FCH_CFG, 22, 0⟩
/-- FCH_HBM_SHARE (07_fabric_cache_and_atomics.md). -/
def Reg.FCH_HBM_SHARE : RegDef := ⟨0x4000008, [], 0x222A, 0xFFFF, 0x0, 0x0, 0xFFFFFFFFFFFF0000, 0xFFFF, []⟩
def F.FCH_HBM_SHARE_W_MAILBAG : FieldRef := ⟨Reg.FCH_HBM_SHARE, 15, 12⟩
def F.FCH_HBM_SHARE_W_MIRROR : FieldRef := ⟨Reg.FCH_HBM_SHARE, 11, 8⟩
def F.FCH_HBM_SHARE_W_CARBON : FieldRef := ⟨Reg.FCH_HBM_SHARE, 7, 4⟩
def F.FCH_HBM_SHARE_W_CACHE : FieldRef := ⟨Reg.FCH_HBM_SHARE, 3, 0⟩
/-- FCH_STATUS (07_fabric_cache_and_atomics.md). -/
def Reg.FCH_STATUS : RegDef := ⟨0x4000010, [], 0x0, 0x0, 0x0, 0x0, 0xE0000000FFFE0000, 0x0, [16]⟩
def F.FCH_STATUS_DIRTY : FieldRef := ⟨Reg.FCH_STATUS, 60, 32⟩
def F.FCH_STATUS_FORCED : FieldRef := ⟨Reg.FCH_STATUS, 16, 16⟩
def F.FCH_STATUS_FORCED_COUNT : FieldRef := ⟨Reg.FCH_STATUS, 15, 0⟩
/-- FCH_AROUND (07_fabric_cache_and_atomics.md). -/
def Reg.FCH_AROUND : RegDef := ⟨0x4000018, [], 0x0, 0x0, 0x0, 0x0, 0xFFFFFFFFFFFE0000, 0x0, [16]⟩
def F.FCH_AROUND_AROUND : FieldRef := ⟨Reg.FCH_AROUND, 16, 16⟩
def F.FCH_AROUND_AROUND_COUNT : FieldRef := ⟨Reg.FCH_AROUND, 15, 0⟩
/-- FCH_CLEAN (07_fabric_cache_and_atomics.md). -/
def Reg.FCH_CLEAN : RegDef := ⟨0x4000020, [], 0x0, 0x0, 0x0, 0xFFFF000000000000, 0xFFFFFFFFFFFF, 0x0, []⟩
def F.FCH_CLEAN_TICKET : FieldRef := ⟨Reg.FCH_CLEAN, 63, 48⟩
/-- FCH_CLEAN_STATUS (07_fabric_cache_and_atomics.md). -/
def Reg.FCH_CLEAN_STATUS : RegDef := ⟨0x4000028, [], 0x0, 0x0, 0x0, 0x0, 0x0, 0x0, []⟩
def F.FCH_CLEAN_STATUS_TICKET : FieldRef := ⟨Reg.FCH_CLEAN_STATUS, 63, 48⟩
def F.FCH_CLEAN_STATUS_STATE : FieldRef := ⟨Reg.FCH_CLEAN_STATUS, 47, 44⟩
def F.FCH_CLEAN_STATUS_REASON : FieldRef := ⟨Reg.FCH_CLEAN_STATUS, 43, 32⟩
def F.FCH_CLEAN_STATUS_DONE_UNITS : FieldRef := ⟨Reg.FCH_CLEAN_STATUS, 31, 0⟩
/-- FCH_MIRROR_CLR (07_fabric_cache_and_atomics.md). -/
def Reg.FCH_MIRROR_CLR : RegDef := ⟨0x4000030, [], 0x0, 0x0, 0x0, 0xFF, 0xFFFFFFFFFFFFFF00, 0x0, []⟩
def F.FCH_MIRROR_CLR_GROUP : FieldRef := ⟨Reg.FCH_MIRROR_CLR, 7, 0⟩
/-- FCH_MIRROR_EVT (07_fabric_cache_and_atomics.md). -/
def Reg.FCH_MIRROR_EVT : RegDef := ⟨0x4000038, [], 0x0, 0x0, 0x0, 0x0, 0xFFFFFF00FFFE0000, 0x0, [16]⟩
def F.FCH_MIRROR_EVT_LAST_GROUP : FieldRef := ⟨Reg.FCH_MIRROR_EVT, 39, 32⟩
def F.FCH_MIRROR_EVT_DEGRADE : FieldRef := ⟨Reg.FCH_MIRROR_EVT, 16, 16⟩
def F.FCH_MIRROR_EVT_DEGRADE_COUNT : FieldRef := ⟨Reg.FCH_MIRROR_EVT, 15, 0⟩
/-- FCH_SLICE (07_fabric_cache_and_atomics.md). -/
def Reg.FCH_SLICE : RegDef := ⟨0x4001000, [(8, 0, 64)], 0x0, 0x0, 0x0, 0x0, 0xFF800000FFFFFFFC, 0x0, []⟩
def F.FCH_SLICE_DIRTY : FieldRef := ⟨Reg.FCH_SLICE, 54, 32⟩
def F.FCH_SLICE_THROUGH : FieldRef := ⟨Reg.FCH_SLICE, 1, 1⟩
def F.FCH_SLICE_CLEANING : FieldRef := ⟨Reg.FCH_SLICE, 0, 0⟩
/-- FCH_MGRP_CTL (07_fabric_cache_and_atomics.md). -/
def Reg.FCH_MGRP_CTL : RegDef := ⟨0x4002000, [(32, 1, 255)], 0x0, 0x8000000000000003, 0x0, 0x0, 0x7FFFFFFFFFFFFFFC, 0x8000000000000003, []⟩
def F.FCH_MGRP_CTL_VALID : FieldRef := ⟨Reg.FCH_MGRP_CTL, 63, 63⟩
def F.FCH_MGRP_CTL_COPIES : FieldRef := ⟨Reg.FCH_MGRP_CTL, 1, 0⟩
/-- FCH_MGRP_OFFk (07_fabric_cache_and_atomics.md). -/
def Reg.FCH_MGRP_OFF : RegDef := ⟨0x4002000, [(32, 1, 255), (8, 1, 3)], 0x0, 0xFFFFFF0000000, 0x0, 0x0, 0xFFF000000FFFFFFF, 0xFFFFFF0000000, []⟩
def F.FCH_MGRP_OFF_OFFSET : FieldRef := ⟨Reg.FCH_MGRP_OFF, 51, 28⟩
/-- FCH_MGRP_STATUS (07_fabric_cache_and_atomics.md). -/
def Reg.FCH_MGRP_STATUS : RegDef := ⟨0x4004000, [(8, 1, 255)], 0x0, 0x0, 0x0, 0x0, 0x0, 0x0, []⟩
def F.FCH_MGRP_STATUS_DEGRADED : FieldRef := ⟨Reg.FCH_MGRP_STATUS, 63, 63⟩
def F.FCH_MGRP_STATUS_OUTSTANDING : FieldRef := ⟨Reg.FCH_MGRP_STATUS, 62, 48⟩
def F.FCH_MGRP_STATUS_DRAINED : FieldRef := ⟨Reg.FCH_MGRP_STATUS, 47, 0⟩
/-- PCL_CFG (08_parcels.md). -/
def Reg.PCL_CFG : RegDef := ⟨0x5000000, [], 0x40000001000, 0xFFF0000FFFF, 0x0, 0x0, 0xFFFFF000FFFF0000, 0xFFF0000FFFF, []⟩
def F.PCL_CFG_LAG : FieldRef := ⟨Reg.PCL_CFG, 43, 32⟩
def F.PCL_CFG_QUANTUM : FieldRef := ⟨Reg.PCL_CFG, 15, 0⟩
/-- PCL_DB_ERR (08_parcels.md). -/
def Reg.PCL_DB_ERR : RegDef := ⟨0x5000008, [], 0x0, 0x0, 0x0, 0x0, 0xF0FF0000FFFE0000, 0x0, [16]⟩
def F.PCL_DB_ERR_LAST_CAUSE : FieldRef := ⟨Reg.PCL_DB_ERR, 59, 56⟩
def F.PCL_DB_ERR_LAST_FLD : FieldRef := ⟨Reg.PCL_DB_ERR, 47, 36⟩
def F.PCL_DB_ERR_LAST_SLOT : FieldRef := ⟨Reg.PCL_DB_ERR, 35, 32⟩
def F.PCL_DB_ERR_DB_ERR : FieldRef := ⟨Reg.PCL_DB_ERR, 16, 16⟩
def F.PCL_DB_ERR_DB_ERR_COUNT : FieldRef := ⟨Reg.PCL_DB_ERR, 15, 0⟩
/-- PCL_ENG_STATUS (08_parcels.md). -/
def Reg.PCL_ENG_STATUS : RegDef := ⟨0x5001000, [(8, 0, 16)], 0x0, 0x0, 0x0, 0x0, 0xFFFE0000FFFE0000, 0x0, [16]⟩
def F.PCL_ENG_STATUS_ADMITTED : FieldRef := ⟨Reg.PCL_ENG_STATUS, 48, 32⟩
def F.PCL_ENG_STATUS_SLIP : FieldRef := ⟨Reg.PCL_ENG_STATUS, 16, 16⟩
def F.PCL_ENG_STATUS_SLIP_COUNT : FieldRef := ⟨Reg.PCL_ENG_STATUS, 15, 0⟩
/-- PCL_SLOT_STATUS (08_parcels.md). -/
def Reg.PCL_SLOT_STATUS : RegDef := ⟨0x5010000, [(128, 0, 4096), (8, 0, 16)], 0x0, 0x0, 0x0, 0x0, 0x0, 0x0, []⟩
def F.PCL_SLOT_STATUS_TICKET : FieldRef := ⟨Reg.PCL_SLOT_STATUS, 63, 48⟩
def F.PCL_SLOT_STATUS_STATE : FieldRef := ⟨Reg.PCL_SLOT_STATUS, 47, 44⟩
def F.PCL_SLOT_STATUS_REASON : FieldRef := ⟨Reg.PCL_SLOT_STATUS, 43, 32⟩
def F.PCL_SLOT_STATUS_DONE_UNITS : FieldRef := ⟨Reg.PCL_SLOT_STATUS, 31, 0⟩
/-- TEN_FLD_CFG (09_tenancy.md). -/
def Reg.TEN_FLD_CFG : RegDef := ⟨0x6000000, [(8, 0, 4096)], 0x3C0000000000, 0xFFFFFFFFC0FF0001, 0x0, 0x0, 0x3F00FFFE, 0xFFFFFFFFC0FF0001, []⟩
def F.TEN_FLD_CFG_ENABLE : FieldRef := ⟨Reg.TEN_FLD_CFG, 63, 63⟩
def F.TEN_FLD_CFG_PORT : FieldRef := ⟨Reg.TEN_FLD_CFG, 62, 56⟩
def F.TEN_FLD_CFG_POS : FieldRef := ⟨Reg.TEN_FLD_CFG, 55, 51⟩
def F.TEN_FLD_CFG_SLOTS : FieldRef := ⟨Reg.TEN_FLD_CFG, 50, 46⟩
def F.TEN_FLD_CFG_ALPHA : FieldRef := ⟨Reg.TEN_FLD_CFG, 45, 42⟩
def F.TEN_FLD_CFG_PBR_ID : FieldRef := ⟨Reg.TEN_FLD_CFG, 41, 30⟩
def F.TEN_FLD_CFG_SGROUP : FieldRef := ⟨Reg.TEN_FLD_CFG, 23, 16⟩
def F.TEN_FLD_CFG_BIND : FieldRef := ⟨Reg.TEN_FLD_CFG, 0, 0⟩
/-- TEN_FLD_STATUS (09_tenancy.md). -/
def Reg.TEN_FLD_STATUS : RegDef := ⟨0x6008000, [(8, 0, 4096)], 0x0, 0x0, 0x0, 0x0, 0x7FF00000FFEE0000, 0x0, [16]⟩
def F.TEN_FLD_STATUS_BOUND : FieldRef := ⟨Reg.TEN_FLD_STATUS, 63, 63⟩
def F.TEN_FLD_STATUS_MAPPED : FieldRef := ⟨Reg.TEN_FLD_STATUS, 51, 32⟩
def F.TEN_FLD_STATUS_SANITIZING : FieldRef := ⟨Reg.TEN_FLD_STATUS, 20, 20⟩
def F.TEN_FLD_STATUS_XLATE : FieldRef := ⟨Reg.TEN_FLD_STATUS, 16, 16⟩
def F.TEN_FLD_STATUS_XLATE_COUNT : FieldRef := ⟨Reg.TEN_FLD_STATUS, 15, 0⟩
/-- TEN_PORT_MODEL (09_tenancy.md). -/
def Reg.TEN_PORT_MODEL : RegDef := ⟨0x6040C00, [(8, 0, 128)], 0x0, 0x1, 0x0, 0x0, 0xFFFFFFFFFFFFFFFE, 0x1, []⟩
def F.TEN_PORT_MODEL_MODEL : FieldRef := ⟨Reg.TEN_PORT_MODEL, 0, 0⟩
/-- TEN_XLATE_ERR (09_tenancy.md). -/
def Reg.TEN_XLATE_ERR : RegDef := ⟨0x6050000, [], 0x0, 0x0, 0x0, 0x0, 0x7FFFFFFE0000, 0x0, [16]⟩
def F.TEN_XLATE_ERR_LAST_CAUSE : FieldRef := ⟨Reg.TEN_XLATE_ERR, 63, 60⟩
def F.TEN_XLATE_ERR_LAST_FLD : FieldRef := ⟨Reg.TEN_XLATE_ERR, 59, 48⟩
def F.TEN_XLATE_ERR_NOFLD : FieldRef := ⟨Reg.TEN_XLATE_ERR, 47, 47⟩
def F.TEN_XLATE_ERR_FAULT : FieldRef := ⟨Reg.TEN_XLATE_ERR, 16, 16⟩
def F.TEN_XLATE_ERR_FAULT_COUNT : FieldRef := ⟨Reg.TEN_XLATE_ERR, 15, 0⟩
/-- TEN_RGN_BASE (09_tenancy.md). -/
def Reg.TEN_RGN_BASE : RegDef := ⟨0x6100000, [(128, 0, 4096), (16, 0, 8)], 0x0, 0x800FFFFFFFE00000, 0x0, 0x0, 0x7FF00000001FFFFF, 0x800FFFFFFFE00000, []⟩
def F.TEN_RGN_BASE_VALID : FieldRef := ⟨Reg.TEN_RGN_BASE, 63, 63⟩
def F.TEN_RGN_BASE_DPA_BASE : FieldRef := ⟨Reg.TEN_RGN_BASE, 51, 21⟩
/-- TEN_RGN_CFG (09_tenancy.md). -/
def Reg.TEN_RGN_CFG : RegDef := ⟨0x6100008, [(128, 0, 4096), (16, 0, 8)], 0x7000000000000000, 0xFFFFFFFFFFF00001, 0x0, 0x0, 0xFFFFE, 0xFFFFFFFFFFF00001, []⟩
def F.TEN_RGN_CFG_BSZ : FieldRef := ⟨Reg.TEN_RGN_CFG, 63, 60⟩
def F.TEN_RGN_CFG_LEN : FieldRef := ⟨Reg.TEN_RGN_CFG, 59, 40⟩
def F.TEN_RGN_CFG_FIRST : FieldRef := ⟨Reg.TEN_RGN_CFG, 39, 20⟩
def F.TEN_RGN_CFG_SOR : FieldRef := ⟨Reg.TEN_RGN_CFG, 0, 0⟩
/-- TEN_EXT (09_tenancy.md). -/
def Reg.TEN_EXT : RegDef := ⟨0x6200000, [(8, 0, 524288)], 0x0, 0xC00FFFFFFFE00000, 0x0, 0x0, 0x1FF00000001FFFFF, 0xC00FFFFFFFE00000, []⟩
def F.TEN_EXT_STATE : FieldRef := ⟨Reg.TEN_EXT, 63, 62⟩
def F.TEN_EXT_KEEP : FieldRef := ⟨Reg.TEN_EXT, 61, 61⟩
def F.TEN_EXT_POOL : FieldRef := ⟨Reg.TEN_EXT, 51, 21⟩
/-- GRD_BARRIER (10_address_guard.md). -/
def Reg.GRD_BARRIER : RegDef := ⟨0x7000000, [], 0x0, 0x1, 0x0, 0x0, 0xFFFFFFFFFFFFFFFE, 0x0, []⟩
def F.GRD_BARRIER_PENDING : FieldRef := ⟨Reg.GRD_BARRIER, 0, 0⟩
/-- GRD_FAULT (10_address_guard.md). -/
def Reg.GRD_FAULT : RegDef := ⟨0x7000008, [], 0x0, 0x0, 0x0, 0x0, 0x3800000FFFE0000, 0x0, [16]⟩
def F.GRD_FAULT_LAST_CAUSE : FieldRef := ⟨Reg.GRD_FAULT, 63, 60⟩
def F.GRD_FAULT_LAST_WORLD : FieldRef := ⟨Reg.GRD_FAULT, 59, 58⟩
def F.GRD_FAULT_LAST_NORULE : FieldRef := ⟨Reg.GRD_FAULT, 54, 54⟩
def F.GRD_FAULT_LAST_RULE : FieldRef := ⟨Reg.GRD_FAULT, 53, 40⟩
def F.GRD_FAULT_LAST_SG : FieldRef := ⟨Reg.GRD_FAULT, 39, 32⟩
def F.GRD_FAULT_FAULT : FieldRef := ⟨Reg.GRD_FAULT, 16, 16⟩
def F.GRD_FAULT_FAULT_COUNT : FieldRef := ⟨Reg.GRD_FAULT, 15, 0⟩
/-- GRD_LOCK_ERR (10_address_guard.md). -/
def Reg.GRD_LOCK_ERR : RegDef := ⟨0x7000010, [], 0x0, 0x0, 0x0, 0x0, 0x7E0000, 0x0, [16]⟩
def F.GRD_LOCK_ERR_LAST_ADDR : FieldRef := ⟨Reg.GRD_LOCK_ERR, 63, 32⟩
def F.GRD_LOCK_ERR_LAST_SG : FieldRef := ⟨Reg.GRD_LOCK_ERR, 31, 24⟩
def F.GRD_LOCK_ERR_LAST_WRITE : FieldRef := ⟨Reg.GRD_LOCK_ERR, 23, 23⟩
def F.GRD_LOCK_ERR_LOCKED : FieldRef := ⟨Reg.GRD_LOCK_ERR, 16, 16⟩
def F.GRD_LOCK_ERR_LOCKED_COUNT : FieldRef := ⟨Reg.GRD_LOCK_ERR, 15, 0⟩
/-- GRD_MGMT_SG (10_address_guard.md). -/
def Reg.GRD_MGMT_SG : RegDef := ⟨0x7000018, [], 0x0, 0xFFFFFFFF, 0x0, 0x0, 0xFFFFFFFF00000000, 0xFFFFFFFF, []⟩
def F.GRD_MGMT_SG_DEBUG : FieldRef := ⟨Reg.GRD_MGMT_SG, 31, 24⟩
def F.GRD_MGMT_SG_BRUMIN : FieldRef := ⟨Reg.GRD_MGMT_SG, 23, 16⟩
def F.GRD_MGMT_SG_I3C : FieldRef := ⟨Reg.GRD_MGMT_SG, 15, 8⟩
def F.GRD_MGMT_SG_POSTMASTER : FieldRef := ⟨Reg.GRD_MGMT_SG, 7, 0⟩
/-- GRD_PORT_SG (10_address_guard.md). -/
def Reg.GRD_PORT_SG : RegDef := ⟨0x7001000, [(8, 0, 128)], 0x0, 0xFF, 0x0, 0x0, 0xFFFFFFFFFFFFFF00, 0xFF, []⟩
def F.GRD_PORT_SG_SGROUP : FieldRef := ⟨Reg.GRD_PORT_SG, 7, 0⟩
/-- GRD_RULE_BASE (10_address_guard.md). -/
def Reg.GRD_RULE_BASE : RegDef := ⟨0x7100000, [(32, 0, 16384)], 0x0, 0xC00FFFFFFFFFF000, 0x0, 0x0, 0x3FF0000000000FFF, 0xC00FFFFFFFFFF000, []⟩
def F.GRD_RULE_BASE_VALID : FieldRef := ⟨Reg.GRD_RULE_BASE, 63, 63⟩
def F.GRD_RULE_BASE_SPACE : FieldRef := ⟨Reg.GRD_RULE_BASE, 62, 62⟩
def F.GRD_RULE_BASE_BASE : FieldRef := ⟨Reg.GRD_RULE_BASE, 51, 12⟩
/-- GRD_RULE_SIZE (10_address_guard.md). -/
def Reg.GRD_RULE_SIZE : RegDef := ⟨0x7100008, [(32, 0, 16384)], 0x0, 0x1FFFFFFFFFF, 0x0, 0x0, 0xFFFFFE0000000000, 0x1FFFFFFFFFF, []⟩
def F.GRD_RULE_SIZE_COUNT : FieldRef := ⟨Reg.GRD_RULE_SIZE, 40, 0⟩
/-- GRD_RULE_MATCH (10_address_guard.md). -/
def Reg.GRD_RULE_MATCH : RegDef := ⟨0x7100010, [(32, 0, 16384)], 0x0, 0xF701FF, 0x0, 0x0, 0xFFFFFFFFFF08FE00, 0xF701FF, []⟩
def F.GRD_RULE_MATCH_LOCK : FieldRef := ⟨Reg.GRD_RULE_MATCH, 23, 23⟩
def F.GRD_RULE_MATCH_DELIVER : FieldRef := ⟨Reg.GRD_RULE_MATCH, 22, 22⟩
def F.GRD_RULE_MATCH_W : FieldRef := ⟨Reg.GRD_RULE_MATCH, 21, 21⟩
def F.GRD_RULE_MATCH_R : FieldRef := ⟨Reg.GRD_RULE_MATCH, 20, 20⟩
def F.GRD_RULE_MATCH_WORLDS : FieldRef := ⟨Reg.GRD_RULE_MATCH, 18, 16⟩
def F.GRD_RULE_MATCH_ANY_SG : FieldRef := ⟨Reg.GRD_RULE_MATCH, 8, 8⟩
def F.GRD_RULE_MATCH_SGROUP : FieldRef := ⟨Reg.GRD_RULE_MATCH, 7, 0⟩
/-- GRD_RULE_ATTR (10_address_guard.md). -/
def Reg.GRD_RULE_ATTR : RegDef := ⟨0x7100018, [(32, 0, 16384)], 0x0, 0xFF7B, 0x0, 0x0, 0xFFFFFFFFFFFF0084, 0xFF7B, []⟩
def F.GRD_RULE_ATTR_MIRROR : FieldRef := ⟨Reg.GRD_RULE_ATTR, 15, 8⟩
def F.GRD_RULE_ATTR_MODE : FieldRef := ⟨Reg.GRD_RULE_ATTR, 6, 6⟩
def F.GRD_RULE_ATTR_ALLOC : FieldRef := ⟨Reg.GRD_RULE_ATTR, 5, 5⟩
def F.GRD_RULE_ATTR_SPEC : FieldRef := ⟨Reg.GRD_RULE_ATTR, 4, 4⟩
def F.GRD_RULE_ATTR_ORDER : FieldRef := ⟨Reg.GRD_RULE_ATTR, 3, 3⟩
def F.GRD_RULE_ATTR_CACHE : FieldRef := ⟨Reg.GRD_RULE_ATTR, 1, 0⟩
/-- SCH_PORT_CFG (11_scheduling.md). -/
def Reg.SCH_PORT_CFG : RegDef := ⟨0x8000000, [(8, 0, 128)], 0x102040855541018, 0xFFFFFFFFFFFF303F, 0x0, 0x0, 0xCFC0, 0xFFFFFFFFFFFF303F, []⟩
def F.SCH_PORT_CFG_W_SC3 : FieldRef := ⟨Reg.SCH_PORT_CFG, 63, 56⟩
def F.SCH_PORT_CFG_W_SC2 : FieldRef := ⟨Reg.SCH_PORT_CFG, 55, 48⟩
def F.SCH_PORT_CFG_W_SC1 : FieldRef := ⟨Reg.SCH_PORT_CFG, 47, 40⟩
def F.SCH_PORT_CFG_W_SC0 : FieldRef := ⟨Reg.SCH_PORT_CFG, 39, 32⟩
def F.SCH_PORT_CFG_TC_MAP : FieldRef := ⟨Reg.SCH_PORT_CFG, 31, 16⟩
def F.SCH_PORT_CFG_DEFAULT_SC : FieldRef := ⟨Reg.SCH_PORT_CFG, 13, 12⟩
def F.SCH_PORT_CFG_OVERHEAD : FieldRef := ⟨Reg.SCH_PORT_CFG, 5, 0⟩
/-- SCH_PACE_PORT (11_scheduling.md). -/
def Reg.SCH_PACE_PORT : RegDef := ⟨0x8000400, [(8, 0, 128)], 0x0, 0x8000FFFFFF0FFFFF, 0x0, 0x0, 0x7FFF000000F00000, 0x8000FFFFFF0FFFFF, []⟩
def F.SCH_PACE_PORT_EN : FieldRef := ⟨Reg.SCH_PACE_PORT, 63, 63⟩
def F.SCH_PACE_PORT_BURST : FieldRef := ⟨Reg.SCH_PACE_PORT, 47, 24⟩
def F.SCH_PACE_PORT_INC : FieldRef := ⟨Reg.SCH_PACE_PORT, 19, 0⟩
/-- SCH_GATE_CTL (11_scheduling.md). -/
def Reg.SCH_GATE_CTL : RegDef := ⟨0x8000800, [(8, 0, 128)], 0x0, 0x1FF, 0x10000, 0xFFFF000000000000, 0xFFFFFFFEFE00, 0x0, []⟩
def F.SCH_GATE_CTL_TICKET : FieldRef := ⟨Reg.SCH_GATE_CTL, 63, 48⟩
def F.SCH_GATE_CTL_SWAP : FieldRef := ⟨Reg.SCH_GATE_CTL, 16, 16⟩
def F.SCH_GATE_CTL_PLEN : FieldRef := ⟨Reg.SCH_GATE_CTL, 8, 0⟩
/-- SCH_GATE_STATUS (11_scheduling.md). -/
def Reg.SCH_GATE_STATUS : RegDef := ⟨0x8000C00, [(8, 0, 128)], 0x0, 0x0, 0x0, 0x0, 0x0, 0x0, []⟩
def F.SCH_GATE_STATUS_TICKET : FieldRef := ⟨Reg.SCH_GATE_STATUS, 63, 48⟩
def F.SCH_GATE_STATUS_STATE : FieldRef := ⟨Reg.SCH_GATE_STATUS, 47, 44⟩
def F.SCH_GATE_STATUS_REASON : FieldRef := ⟨Reg.SCH_GATE_STATUS, 43, 32⟩
def F.SCH_GATE_STATUS_DONE_UNITS : FieldRef := ⟨Reg.SCH_GATE_STATUS, 31, 0⟩
/-- SCH_GATE_INFO (11_scheduling.md). -/
def Reg.SCH_GATE_INFO : RegDef := ⟨0x8001000, [(8, 0, 128)], 0x0, 0x0, 0x0, 0x0, 0x3FFFFC00000000, 0x0, [33, 16]⟩
def F.SCH_GATE_INFO_ACTIVE : FieldRef := ⟨Reg.SCH_GATE_INFO, 63, 63⟩
def F.SCH_GATE_INFO_ALEN : FieldRef := ⟨Reg.SCH_GATE_INFO, 62, 54⟩
def F.SCH_GATE_INFO_LATE : FieldRef := ⟨Reg.SCH_GATE_INFO, 33, 33⟩
def F.SCH_GATE_INFO_LATE_COUNT : FieldRef := ⟨Reg.SCH_GATE_INFO, 32, 17⟩
def F.SCH_GATE_INFO_OVERRUN : FieldRef := ⟨Reg.SCH_GATE_INFO, 16, 16⟩
def F.SCH_GATE_INFO_OVERRUN_COUNT : FieldRef := ⟨Reg.SCH_GATE_INFO, 15, 0⟩
/-- SCH_GATE_BASE (11_scheduling.md). -/
def Reg.SCH_GATE_BASE : RegDef := ⟨0x8002000, [(16, 0, 128), (8, 0, 2)], 0x0, 0xFFFFFFFFFFFFFFFF, 0x0, 0x0, 0x0, 0x0, []⟩
def F.SCH_GATE_BASE_BASE : FieldRef := ⟨Reg.SCH_GATE_BASE, 63, 0⟩
/-- SCH_GATE_ENT (11_scheduling.md). -/
def Reg.SCH_GATE_ENT : RegDef := ⟨0x8100000, [(2048, 0, 128), (1024, 0, 2), (8, 0, 128)], 0x0, 0xFFFFFFFFFFFFFFFF, 0x0, 0x0, 0x0, 0x0, []⟩
def F.SCH_GATE_ENT_ENTRY_ODD : FieldRef := ⟨Reg.SCH_GATE_ENT, 63, 32⟩
def F.SCH_GATE_ENT_ENTRY_EVEN : FieldRef := ⟨Reg.SCH_GATE_ENT, 31, 0⟩
/-- SCH_FLD_CFG (11_scheduling.md). -/
def Reg.SCH_FLD_CFG : RegDef := ⟨0x8008000, [(8, 0, 4096)], 0x90000000000000, 0x80F0FFFFFF0FFFFF, 0x0, 0x0, 0x7F0F000000F00000, 0x80F0FFFFFF0FFFFF, []⟩
def F.SCH_FLD_CFG_PACE_EN : FieldRef := ⟨Reg.SCH_FLD_CFG, 63, 63⟩
def F.SCH_FLD_CFG_PARCEL_SC : FieldRef := ⟨Reg.SCH_FLD_CFG, 55, 54⟩
def F.SCH_FLD_CFG_MEM_SC : FieldRef := ⟨Reg.SCH_FLD_CFG, 53, 52⟩
def F.SCH_FLD_CFG_BURST : FieldRef := ⟨Reg.SCH_FLD_CFG, 47, 24⟩
def F.SCH_FLD_CFG_INC : FieldRef := ⟨Reg.SCH_FLD_CFG, 19, 0⟩
/-- SCH_SHAPE (11_scheduling.md). -/
def Reg.SCH_SHAPE : RegDef := ⟨0x8010000, [(8, 0, 4096)], 0x0, 0x8000FFFFFF0FFFFF, 0x0, 0x0, 0x7FFF000000F00000, 0x8000FFFFFF0FFFFF, []⟩
def F.SCH_SHAPE_EN : FieldRef := ⟨Reg.SCH_SHAPE, 63, 63⟩
def F.SCH_SHAPE_BURST : FieldRef := ⟨Reg.SCH_SHAPE, 47, 24⟩
def F.SCH_SHAPE_INC : FieldRef := ⟨Reg.SCH_SHAPE, 19, 0⟩
/-- STNss_CFG (12_cxl_pcie_ports.md). -/
def Reg.STN_CFG : RegDef := ⟨0x1000000, [(524288, 0, 32)], 0x0, 0xF, 0x0, 0x0, 0xFFFFFFFFFFFFFFF0, 0xF, []⟩
def F.STN_CFG_CLKMODE : FieldRef := ⟨Reg.STN_CFG, 3, 3⟩
def F.STN_CFG_BIFUR : FieldRef := ⟨Reg.STN_CFG, 2, 0⟩
/-- STNss_PORT_CFG (12_cxl_pcie_ports.md). -/
def Reg.STN_PORT_CFG : RegDef := ⟨0x1000100, [(524288, 0, 32), (8, 0, 4)], 0x1400000600010000, 0xFFFC000F00710103, 0x0, 0x0, 0x3FFF0FF8EFEFC, 0xFFFC000F00710103, []⟩
def F.STN_PORT_CFG_MEM_TO : FieldRef := ⟨Reg.STN_PORT_CFG, 63, 56⟩
def F.STN_PORT_CFG_VIRAL_DOM : FieldRef := ⟨Reg.STN_PORT_CFG, 55, 50⟩
def F.STN_PORT_CFG_MAX_RATE : FieldRef := ⟨Reg.STN_PORT_CFG, 35, 32⟩
def F.STN_PORT_CFG_L0P_MIN : FieldRef := ⟨Reg.STN_PORT_CFG, 22, 20⟩
def F.STN_PORT_CFG_LOPT : FieldRef := ⟨Reg.STN_PORT_CFG, 16, 16⟩
def F.STN_PORT_CFG_ALLOW_68B : FieldRef := ⟨Reg.STN_PORT_CFG, 8, 8⟩
def F.STN_PORT_CFG_ROLE : FieldRef := ⟨Reg.STN_PORT_CFG, 1, 0⟩
/-- STNss_LINK_STATUS (12_cxl_pcie_ports.md). -/
def Reg.STN_LINK_STATUS : RegDef := ⟨0x1000200, [(524288, 0, 32), (8, 0, 4)], 0x600000000000000, 0x0, 0x0, 0x0, 0xFFFFFE0000, 0x0, [16]⟩
def F.STN_LINK_STATUS_DL_UP : FieldRef := ⟨Reg.STN_LINK_STATUS, 63, 63⟩
def F.STN_LINK_STATUS_READY : FieldRef := ⟨Reg.STN_LINK_STATUS, 62, 62⟩
def F.STN_LINK_STATUS_CONTAINED : FieldRef := ⟨Reg.STN_LINK_STATUS, 61, 61⟩
def F.STN_LINK_STATUS_PRSNT : FieldRef := ⟨Reg.STN_LINK_STATUS, 60, 60⟩
def F.STN_LINK_STATUS_PERST : FieldRef := ⟨Reg.STN_LINK_STATUS, 59, 59⟩
def F.STN_LINK_STATUS_LSTATE : FieldRef := ⟨Reg.STN_LINK_STATUS, 58, 56⟩
def F.STN_LINK_STATUS_RATE : FieldRef := ⟨Reg.STN_LINK_STATUS, 55, 52⟩
def F.STN_LINK_STATUS_WIDTH : FieldRef := ⟨Reg.STN_LINK_STATUS, 51, 47⟩
def F.STN_LINK_STATUS_MODE : FieldRef := ⟨Reg.STN_LINK_STATUS, 46, 44⟩
def F.STN_LINK_STATUS_JOIN_FAIL : FieldRef := ⟨Reg.STN_LINK_STATUS, 43, 40⟩
def F.STN_LINK_STATUS_LINK_EVT : FieldRef := ⟨Reg.STN_LINK_STATUS, 16, 16⟩
def F.STN_LINK_STATUS_LINK_EVT_COUNT : FieldRef := ⟨Reg.STN_LINK_STATUS, 15, 0⟩
/-- STNss_PORT_CTL (12_cxl_pcie_ports.md). -/
def Reg.STN_PORT_CTL : RegDef := ⟨0x1000300, [(524288, 0, 32), (8, 0, 4)], 0x0, 0x74, 0x3, 0x0, 0xFFFFFFFFFFFFFF88, 0x0, []⟩
def F.STN_PORT_CTL_L0P_REQ : FieldRef := ⟨Reg.STN_PORT_CTL, 6, 4⟩
def F.STN_PORT_CTL_PERST_ASSERT : FieldRef := ⟨Reg.STN_PORT_CTL, 2, 2⟩
def F.STN_PORT_CTL_RETRAIN : FieldRef := ⟨Reg.STN_PORT_CTL, 1, 1⟩
def F.STN_PORT_CTL_REJOIN : FieldRef := ⟨Reg.STN_PORT_CTL, 0, 0⟩
/-- STNss_CRL_CFG (13_courier_links.md). -/
def Reg.STN_CRL_CFG : RegDef := ⟨0x1000400, [(524288, 0, 32), (8, 0, 4)], 0xC87010000000000, 0xFFFFF1FFFF000000, 0x0, 0x0, 0xE0000FFFFFF, 0xFFFFF1FFFF000000, []⟩
def F.STN_CRL_CFG_HOLD_MS : FieldRef := ⟨Reg.STN_CRL_CFG, 63, 54⟩
def F.STN_CRL_CFG_AGG : FieldRef := ⟨Reg.STN_CRL_CFG, 53, 48⟩
def F.STN_CRL_CFG_IDE_REQ : FieldRef := ⟨Reg.STN_CRL_CFG, 47, 47⟩
def F.STN_CRL_CFG_GANG : FieldRef := ⟨Reg.STN_CRL_CFG, 46, 46⟩
def F.STN_CRL_CFG_TIME_DIR : FieldRef := ⟨Reg.STN_CRL_CFG, 45, 44⟩
def F.STN_CRL_CFG_RATE128 : FieldRef := ⟨Reg.STN_CRL_CFG, 40, 40⟩
def F.STN_CRL_CFG_ASYM : FieldRef := ⟨Reg.STN_CRL_CFG, 39, 24⟩
/-- STNss_CRL_STATUS (13_courier_links.md). -/
def Reg.STN_CRL_STATUS : RegDef := ⟨0x1000500, [(524288, 0, 32), (8, 0, 4)], 0x0, 0x0, 0x0, 0x0, 0xFFF20000, 0x0, [16]⟩
def F.STN_CRL_STATUS_CSTATE : FieldRef := ⟨Reg.STN_CRL_STATUS, 63, 61⟩
def F.STN_CRL_STATUS_IDE_ON : FieldRef := ⟨Reg.STN_CRL_STATUS, 60, 60⟩
def F.STN_CRL_STATUS_ADMIT_FAIL : FieldRef := ⟨Reg.STN_CRL_STATUS, 59, 56⟩
def F.STN_CRL_STATUS_SESSION : FieldRef := ⟨Reg.STN_CRL_STATUS, 55, 40⟩
def F.STN_CRL_STATUS_PEER_LAG : FieldRef := ⟨Reg.STN_CRL_STATUS, 39, 32⟩
def F.STN_CRL_STATUS_RATE_FALLBACK : FieldRef := ⟨Reg.STN_CRL_STATUS, 19, 19⟩
def F.STN_CRL_STATUS_IDE_FAIL : FieldRef := ⟨Reg.STN_CRL_STATUS, 18, 18⟩
def F.STN_CRL_STATUS_CRL_EVT : FieldRef := ⟨Reg.STN_CRL_STATUS, 16, 16⟩
def F.STN_CRL_STATUS_CRL_EVT_COUNT : FieldRef := ⟨Reg.STN_CRL_STATUS, 15, 0⟩
/-- STNss_CRL_PEER (13_courier_links.md). -/
def Reg.STN_CRL_PEER : RegDef := ⟨0x1000600, [(524288, 0, 32), (8, 0, 4)], 0x0, 0x0, 0x0, 0x0, 0xFFFFFFFC0000, 0x0, []⟩
def F.STN_CRL_PEER_PEER_VER : FieldRef := ⟨Reg.STN_CRL_PEER, 63, 48⟩
def F.STN_CRL_PEER_PEER : FieldRef := ⟨Reg.STN_CRL_PEER, 17, 0⟩
/-- STNss_CRL_TIME (13_courier_links.md). -/
def Reg.STN_CRL_TIME : RegDef := ⟨0x1000700, [(524288, 0, 32), (8, 0, 4)], 0x0, 0x0, 0x0, 0x0, 0x1FFFFFFF00000000, 0x0, []⟩
def F.STN_CRL_TIME_SYNCED : FieldRef := ⟨Reg.STN_CRL_TIME, 63, 63⟩
def F.STN_CRL_TIME_FAR : FieldRef := ⟨Reg.STN_CRL_TIME, 62, 62⟩
def F.STN_CRL_TIME_MISMATCH : FieldRef := ⟨Reg.STN_CRL_TIME, 61, 61⟩
def F.STN_CRL_TIME_OFFSET : FieldRef := ⟨Reg.STN_CRL_TIME, 31, 0⟩
/-- STNss_CRL_RETRY (13_courier_links.md). -/
def Reg.STN_CRL_RETRY : RegDef := ⟨0x1000800, [(524288, 0, 32), (8, 0, 4)], 0x0, 0x0, 0x0, 0x0, 0xFFFE0000, 0x0, [16]⟩
def F.STN_CRL_RETRY_REPLAYS : FieldRef := ⟨Reg.STN_CRL_RETRY, 63, 32⟩
def F.STN_CRL_RETRY_RECOVER : FieldRef := ⟨Reg.STN_CRL_RETRY, 16, 16⟩
def F.STN_CRL_RETRY_RECOVER_COUNT : FieldRef := ⟨Reg.STN_CRL_RETRY, 15, 0⟩
/-- RAS_CONTAIN (14_link_events.md). -/
def Reg.RAS_CONTAIN : RegDef := ⟨0xB100000, [], 0x0, 0x0, 0x0, 0xFFFF00000000007F, 0xFFFFFFFFFF80, 0x0, []⟩
def F.RAS_CONTAIN_TICKET : FieldRef := ⟨Reg.RAS_CONTAIN, 63, 48⟩
def F.RAS_CONTAIN_PORT : FieldRef := ⟨Reg.RAS_CONTAIN, 6, 0⟩
/-- RAS_FENCE (14_link_events.md). -/
def Reg.RAS_FENCE : RegDef := ⟨0xB101000, [(8, 0, 128)], 0x0, 0x0, 0x0, 0x0, 0x3000000000000000, 0x0, []⟩
def F.RAS_FENCE_FSTATE : FieldRef := ⟨Reg.RAS_FENCE, 63, 62⟩
def F.RAS_FENCE_FENCE : FieldRef := ⟨Reg.RAS_FENCE, 59, 0⟩
/-- RAS_FENCE_INFO (14_link_events.md). -/
def Reg.RAS_FENCE_INFO : RegDef := ⟨0xB101400, [(8, 0, 128)], 0x0, 0x0, 0x0, 0x0, 0xFFF0000FFFE0000, 0x0, [16]⟩
def F.RAS_FENCE_INFO_CAUSE : FieldRef := ⟨Reg.RAS_FENCE_INFO, 63, 60⟩
def F.RAS_FENCE_INFO_AFTER : FieldRef := ⟨Reg.RAS_FENCE_INFO, 47, 32⟩
def F.RAS_FENCE_INFO_FENCE_EVT : FieldRef := ⟨Reg.RAS_FENCE_INFO, 16, 16⟩
def F.RAS_FENCE_INFO_FENCE_EVT_COUNT : FieldRef := ⟨Reg.RAS_FENCE_INFO, 15, 0⟩
/-- RAS_DL_CFG (14_link_events.md). -/
def Reg.RAS_DL_CFG : RegDef := ⟨0xB200000, [], 0x0, 0x1, 0x0, 0x0, 0xFFFFFFFFFFFFFFFE, 0x1, []⟩
def F.RAS_DL_CFG_OVERWRITE : FieldRef := ⟨Reg.RAS_DL_CFG, 0, 0⟩
/-- RAS_DL_PTR (14_link_events.md). -/
def Reg.RAS_DL_PTR : RegDef := ⟨0xB200008, [], 0x0, 0xFFF00000000, 0x0, 0x0, 0xFFFFF000FFFFF000, 0x0, []⟩
def F.RAS_DL_PTR_HEAD : FieldRef := ⟨Reg.RAS_DL_PTR, 43, 32⟩
def F.RAS_DL_PTR_TAIL : FieldRef := ⟨Reg.RAS_DL_PTR, 11, 0⟩
/-- RAS_DL_STATUS (14_link_events.md). -/
def Reg.RAS_DL_STATUS : RegDef := ⟨0xB200010, [], 0x0, 0x0, 0x0, 0x0, 0xFFFE0000, 0x0, [16]⟩
def F.RAS_DL_STATUS_DROPPED : FieldRef := ⟨Reg.RAS_DL_STATUS, 63, 32⟩
def F.RAS_DL_STATUS_NEW : FieldRef := ⟨Reg.RAS_DL_STATUS, 16, 16⟩
def F.RAS_DL_STATUS_NEW_COUNT : FieldRef := ⟨Reg.RAS_DL_STATUS, 15, 0⟩
/-- RAS_DL_ENTRY (14_link_events.md). -/
def Reg.RAS_DL_ENTRY : RegDef := ⟨0xB280000, [(64, 0, 2048), (8, 0, 8)], 0x0, 0x0, 0x0, 0x0, 0x0, 0x0, []⟩
def F.RAS_DL_ENTRY_WORD : FieldRef := ⟨Reg.RAS_DL_ENTRY, 63, 0⟩
/-- AMD_CMD (15_configuration.md). -/
def Reg.AMD_CMD : RegDef := ⟨0xD000000, [], 0x0, 0x0, 0x0, 0xFFFF00000000000F, 0xFFFFFFFFFFF0, 0x0, []⟩
def F.AMD_CMD_TICKET : FieldRef := ⟨Reg.AMD_CMD, 63, 48⟩
def F.AMD_CMD_CMD : FieldRef := ⟨Reg.AMD_CMD, 3, 0⟩
/-- AMD_STATUS (15_configuration.md). -/
def Reg.AMD_STATUS : RegDef := ⟨0xD000008, [], 0x0, 0x0, 0x0, 0x0, 0x0, 0x0, []⟩
def F.AMD_STATUS_TICKET : FieldRef := ⟨Reg.AMD_STATUS, 63, 48⟩
def F.AMD_STATUS_STATE : FieldRef := ⟨Reg.AMD_STATUS, 47, 44⟩
def F.AMD_STATUS_REASON : FieldRef := ⟨Reg.AMD_STATUS, 43, 32⟩
def F.AMD_STATUS_DONE_UNITS : FieldRef := ⟨Reg.AMD_STATUS, 31, 0⟩
/-- AMD_CUTOVER (15_configuration.md). -/
def Reg.AMD_CUTOVER : RegDef := ⟨0xD000010, [], 0x0, 0xFFFFFFFFFFFFFFFF, 0x0, 0x0, 0x0, 0x0, []⟩
def F.AMD_CUTOVER_REQUESTED : FieldRef := ⟨Reg.AMD_CUTOVER, 63, 0⟩
/-- AMD_STAGE_VALUE (15_configuration.md). -/
def Reg.AMD_STAGE_VALUE : RegDef := ⟨0xD000018, [], 0x0, 0xFFFFFFFFFFFFFFFF, 0x0, 0x0, 0x0, 0x0, []⟩
def F.AMD_STAGE_VALUE_VALUE : FieldRef := ⟨Reg.AMD_STAGE_VALUE, 63, 0⟩
/-- AMD_STAGE_MASK (15_configuration.md). -/
def Reg.AMD_STAGE_MASK : RegDef := ⟨0xD000020, [], 0x0, 0xFFFFFFFFFFFFFFFF, 0x0, 0x0, 0x0, 0x0, []⟩
def F.AMD_STAGE_MASK_MASK : FieldRef := ⟨Reg.AMD_STAGE_MASK, 63, 0⟩
/-- AMD_STAGE_ADDR (15_configuration.md). -/
def Reg.AMD_STAGE_ADDR : RegDef := ⟨0xD000028, [], 0x0, 0x0, 0x0, 0xFFFFFFFF, 0xFFFFFFFF00000000, 0x0, []⟩
def F.AMD_STAGE_ADDR_ADDRESS : FieldRef := ⟨Reg.AMD_STAGE_ADDR, 31, 0⟩
/-- AMD_INFO (15_configuration.md). -/
def Reg.AMD_INFO : RegDef := ⟨0xD000030, [], 0x0, 0x0, 0x0, 0x0, 0x3C18FFFFFFF80000, 0x0, []⟩
def F.AMD_INFO_PHASE : FieldRef := ⟨Reg.AMD_INFO, 63, 62⟩
def F.AMD_INFO_SEALED : FieldRef := ⟨Reg.AMD_INFO, 57, 53⟩
def F.AMD_INFO_OWNER : FieldRef := ⟨Reg.AMD_INFO, 50, 48⟩
def F.AMD_INFO_ITEMS : FieldRef := ⟨Reg.AMD_INFO, 18, 0⟩
/-- AMD_RESULT (15_configuration.md). -/
def Reg.AMD_RESULT : RegDef := ⟨0xD000038, [], 0x0, 0x0, 0x0, 0x0, 0x0, 0x0, []⟩
def F.AMD_RESULT_CUTOVER : FieldRef := ⟨Reg.AMD_RESULT, 63, 0⟩
/-- AMD_CHECK_INFO (15_configuration.md). -/
def Reg.AMD_CHECK_INFO : RegDef := ⟨0xD000040, [], 0x0, 0x0, 0x0, 0x0, 0xFFFFFFFFFFE00000, 0x0, []⟩
def F.AMD_CHECK_INFO_LATE : FieldRef := ⟨Reg.AMD_CHECK_INFO, 20, 20⟩
def F.AMD_CHECK_INFO_NONE : FieldRef := ⟨Reg.AMD_CHECK_INFO, 19, 19⟩
def F.AMD_CHECK_INFO_ITEM : FieldRef := ⟨Reg.AMD_CHECK_INFO, 18, 0⟩
/-- AMD_EVT (15_configuration.md). -/
def Reg.AMD_EVT : RegDef := ⟨0xD000048, [], 0x0, 0x0, 0x0, 0x0, 0xE0000000FFFE0000, 0x0, [48, 16]⟩
def F.AMD_EVT_LAST_REFUSAL : FieldRef := ⟨Reg.AMD_EVT, 60, 49⟩
def F.AMD_EVT_REFUSE : FieldRef := ⟨Reg.AMD_EVT, 48, 48⟩
def F.AMD_EVT_REFUSE_COUNT : FieldRef := ⟨Reg.AMD_EVT, 47, 32⟩
def F.AMD_EVT_LATE : FieldRef := ⟨Reg.AMD_EVT, 16, 16⟩
def F.AMD_EVT_LATE_COUNT : FieldRef := ⟨Reg.AMD_EVT, 15, 0⟩
/-- AMD_PERSIST_STATUS (15_configuration.md). -/
def Reg.AMD_PERSIST_STATUS : RegDef := ⟨0xD000050, [], 0x0, 0x0, 0x0, 0x0, 0x0, 0x0, []⟩
def F.AMD_PERSIST_STATUS_TICKET : FieldRef := ⟨Reg.AMD_PERSIST_STATUS, 63, 48⟩
def F.AMD_PERSIST_STATUS_STATE : FieldRef := ⟨Reg.AMD_PERSIST_STATUS, 47, 44⟩
def F.AMD_PERSIST_STATUS_REASON : FieldRef := ⟨Reg.AMD_PERSIST_STATUS, 43, 32⟩
def F.AMD_PERSIST_STATUS_DONE_UNITS : FieldRef := ⟨Reg.AMD_PERSIST_STATUS, 31, 0⟩
/-- AMD_CFG_SLOT (15_configuration.md). -/
def Reg.AMD_CFG_SLOT : RegDef := ⟨0xD000058, [], 0x0, 0x0, 0x0, 0x0, 0x3FFFFFFFFFFFF00F, 0x0, []⟩
def F.AMD_CFG_SLOT_SAFE : FieldRef := ⟨Reg.AMD_CFG_SLOT, 63, 63⟩
def F.AMD_CFG_SLOT_ACTIVE : FieldRef := ⟨Reg.AMD_CFG_SLOT, 62, 62⟩
def F.AMD_CFG_SLOT_FAULT1 : FieldRef := ⟨Reg.AMD_CFG_SLOT, 11, 8⟩
def F.AMD_CFG_SLOT_FAULT0 : FieldRef := ⟨Reg.AMD_CFG_SLOT, 7, 4⟩
/-- AMD_SLOT_SEQ0 (15_configuration.md). -/
def Reg.AMD_SLOT_SEQ0 : RegDef := ⟨0xD000060, [], 0x0, 0x0, 0x0, 0x0, 0x0, 0x0, []⟩
def F.AMD_SLOT_SEQ0_SEQUENCE : FieldRef := ⟨Reg.AMD_SLOT_SEQ0, 63, 0⟩
/-- AMD_SLOT_SEQ1 (15_configuration.md). -/
def Reg.AMD_SLOT_SEQ1 : RegDef := ⟨0xD000068, [], 0x0, 0x0, 0x0, 0x0, 0x0, 0x0, []⟩
def F.AMD_SLOT_SEQ1_SEQUENCE : FieldRef := ⟨Reg.AMD_SLOT_SEQ1, 63, 0⟩
/-- MBX_STATUS (16_management.md). -/
def Reg.MBX_STATUS : RegDef := ⟨0xE000000, [], 0x0, 0x0, 0x0, 0x0, 0x3FFFFFFFFFFE0000, 0x0, [16]⟩
def F.MBX_STATUS_HANDOVER : FieldRef := ⟨Reg.MBX_STATUS, 63, 63⟩
def F.MBX_STATUS_ACTIVE_PAIR : FieldRef := ⟨Reg.MBX_STATUS, 62, 62⟩
def F.MBX_STATUS_DENIED : FieldRef := ⟨Reg.MBX_STATUS, 16, 16⟩
def F.MBX_STATUS_DENIED_COUNT : FieldRef := ⟨Reg.MBX_STATUS, 15, 0⟩
/-- MBX_TS_OFFSET (16_management.md). -/
def Reg.MBX_TS_OFFSET : RegDef := ⟨0xE000008, [], 0x0, 0xFFFFFFFFFFFFFFFF, 0x0, 0x0, 0x0, 0x0, []⟩
def F.MBX_TS_OFFSET_OFFSET : FieldRef := ⟨Reg.MBX_TS_OFFSET, 63, 0⟩
/-- MBX_BRUMIN (16_management.md). -/
def Reg.MBX_BRUMIN : RegDef := ⟨0xE000010, [], 0x0, 0x0, 0x0, 0x0, 0xFFFF000000000000, 0x0, []⟩
def F.MBX_BRUMIN_MAC : FieldRef := ⟨Reg.MBX_BRUMIN, 47, 0⟩
/-- MBX_IMG_STATUS (16_management.md). -/
def Reg.MBX_IMG_STATUS : RegDef := ⟨0xE000018, [], 0x0, 0x0, 0x0, 0x0, 0x0, 0x0, []⟩
def F.MBX_IMG_STATUS_TICKET : FieldRef := ⟨Reg.MBX_IMG_STATUS, 63, 48⟩
def F.MBX_IMG_STATUS_STATE : FieldRef := ⟨Reg.MBX_IMG_STATUS, 47, 44⟩
def F.MBX_IMG_STATUS_REASON : FieldRef := ⟨Reg.MBX_IMG_STATUS, 43, 32⟩
def F.MBX_IMG_STATUS_DONE_UNITS : FieldRef := ⟨Reg.MBX_IMG_STATUS, 31, 0⟩
/-- MBX_PORT_CFG (16_management.md). -/
def Reg.MBX_PORT_CFG : RegDef := ⟨0xE001000, [(8, 0, 128)], 0x0, 0xC000000000000000, 0x0, 0x0, 0x3FFFFFFFFFFFFFFF, 0xC000000000000000, []⟩
def F.MBX_PORT_CFG_MGMT_EN : FieldRef := ⟨Reg.MBX_PORT_CFG, 63, 63⟩
def F.MBX_PORT_CFG_MCTP_EN : FieldRef := ⟨Reg.MBX_PORT_CFG, 62, 62⟩
/-- RAS_EVQ_CFG (16_management.md). -/
def Reg.RAS_EVQ_CFG : RegDef := ⟨0xB300000, [], 0x6FFFF, 0x7FFFF, 0x0, 0x0, 0xFFFFFFFFFFF80000, 0x7FFFF, []⟩
def F.RAS_EVQ_CFG_ALERT_EN : FieldRef := ⟨Reg.RAS_EVQ_CFG, 18, 18⟩
def F.RAS_EVQ_CFG_ALERT_SEV : FieldRef := ⟨Reg.RAS_EVQ_CFG, 17, 16⟩
def F.RAS_EVQ_CFG_MASK : FieldRef := ⟨Reg.RAS_EVQ_CFG, 15, 0⟩
/-- RAS_EVQ_PTR (16_management.md). -/
def Reg.RAS_EVQ_PTR : RegDef := ⟨0xB300008, [], 0x0, 0x1FFF00000000, 0x0, 0x0, 0xFFFFE000FFFFE000, 0x0, []⟩
def F.RAS_EVQ_PTR_HEAD : FieldRef := ⟨Reg.RAS_EVQ_PTR, 44, 32⟩
def F.RAS_EVQ_PTR_TAIL : FieldRef := ⟨Reg.RAS_EVQ_PTR, 12, 0⟩
/-- RAS_EVQ_STATUS (16_management.md). -/
def Reg.RAS_EVQ_STATUS : RegDef := ⟨0xB300010, [], 0x0, 0x0, 0x0, 0x0, 0xE000FE0000, 0x0, [16]⟩
def F.RAS_EVQ_STATUS_LOST : FieldRef := ⟨Reg.RAS_EVQ_STATUS, 63, 40⟩
def F.RAS_EVQ_STATUS_HELD : FieldRef := ⟨Reg.RAS_EVQ_STATUS, 36, 24⟩
def F.RAS_EVQ_STATUS_NEW : FieldRef := ⟨Reg.RAS_EVQ_STATUS, 16, 16⟩
def F.RAS_EVQ_STATUS_NEW_COUNT : FieldRef := ⟨Reg.RAS_EVQ_STATUS, 15, 0⟩
/-- RAS_ALERT (16_management.md). -/
def Reg.RAS_ALERT : RegDef := ⟨0xB300018, [], 0x0, 0x0, 0x0, 0x0, 0xFFFFFFFFFFFFFFE0, 0x0, []⟩
def F.RAS_ALERT_FATAL : FieldRef := ⟨Reg.RAS_ALERT, 4, 4⟩
def F.RAS_ALERT_SAFE : FieldRef := ⟨Reg.RAS_ALERT, 3, 3⟩
def F.RAS_ALERT_COUNTER : FieldRef := ⟨Reg.RAS_ALERT, 2, 2⟩
def F.RAS_ALERT_WM : FieldRef := ⟨Reg.RAS_ALERT, 1, 1⟩
def F.RAS_ALERT_EVQ : FieldRef := ⟨Reg.RAS_ALERT, 0, 0⟩
/-- RAS_EVQ_POPw (16_management.md). -/
def Reg.RAS_EVQ_POP : RegDef := ⟨0xB300040, [(8, 0, 4)], 0x0, 0x0, 0x0, 0x0, 0x0, 0x0, []⟩
def F.RAS_EVQ_POP_WORD : FieldRef := ⟨Reg.RAS_EVQ_POP, 63, 0⟩
/-- RAS_WM_CFG (16_management.md). -/
def Reg.RAS_WM_CFG : RegDef := ⟨0xB310000, [(32, 0, 64)], 0x0, 0xFFFFFFF0FFFFFFFF, 0x0, 0x0, 0xF00000000, 0xFFFFFFF0FFFFFFFF, []⟩
def F.RAS_WM_CFG_EN : FieldRef := ⟨Reg.RAS_WM_CFG, 63, 63⟩
def F.RAS_WM_CFG_DIR : FieldRef := ⟨Reg.RAS_WM_CFG, 62, 62⟩
def F.RAS_WM_CFG_RETURN_EN : FieldRef := ⟨Reg.RAS_WM_CFG, 61, 61⟩
def F.RAS_WM_CFG_ALERT : FieldRef := ⟨Reg.RAS_WM_CFG, 60, 60⟩
def F.RAS_WM_CFG_QUANTITY : FieldRef := ⟨Reg.RAS_WM_CFG, 59, 52⟩
def F.RAS_WM_CFG_PARAM : FieldRef := ⟨Reg.RAS_WM_CFG, 51, 36⟩
def F.RAS_WM_CFG_LEVEL : FieldRef := ⟨Reg.RAS_WM_CFG, 31, 0⟩
/-- RAS_WM_HYST (16_management.md). -/
def Reg.RAS_WM_HYST : RegDef := ⟨0xB310008, [(32, 0, 64)], 0x0, 0xFFFFFFFF, 0x0, 0x0, 0xFFFFFFFF00000000, 0xFFFFFFFF, []⟩
def F.RAS_WM_HYST_HYST : FieldRef := ⟨Reg.RAS_WM_HYST, 31, 0⟩
/-- RAS_WM_STATUS (16_management.md). -/
def Reg.RAS_WM_STATUS : RegDef := ⟨0xB310010, [(32, 0, 64)], 0x0, 0x0, 0x0, 0x0, 0xFFFC0000, 0x0, [16]⟩
def F.RAS_WM_STATUS_VALUE : FieldRef := ⟨Reg.RAS_WM_STATUS, 63, 32⟩
def F.RAS_WM_STATUS_ALARM : FieldRef := ⟨Reg.RAS_WM_STATUS, 17, 17⟩
def F.RAS_WM_STATUS_CROSS : FieldRef := ⟨Reg.RAS_WM_STATUS, 16, 16⟩
def F.RAS_WM_STATUS_CROSS_COUNT : FieldRef := ⟨Reg.RAS_WM_STATUS, 15, 0⟩
/-- RAS_EVQ_ENTRY (16_management.md). -/
def Reg.RAS_EVQ_ENTRY : RegDef := ⟨0xB380000, [(32, 0, 4096), (8, 0, 4)], 0x0, 0x0, 0x0, 0x0, 0x0, 0x0, []⟩
def F.RAS_EVQ_ENTRY_WORD : FieldRef := ⟨Reg.RAS_EVQ_ENTRY, 63, 0⟩
/-- MBX_FW_INFO (17_firmware_update.md). -/
def Reg.MBX_FW_INFO : RegDef := ⟨0xE000100, [], 0x0, 0x0, 0x0, 0x0, 0x0, 0x0, []⟩
def F.MBX_FW_INFO_RUN_VERSION : FieldRef := ⟨Reg.MBX_FW_INFO, 63, 32⟩
def F.MBX_FW_INFO_RUN_COURIER : FieldRef := ⟨Reg.MBX_FW_INFO, 31, 16⟩
def F.MBX_FW_INFO_MIN_SVN : FieldRef := ⟨Reg.MBX_FW_INFO, 15, 0⟩
/-- MBX_FW_SLOT0 (17_firmware_update.md). -/
def Reg.MBX_FW_SLOT0 : RegDef := ⟨0xE000108, [], 0x0, 0x0, 0x0, 0x0, 0xFFF0, 0x0, []⟩
def F.MBX_FW_SLOT0_VERSION : FieldRef := ⟨Reg.MBX_FW_SLOT0, 63, 32⟩
def F.MBX_FW_SLOT0_SVN : FieldRef := ⟨Reg.MBX_FW_SLOT0, 31, 16⟩
def F.MBX_FW_SLOT0_SSTATE : FieldRef := ⟨Reg.MBX_FW_SLOT0, 3, 0⟩
/-- MBX_FW_SLOT1 (17_firmware_update.md). -/
def Reg.MBX_FW_SLOT1 : RegDef := ⟨0xE000110, [], 0x0, 0x0, 0x0, 0x0, 0xFFF0, 0x0, []⟩
def F.MBX_FW_SLOT1_VERSION : FieldRef := ⟨Reg.MBX_FW_SLOT1, 63, 32⟩
def F.MBX_FW_SLOT1_SVN : FieldRef := ⟨Reg.MBX_FW_SLOT1, 31, 16⟩
def F.MBX_FW_SLOT1_SSTATE : FieldRef := ⟨Reg.MBX_FW_SLOT1, 3, 0⟩
/-- MBX_FW_XFER_STATUS (17_firmware_update.md). -/
def Reg.MBX_FW_XFER_STATUS : RegDef := ⟨0xE000118, [], 0x0, 0x0, 0x0, 0x0, 0x0, 0x0, []⟩
def F.MBX_FW_XFER_STATUS_TICKET : FieldRef := ⟨Reg.MBX_FW_XFER_STATUS, 63, 48⟩
def F.MBX_FW_XFER_STATUS_STATE : FieldRef := ⟨Reg.MBX_FW_XFER_STATUS, 47, 44⟩
def F.MBX_FW_XFER_STATUS_REASON : FieldRef := ⟨Reg.MBX_FW_XFER_STATUS, 43, 32⟩
def F.MBX_FW_XFER_STATUS_DONE_UNITS : FieldRef := ⟨Reg.MBX_FW_XFER_STATUS, 31, 0⟩
/-- MBX_FW_ACT_STATUS (17_firmware_update.md). -/
def Reg.MBX_FW_ACT_STATUS : RegDef := ⟨0xE000120, [], 0x0, 0x0, 0x0, 0x0, 0x0, 0x0, []⟩
def F.MBX_FW_ACT_STATUS_TICKET : FieldRef := ⟨Reg.MBX_FW_ACT_STATUS, 63, 48⟩
def F.MBX_FW_ACT_STATUS_STATE : FieldRef := ⟨Reg.MBX_FW_ACT_STATUS, 47, 44⟩
def F.MBX_FW_ACT_STATUS_REASON : FieldRef := ⟨Reg.MBX_FW_ACT_STATUS, 43, 32⟩
def F.MBX_FW_ACT_STATUS_DONE_UNITS : FieldRef := ⟨Reg.MBX_FW_ACT_STATUS, 31, 0⟩
/-- MBX_FW_UCODE (17_firmware_update.md). -/
def Reg.MBX_FW_UCODE : RegDef := ⟨0xE000128, [], 0x0, 0x0, 0x0, 0x0, 0x0, 0x0, []⟩
def F.MBX_FW_UCODE_UC_VERSION : FieldRef := ⟨Reg.MBX_FW_UCODE, 63, 32⟩
def F.MBX_FW_UCODE_DONE : FieldRef := ⟨Reg.MBX_FW_UCODE, 31, 0⟩
/-- PMU_CTL (18_performance_monitoring.md). -/
def Reg.PMU_CTL : RegDef := ⟨0xA000000, [], 0x0, 0x1, 0x2, 0x0, 0xFFFFFFFFFFFFFFFC, 0x0, []⟩
def F.PMU_CTL_CLEAR : FieldRef := ⟨Reg.PMU_CTL, 1, 1⟩
def F.PMU_CTL_FREEZE : FieldRef := ⟨Reg.PMU_CTL, 0, 0⟩
/-- PMU_BW_CFG (18_performance_monitoring.md). -/
def Reg.PMU_BW_CFG : RegDef := ⟨0xA000008, [], 0x3E8, 0xFFFFF, 0x0, 0x0, 0xFFFFFFFFFFF00000, 0xFFFFF, []⟩
def F.PMU_BW_CFG_WIN : FieldRef := ⟨Reg.PMU_BW_CFG, 19, 0⟩
/-- PMU_TRK_CFG (18_performance_monitoring.md). -/
def Reg.PMU_TRK_CFG : RegDef := ⟨0xA000010, [], 0xC00000001, 0xFF80001FFFFFFFFF, 0x0, 0x0, 0x7FFFE000000000, 0xFF80001FFFFFFFFF, []⟩
def F.PMU_TRK_CFG_EN : FieldRef := ⟨Reg.PMU_TRK_CFG, 63, 63⟩
def F.PMU_TRK_CFG_MODE : FieldRef := ⟨Reg.PMU_TRK_CFG, 62, 62⟩
def F.PMU_TRK_CFG_FILT_EN : FieldRef := ⟨Reg.PMU_TRK_CFG, 61, 61⟩
def F.PMU_TRK_CFG_FILTER : FieldRef := ⟨Reg.PMU_TRK_CFG, 60, 55⟩
def F.PMU_TRK_CFG_N : FieldRef := ⟨Reg.PMU_TRK_CFG, 36, 32⟩
def F.PMU_TRK_CFG_SEED : FieldRef := ⟨Reg.PMU_TRK_CFG, 31, 0⟩
/-- PMU_TRK_PTR (18_performance_monitoring.md). -/
def Reg.PMU_TRK_PTR : RegDef := ⟨0xA000018, [], 0x0, 0x1FFF00000000, 0x0, 0x0, 0xFFFFE000FFFFE000, 0x0, []⟩
def F.PMU_TRK_PTR_HEAD : FieldRef := ⟨Reg.PMU_TRK_PTR, 44, 32⟩
def F.PMU_TRK_PTR_TAIL : FieldRef := ⟨Reg.PMU_TRK_PTR, 12, 0⟩
/-- PMU_TRK_STATUS (18_performance_monitoring.md). -/
def Reg.PMU_TRK_STATUS : RegDef := ⟨0xA000020, [], 0x0, 0x0, 0x0, 0x0, 0xFFFE0000, 0x0, [16]⟩
def F.PMU_TRK_STATUS_DROPPED : FieldRef := ⟨Reg.PMU_TRK_STATUS, 63, 32⟩
def F.PMU_TRK_STATUS_FULL : FieldRef := ⟨Reg.PMU_TRK_STATUS, 16, 16⟩
def F.PMU_TRK_STATUS_FULL_COUNT : FieldRef := ⟨Reg.PMU_TRK_STATUS, 15, 0⟩
/-- PMU_RD_CFG (18_performance_monitoring.md). -/
def Reg.PMU_RD_CFG : RegDef := ⟨0xA000028, [], 0x0, 0xFF00000000000000, 0x0, 0x0, 0xFFFFFFF0000000, 0xFF0000000FFFFFFF, []⟩
def F.PMU_RD_CFG_EN : FieldRef := ⟨Reg.PMU_RD_CFG, 63, 63⟩
def F.PMU_RD_CFG_MODE : FieldRef := ⟨Reg.PMU_RD_CFG, 62, 62⟩
def F.PMU_RD_CFG_FILTER : FieldRef := ⟨Reg.PMU_RD_CFG, 61, 56⟩
def F.PMU_RD_CFG_CAP : FieldRef := ⟨Reg.PMU_RD_CFG, 27, 0⟩
/-- PMU_RD_PTR (18_performance_monitoring.md). -/
def Reg.PMU_RD_PTR : RegDef := ⟨0xA000030, [], 0x0, 0xFFFFFFF00000000, 0x0, 0x0, 0xF0000000F0000000, 0x0, []⟩
def F.PMU_RD_PTR_HEAD_LAP : FieldRef := ⟨Reg.PMU_RD_PTR, 59, 59⟩
def F.PMU_RD_PTR_HEAD : FieldRef := ⟨Reg.PMU_RD_PTR, 58, 32⟩
def F.PMU_RD_PTR_TAIL_LAP : FieldRef := ⟨Reg.PMU_RD_PTR, 27, 27⟩
def F.PMU_RD_PTR_TAIL : FieldRef := ⟨Reg.PMU_RD_PTR, 26, 0⟩
/-- PMU_RD_STATUS (18_performance_monitoring.md). -/
def Reg.PMU_RD_STATUS : RegDef := ⟨0xA000038, [], 0x0, 0x0, 0x0, 0x0, 0xFFFE0000, 0x0, [16]⟩
def F.PMU_RD_STATUS_DROPPED : FieldRef := ⟨Reg.PMU_RD_STATUS, 63, 32⟩
def F.PMU_RD_STATUS_FULL : FieldRef := ⟨Reg.PMU_RD_STATUS, 16, 16⟩
def F.PMU_RD_STATUS_FULL_COUNT : FieldRef := ⟨Reg.PMU_RD_STATUS, 15, 0⟩
/-- PMU_RD_WSEL (18_performance_monitoring.md). -/
def Reg.PMU_RD_WSEL : RegDef := ⟨0xA000040, [], 0x0, 0x7FFFFFF, 0x0, 0x0, 0xFFFFFFFFF8000000, 0x0, []⟩
def F.PMU_RD_WSEL_SLOT : FieldRef := ⟨Reg.PMU_RD_WSEL, 26, 0⟩
/-- PMU_OVF_SUMMARY (18_performance_monitoring.md). -/
def Reg.PMU_OVF_SUMMARY : RegDef := ⟨0xA000100, [(8, 0, 32)], 0x0, 0x0, 0x0, 0x0, 0x0, 0x0, []⟩
def F.PMU_OVF_SUMMARY_OVF : FieldRef := ⟨Reg.PMU_OVF_SUMMARY, 63, 0⟩
/-- PMU_CTR_CFG (18_performance_monitoring.md). -/
def Reg.PMU_CTR_CFG : RegDef := ⟨0xA010000, [(8, 0, 2048)], 0x0, 0xFFFFF00000000000, 0x0, 0x0, 0xFFFFFFE0000, 0xFFFFF00000000000, [16]⟩
def F.PMU_CTR_CFG_EN : FieldRef := ⟨Reg.PMU_CTR_CFG, 63, 63⟩
def F.PMU_CTR_CFG_MODE : FieldRef := ⟨Reg.PMU_CTR_CFG, 62, 62⟩
def F.PMU_CTR_CFG_ALERT : FieldRef := ⟨Reg.PMU_CTR_CFG, 61, 61⟩
def F.PMU_CTR_CFG_FILT_EN : FieldRef := ⟨Reg.PMU_CTR_CFG, 60, 60⟩
def F.PMU_CTR_CFG_FILTER : FieldRef := ⟨Reg.PMU_CTR_CFG, 59, 54⟩
def F.PMU_CTR_CFG_EVENT : FieldRef := ⟨Reg.PMU_CTR_CFG, 53, 44⟩
def F.PMU_CTR_CFG_OVF : FieldRef := ⟨Reg.PMU_CTR_CFG, 16, 16⟩
def F.PMU_CTR_CFG_OVF_COUNT : FieldRef := ⟨Reg.PMU_CTR_CFG, 15, 0⟩
/-- PMU_CTR_VAL (18_performance_monitoring.md). -/
def Reg.PMU_CTR_VAL : RegDef := ⟨0xA020000, [(8, 0, 2048)], 0x0, 0xFFFFFFFFFFFF, 0x0, 0x0, 0xFFFF000000000000, 0x0, []⟩
def F.PMU_CTR_VAL_VALUE : FieldRef := ⟨Reg.PMU_CTR_VAL, 47, 0⟩
/-- PMU_FLT_CTL (18_performance_monitoring.md). -/
def Reg.PMU_FLT_CTL : RegDef := ⟨0xA030000, [(64, 0, 64)], 0x1C0000000000FF0F, 0xFC0000000000FF0F, 0x0, 0x0, 0x3FFFFFFFFFF00F0, 0xFC0000000000FF0F, []⟩
def F.PMU_FLT_CTL_SRC_SEL : FieldRef := ⟨Reg.PMU_FLT_CTL, 63, 62⟩
def F.PMU_FLT_CTL_ADDR_EN : FieldRef := ⟨Reg.PMU_FLT_CTL, 61, 61⟩
def F.PMU_FLT_CTL_WORLDS : FieldRef := ⟨Reg.PMU_FLT_CTL, 60, 58⟩
def F.PMU_FLT_CTL_MC_MASK : FieldRef := ⟨Reg.PMU_FLT_CTL, 15, 8⟩
def F.PMU_FLT_CTL_SC_MASK : FieldRef := ⟨Reg.PMU_FLT_CTL, 3, 0⟩
/-- PMU_FLT_PC (18_performance_monitoring.md). -/
def Reg.PMU_FLT_PC : RegDef := ⟨0xA030008, [(64, 0, 64)], 0x0, 0x3FFFF00003FFFF, 0x0, 0x0, 0xFFC0000FFFFC0000, 0x3FFFF00003FFFF, []⟩
def F.PMU_FLT_PC_PC_MASK : FieldRef := ⟨Reg.PMU_FLT_PC, 53, 36⟩
def F.PMU_FLT_PC_PC_VALUE : FieldRef := ⟨Reg.PMU_FLT_PC, 17, 0⟩
/-- PMU_FLT_PORTS_LO (18_performance_monitoring.md). -/
def Reg.PMU_FLT_PORTS_LO : RegDef := ⟨0xA030010, [(64, 0, 64)], 0x0, 0xFFFFFFFFFFFFFFFF, 0x0, 0x0, 0x0, 0xFFFFFFFFFFFFFFFF, []⟩
def F.PMU_FLT_PORTS_LO_PORTS_LO : FieldRef := ⟨Reg.PMU_FLT_PORTS_LO, 63, 0⟩
/-- PMU_FLT_PORTS_HI (18_performance_monitoring.md). -/
def Reg.PMU_FLT_PORTS_HI : RegDef := ⟨0xA030018, [(64, 0, 64)], 0x0, 0xFFFFFFFFFFFFFFFF, 0x0, 0x0, 0x0, 0xFFFFFFFFFFFFFFFF, []⟩
def F.PMU_FLT_PORTS_HI_PORTS_HI : FieldRef := ⟨Reg.PMU_FLT_PORTS_HI, 63, 0⟩
/-- PMU_FLT_ADDR_LO (18_performance_monitoring.md). -/
def Reg.PMU_FLT_ADDR_LO : RegDef := ⟨0xA030020, [(64, 0, 64)], 0x0, 0xFFFFFFFFFFFC0, 0x0, 0x0, 0xFFF000000000003F, 0xFFFFFFFFFFFC0, []⟩
def F.PMU_FLT_ADDR_LO_LO : FieldRef := ⟨Reg.PMU_FLT_ADDR_LO, 51, 6⟩
/-- PMU_FLT_ADDR_HI (18_performance_monitoring.md). -/
def Reg.PMU_FLT_ADDR_HI : RegDef := ⟨0xA030028, [(64, 0, 64)], 0x0, 0xFFFFFFFFFFFC0, 0x0, 0x0, 0xFFF000000000003F, 0xFFFFFFFFFFFC0, []⟩
def F.PMU_FLT_ADDR_HI_HI : FieldRef := ⟨Reg.PMU_FLT_ADDR_HI, 51, 6⟩
/-- PMU_BW_IN (18_performance_monitoring.md). -/
def Reg.PMU_BW_IN : RegDef := ⟨0xA040000, [(16, 0, 128)], 0x0, 0x0, 0x0, 0x0, 0x0, 0x0, []⟩
def F.PMU_BW_IN_WSEQ : FieldRef := ⟨Reg.PMU_BW_IN, 63, 48⟩
def F.PMU_BW_IN_BYTES : FieldRef := ⟨Reg.PMU_BW_IN, 47, 0⟩
/-- PMU_BW_OUT (18_performance_monitoring.md). -/
def Reg.PMU_BW_OUT : RegDef := ⟨0xA040008, [(16, 0, 128)], 0x0, 0x0, 0x0, 0x0, 0x0, 0x0, []⟩
def F.PMU_BW_OUT_WSEQ : FieldRef := ⟨Reg.PMU_BW_OUT, 63, 48⟩
def F.PMU_BW_OUT_BYTES : FieldRef := ⟨Reg.PMU_BW_OUT, 47, 0⟩
/-- PMU_TRK_ENTRY (18_performance_monitoring.md). -/
def Reg.PMU_TRK_ENTRY : RegDef := ⟨0xA100000, [(16, 0, 4096), (8, 0, 2)], 0x0, 0x0, 0x0, 0x0, 0x0, 0x0, []⟩
def F.PMU_TRK_ENTRY_WORD : FieldRef := ⟨Reg.PMU_TRK_ENTRY, 63, 0⟩
/-- PMU_RD_WIN (18_performance_monitoring.md). -/
def Reg.PMU_RD_WIN : RegDef := ⟨0xA800000, [(32, 0, 2048), (8, 0, 4)], 0x0, 0x0, 0x0, 0x0, 0x0, 0x0, []⟩
def F.PMU_RD_WIN_WORD : FieldRef := ⟨Reg.PMU_RD_WIN, 63, 0⟩
/-- INL_CTL (19_inlet_and_power.md). -/
def Reg.INL_CTL : RegDef := ⟨0x100000, [], 0xA30, 0x7F7F, 0x10000, 0x0, 0xFFFFFFFFFFFE8080, 0x7F7F, []⟩
def F.INL_CTL_REARM : FieldRef := ⟨Reg.INL_CTL, 16, 16⟩
def F.INL_CTL_FAULT_TIME : FieldRef := ⟨Reg.INL_CTL, 14, 8⟩
def F.INL_CTL_ILIM : FieldRef := ⟨Reg.INL_CTL, 6, 0⟩
/-- INL_STATUS (19_inlet_and_power.md). -/
def Reg.INL_STATUS : RegDef := ⟨0x100008, [], 0x0, 0x0, 0x0, 0x0, 0x1C00FFFFFFE0000, 0x0, [16]⟩
def F.INL_STATUS_STATE : FieldRef := ⟨Reg.INL_STATUS, 63, 60⟩
def F.INL_STATUS_PWRGD : FieldRef := ⟨Reg.INL_STATUS, 59, 59⟩
def F.INL_STATUS_LIMIT : FieldRef := ⟨Reg.INL_STATUS, 58, 58⟩
def F.INL_STATUS_SENSOR_VALID : FieldRef := ⟨Reg.INL_STATUS, 57, 57⟩
def F.INL_STATUS_CAUSES : FieldRef := ⟨Reg.INL_STATUS, 53, 48⟩
def F.INL_STATUS_CAUSE : FieldRef := ⟨Reg.INL_STATUS, 47, 44⟩
def F.INL_STATUS_TRIP : FieldRef := ⟨Reg.INL_STATUS, 16, 16⟩
def F.INL_STATUS_TRIP_COUNT : FieldRef := ⟨Reg.INL_STATUS, 15, 0⟩
/-- INL_MEAS (19_inlet_and_power.md). -/
def Reg.INL_MEAS : RegDef := ⟨0x100010, [], 0x0, 0x0, 0x0, 0x0, 0x0, 0x0, []⟩
def F.INL_MEAS_PIN : FieldRef := ⟨Reg.INL_MEAS, 63, 48⟩
def F.INL_MEAS_IIN : FieldRef := ⟨Reg.INL_MEAS, 47, 32⟩
def F.INL_MEAS_VOUT : FieldRef := ⟨Reg.INL_MEAS, 31, 16⟩
def F.INL_MEAS_VIN : FieldRef := ⟨Reg.INL_MEAS, 15, 0⟩
/-- INL_TEMP (19_inlet_and_power.md). -/
def Reg.INL_TEMP : RegDef := ⟨0x100018, [], 0xDC000000000000, 0x0, 0x0, 0x0, 0xFFFF00000000, 0x0, []⟩
def F.INL_TEMP_H : FieldRef := ⟨Reg.INL_TEMP, 63, 48⟩
def F.INL_TEMP_FET_MODEL : FieldRef := ⟨Reg.INL_TEMP, 31, 16⟩
def F.INL_TEMP_FET_SENSOR : FieldRef := ⟨Reg.INL_TEMP, 15, 0⟩
/-- INL_PD_CTL (19_inlet_and_power.md). -/
def Reg.INL_PD_CTL : RegDef := ⟨0x100020, [], 0x0, 0xFFFFFF, 0x0, 0x0, 0xFFFFFFFFFF000000, 0xFFFFFF, []⟩
def F.INL_PD_CTL_PLN_ON : FieldRef := ⟨Reg.INL_PD_CTL, 23, 20⟩
def F.INL_PD_CTL_HQ_ON : FieldRef := ⟨Reg.INL_PD_CTL, 19, 16⟩
def F.INL_PD_CTL_HBM_ON : FieldRef := ⟨Reg.INL_PD_CTL, 15, 8⟩
def F.INL_PD_CTL_STG_ON : FieldRef := ⟨Reg.INL_PD_CTL, 7, 0⟩
/-- INL_PD_STATUS (19_inlet_and_power.md). -/
def Reg.INL_PD_STATUS : RegDef := ⟨0x100028, [], 0x0, 0x0, 0x0, 0x0, 0xFFFF000000000000, 0x0, []⟩
def F.INL_PD_STATUS_STATE : FieldRef := ⟨Reg.INL_PD_STATUS, 47, 0⟩
/-- INL_EVT (19_inlet_and_power.md). -/
def Reg.INL_EVT : RegDef := ⟨0x100030, [], 0x0, 0x0, 0x0, 0x0, 0xE0FE0000FFFE0000, 0x0, [48, 16]⟩
def F.INL_EVT_LAST_DOMAIN : FieldRef := ⟨Reg.INL_EVT, 60, 56⟩
def F.INL_EVT_LOCKOUT : FieldRef := ⟨Reg.INL_EVT, 48, 48⟩
def F.INL_EVT_LOCKOUT_COUNT : FieldRef := ⟨Reg.INL_EVT, 47, 32⟩
def F.INL_EVT_PD_FAIL : FieldRef := ⟨Reg.INL_EVT, 16, 16⟩
def F.INL_EVT_PD_FAIL_COUNT : FieldRef := ⟨Reg.INL_EVT, 15, 0⟩
/-- INL_THERM (19_inlet_and_power.md). -/
def Reg.INL_THERM : RegDef := ⟨0x100038, [], 0x0, 0x0, 0x0, 0x0, 0xFFFEFFFE0000, 0x0, [16]⟩
def F.INL_THERM_TJ : FieldRef := ⟨Reg.INL_THERM, 63, 48⟩
def F.INL_THERM_THROTTLE : FieldRef := ⟨Reg.INL_THERM, 32, 32⟩
def F.INL_THERM_THROTTLE_EVT : FieldRef := ⟨Reg.INL_THERM, 16, 16⟩
def F.INL_THERM_THROTTLE_EVT_COUNT : FieldRef := ⟨Reg.INL_THERM, 15, 0⟩
/-- RAS_AVAIL (20_reliability.md). -/
def Reg.RAS_AVAIL : RegDef := ⟨0xB000000, [], 0x20000, 0x0, 0x0, 0x0, 0xFFFFFFFFFFFCF000, 0x0, []⟩
def F.RAS_AVAIL_PM_PAIRS : FieldRef := ⟨Reg.RAS_AVAIL, 17, 16⟩
def F.RAS_AVAIL_QUAD_LOST : FieldRef := ⟨Reg.RAS_AVAIL, 11, 8⟩
def F.RAS_AVAIL_HBM_LOST : FieldRef := ⟨Reg.RAS_AVAIL, 7, 0⟩
/-- RAS_ECC (20_reliability.md). -/
def Reg.RAS_ECC : RegDef := ⟨0xB000008, [], 0x0, 0x0, 0x0, 0x0, 0x0, 0x0, []⟩
def F.RAS_ECC_CORR_HBM : FieldRef := ⟨Reg.RAS_ECC, 63, 32⟩
def F.RAS_ECC_CORR_SRAM : FieldRef := ⟨Reg.RAS_ECC, 31, 0⟩
/-- RAS_MGMT_ERR (20_reliability.md). -/
def Reg.RAS_MGMT_ERR : RegDef := ⟨0xB000010, [], 0x0, 0x0, 0x0, 0x0, 0xFFFF000000000000, 0x0, []⟩
def F.RAS_MGMT_ERR_DISCARD : FieldRef := ⟨Reg.RAS_MGMT_ERR, 47, 32⟩
def F.RAS_MGMT_ERR_FRAMING : FieldRef := ⟨Reg.RAS_MGMT_ERR, 31, 16⟩
def F.RAS_MGMT_ERR_UNMAPPED : FieldRef := ⟨Reg.RAS_MGMT_ERR, 15, 0⟩
/-- RAS_LOG_CFG (20_reliability.md). -/
def Reg.RAS_LOG_CFG : RegDef := ⟨0xB000018, [], 0x5, 0xF, 0x0, 0x0, 0xFFFFFFFFFFFFFFF0, 0xF, []⟩
def F.RAS_LOG_CFG_AUTO_RESET : FieldRef := ⟨Reg.RAS_LOG_CFG, 3, 3⟩
def F.RAS_LOG_CFG_EVT_SEV : FieldRef := ⟨Reg.RAS_LOG_CFG, 2, 1⟩
def F.RAS_LOG_CFG_OVERWRITE : FieldRef := ⟨Reg.RAS_LOG_CFG, 0, 0⟩
/-- RAS_LOG_PTR (20_reliability.md). -/
def Reg.RAS_LOG_PTR : RegDef := ⟨0xB000020, [], 0x0, 0x1FFF00000000, 0x0, 0x0, 0xFFFFE000FFFFE000, 0x0, []⟩
def F.RAS_LOG_PTR_HEAD : FieldRef := ⟨Reg.RAS_LOG_PTR, 44, 32⟩
def F.RAS_LOG_PTR_TAIL : FieldRef := ⟨Reg.RAS_LOG_PTR, 12, 0⟩
/-- RAS_LOG_STATUS (20_reliability.md). -/
def Reg.RAS_LOG_STATUS : RegDef := ⟨0xB000028, [], 0x0, 0x0, 0x0, 0x0, 0xFFFE0000, 0x0, [16]⟩
def F.RAS_LOG_STATUS_DROPPED : FieldRef := ⟨Reg.RAS_LOG_STATUS, 63, 32⟩
def F.RAS_LOG_STATUS_NEW : FieldRef := ⟨Reg.RAS_LOG_STATUS, 16, 16⟩
def F.RAS_LOG_STATUS_NEW_COUNT : FieldRef := ⟨Reg.RAS_LOG_STATUS, 15, 0⟩
/-- RAS_CENSUS_STATUS (20_reliability.md). -/
def Reg.RAS_CENSUS_STATUS : RegDef := ⟨0xB000030, [], 0x0, 0x0, 0x0, 0x0, 0x0, 0x0, []⟩
def F.RAS_CENSUS_STATUS_TICKET : FieldRef := ⟨Reg.RAS_CENSUS_STATUS, 63, 48⟩
def F.RAS_CENSUS_STATUS_STATE : FieldRef := ⟨Reg.RAS_CENSUS_STATUS, 47, 44⟩
def F.RAS_CENSUS_STATUS_REASON : FieldRef := ⟨Reg.RAS_CENSUS_STATUS, 43, 32⟩
def F.RAS_CENSUS_STATUS_DONE_UNITS : FieldRef := ⟨Reg.RAS_CENSUS_STATUS, 31, 0⟩
/-- RAS_PLOG_SEL (20_reliability.md). -/
def Reg.RAS_PLOG_SEL : RegDef := ⟨0xB000038, [], 0x0, 0x3FFFF, 0x0, 0x0, 0xFFFFFFFFFFFC0000, 0x0, []⟩
def F.RAS_PLOG_SEL_SLOT : FieldRef := ⟨Reg.RAS_PLOG_SEL, 17, 0⟩
/-- RAS_PLOG_STATUS (20_reliability.md). -/
def Reg.RAS_PLOG_STATUS : RegDef := ⟨0xB000040, [], 0x0, 0x0, 0x0, 0x0, 0xFFFC0000FFFF0000, 0x0, []⟩
def F.RAS_PLOG_STATUS_NEXT : FieldRef := ⟨Reg.RAS_PLOG_STATUS, 49, 32⟩
def F.RAS_PLOG_STATUS_BOOT : FieldRef := ⟨Reg.RAS_PLOG_STATUS, 15, 0⟩
/-- RAS_PLOG_REC (20_reliability.md). -/
def Reg.RAS_PLOG_REC : RegDef := ⟨0xB000080, [(8, 0, 8)], 0x0, 0x0, 0x0, 0x0, 0x0, 0x0, []⟩
def F.RAS_PLOG_REC_WORD : FieldRef := ⟨Reg.RAS_PLOG_REC, 63, 0⟩
/-- RAS_LOG_ENTRY (20_reliability.md). -/
def Reg.RAS_LOG_ENTRY : RegDef := ⟨0xB400000, [(64, 0, 4096), (8, 0, 8)], 0x0, 0x0, 0x0, 0x0, 0x0, 0x0, []⟩
def F.RAS_LOG_ENTRY_WORD : FieldRef := ⟨Reg.RAS_LOG_ENTRY, 63, 0⟩
/-- SEC_LIFECYCLE (21_security.md). -/
def Reg.SEC_LIFECYCLE : RegDef := ⟨0xC000000, [], 0x8000000000000000, 0x0, 0x0, 0x0, 0x0, 0x0, []⟩
def F.SEC_LIFECYCLE_STATE : FieldRef := ⟨Reg.SEC_LIFECYCLE, 63, 62⟩
def F.SEC_LIFECYCLE_SERIAL : FieldRef := ⟨Reg.SEC_LIFECYCLE, 61, 0⟩
/-- SEC_OWNER (21_security.md). -/
def Reg.SEC_OWNER : RegDef := ⟨0xC000008, [], 0x0, 0x0, 0x0, 0x0, 0x3FFFFFFFFFFFFFFF, 0x0, []⟩
def F.SEC_OWNER_OWNER : FieldRef := ⟨Reg.SEC_OWNER, 63, 63⟩
def F.SEC_OWNER_CHAIN1 : FieldRef := ⟨Reg.SEC_OWNER, 62, 62⟩
/-- SEC_DEBUG (21_security.md). -/
def Reg.SEC_DEBUG : RegDef := ⟨0xC000010, [], 0x0, 0x0, 0x0, 0x0, 0xFFFFFFE0000, 0x0, [16]⟩
def F.SEC_DEBUG_ACTIVE : FieldRef := ⟨Reg.SEC_DEBUG, 63, 63⟩
def F.SEC_DEBUG_PERMS : FieldRef := ⟨Reg.SEC_DEBUG, 62, 47⟩
def F.SEC_DEBUG_REASON : FieldRef := ⟨Reg.SEC_DEBUG, 46, 44⟩
def F.SEC_DEBUG_REJECT : FieldRef := ⟨Reg.SEC_DEBUG, 16, 16⟩
def F.SEC_DEBUG_REJECT_COUNT : FieldRef := ⟨Reg.SEC_DEBUG, 15, 0⟩
/-- SEC_TSP (21_security.md). -/
def Reg.SEC_TSP : RegDef := ⟨0xC000018, [], 0x0, 0x0, 0x1, 0xFFFF000000000000, 0xFFFFFFFFFFFE, 0x0, []⟩
def F.SEC_TSP_TICKET : FieldRef := ⟨Reg.SEC_TSP, 63, 48⟩
def F.SEC_TSP_LOCK : FieldRef := ⟨Reg.SEC_TSP, 0, 0⟩
/-- SEC_TSP_STATUS (21_security.md). -/
def Reg.SEC_TSP_STATUS : RegDef := ⟨0xC000020, [], 0x0, 0x0, 0x0, 0x0, 0x0, 0x0, []⟩
def F.SEC_TSP_STATUS_TICKET : FieldRef := ⟨Reg.SEC_TSP_STATUS, 63, 48⟩
def F.SEC_TSP_STATUS_STATE : FieldRef := ⟨Reg.SEC_TSP_STATUS, 47, 44⟩
def F.SEC_TSP_STATUS_REASON : FieldRef := ⟨Reg.SEC_TSP_STATUS, 43, 32⟩
def F.SEC_TSP_STATUS_DONE_UNITS : FieldRef := ⟨Reg.SEC_TSP_STATUS, 31, 0⟩
/-- SEC_IDE_CFG (21_security.md). -/
def Reg.SEC_IDE_CFG : RegDef := ⟨0xC001000, [(8, 0, 128)], 0x0, 0x3, 0x0, 0x0, 0xFFFFFFFFFFFFFFFC, 0x3, []⟩
def F.SEC_IDE_CFG_SKID : FieldRef := ⟨Reg.SEC_IDE_CFG, 1, 1⟩
def F.SEC_IDE_CFG_IDE_REQ : FieldRef := ⟨Reg.SEC_IDE_CFG, 0, 0⟩
/-- SEC_IDE_STATUS (21_security.md). -/
def Reg.SEC_IDE_STATUS : RegDef := ⟨0xC001400, [(8, 0, 128)], 0x0, 0x0, 0x0, 0x0, 0x3FFFFFFFFFE0000, 0x0, [16]⟩
def F.SEC_IDE_STATUS_CM_SECURE : FieldRef := ⟨Reg.SEC_IDE_STATUS, 63, 63⟩
def F.SEC_IDE_STATUS_LINK_SECURE : FieldRef := ⟨Reg.SEC_IDE_STATUS, 62, 62⟩
def F.SEC_IDE_STATUS_SEL_SECURE : FieldRef := ⟨Reg.SEC_IDE_STATUS, 61, 58⟩
def F.SEC_IDE_STATUS_IDE_FAIL : FieldRef := ⟨Reg.SEC_IDE_STATUS, 16, 16⟩
def F.SEC_IDE_STATUS_IDE_FAIL_COUNT : FieldRef := ⟨Reg.SEC_IDE_STATUS, 15, 0⟩
/-- GLB_ID (23_register_map.md). -/
def Reg.GLB_ID : RegDef := ⟨0x0, [], 0x512000010000, 0x0, 0x0, 0x0, 0xFFFF, 0x0, []⟩
def F.GLB_ID_VENDOR : FieldRef := ⟨Reg.GLB_ID, 63, 48⟩
def F.GLB_ID_PART : FieldRef := ⟨Reg.GLB_ID, 47, 32⟩
def F.GLB_ID_STEP_MAJOR : FieldRef := ⟨Reg.GLB_ID, 31, 28⟩
def F.GLB_ID_STEP_MINOR : FieldRef := ⟨Reg.GLB_ID, 27, 24⟩
def F.GLB_ID_PKG : FieldRef := ⟨Reg.GLB_ID, 23, 16⟩
/-- GLB_STATUS (23_register_map.md). -/
def Reg.GLB_STATUS : RegDef := ⟨0x8, [], 0x4001000000000000, 0x0, 0x0, 0x0, 0x7F00000FFFFFFFF, 0x0, []⟩
def F.GLB_STATUS_STEP : FieldRef := ⟨Reg.GLB_STATUS, 63, 60⟩
def F.GLB_STATUS_SAFE : FieldRef := ⟨Reg.GLB_STATUS, 59, 59⟩
def F.GLB_STATUS_LAST_RESET : FieldRef := ⟨Reg.GLB_STATUS, 51, 48⟩
def F.GLB_STATUS_WARM_COUNT : FieldRef := ⟨Reg.GLB_STATUS, 47, 32⟩
/-- GLB_RESET (23_register_map.md). -/
def Reg.GLB_RESET : RegDef := ⟨0x10, [], 0x0, 0x0, 0x0, 0x1, 0xFFFFFFFFFFFFFFFE, 0x0, []⟩
def F.GLB_RESET_WARM : FieldRef := ⟨Reg.GLB_RESET, 0, 0⟩
def regMap0 : List RegDef := [Reg.FTM_NOW, Reg.FTM_LOAD, Reg.FTM_CTL, Reg.FTM_HZ_SEL, Reg.FTM_HZ, Reg.FTM_SLIP, Reg.FTM_STALE, Reg.RTE_SELF, Reg.RTE_UNROUTED, Reg.RTE_PORT_ID, Reg.RTE_DIST, Reg.RTE_LOCAL, Reg.RTE_HR_BASE, Reg.RTE_HR_CFG, Reg.RTE_HR_MEMA, Reg.RTE_HR_MEMB, Reg.RTE_HR_MBASE, Reg.RTE_MCG_LO, Reg.RTE_MCG_HI, Reg.TEN_FRANK_CFG, Reg.TEN_FRANK_STATUS, Reg.TEN_FRANK_DMASK, Reg.SOF_ALPHA, Reg.SOF_FREE]
def regMap1 : List RegDef := [Reg.SOF_PLANE_STATUS, Reg.SOF_PLANE_CTL, Reg.SOF_MAILBAG, Reg.SOF_FLUSH, Reg.SOF_FLUSH_STATUS, Reg.SOF_FLUSH_RESULT, Reg.SOF_PORT_CFG, Reg.SOF_PORT_STATUS, Reg.SOF_Q_OCC, Reg.SOF_DEVLOAD_CFG, Reg.SOF_DEVLOAD_EVT, Reg.SOF_MC_CFG, Reg.SOF_MC7_POLICE, Reg.SOF_ING_STATUS, Reg.SOF_DEVLOAD_STATUS, Reg.HQ_SLICE_MAP, Reg.HQ_CARBON_CFG, Reg.HQ_CARBON_STATUS, Reg.HQ_PROTO_ERR, Reg.HQ_REMOVE, Reg.HQ_REMOVE_STATUS, Reg.HQ_HOST_CFG, Reg.HQ_HOST_STATUS, Reg.FCH_CFG]
def regMap2 : List RegDef := [Reg.FCH_HBM_SHARE, Reg.FCH_STATUS, Reg.FCH_AROUND, Reg.FCH_CLEAN, Reg.FCH_CLEAN_STATUS, Reg.FCH_MIRROR_CLR, Reg.FCH_MIRROR_EVT, Reg.FCH_SLICE, Reg.FCH_MGRP_CTL, Reg.FCH_MGRP_OFF, Reg.FCH_MGRP_STATUS, Reg.PCL_CFG, Reg.PCL_DB_ERR, Reg.PCL_ENG_STATUS, Reg.PCL_SLOT_STATUS, Reg.TEN_FLD_CFG, Reg.TEN_FLD_STATUS, Reg.TEN_PORT_MODEL, Reg.TEN_XLATE_ERR, Reg.TEN_RGN_BASE, Reg.TEN_RGN_CFG, Reg.TEN_EXT, Reg.GRD_BARRIER, Reg.GRD_FAULT]
def regMap3 : List RegDef := [Reg.GRD_LOCK_ERR, Reg.GRD_MGMT_SG, Reg.GRD_PORT_SG, Reg.GRD_RULE_BASE, Reg.GRD_RULE_SIZE, Reg.GRD_RULE_MATCH, Reg.GRD_RULE_ATTR, Reg.SCH_PORT_CFG, Reg.SCH_PACE_PORT, Reg.SCH_GATE_CTL, Reg.SCH_GATE_STATUS, Reg.SCH_GATE_INFO, Reg.SCH_GATE_BASE, Reg.SCH_GATE_ENT, Reg.SCH_FLD_CFG, Reg.SCH_SHAPE, Reg.STN_CFG, Reg.STN_PORT_CFG, Reg.STN_LINK_STATUS, Reg.STN_PORT_CTL, Reg.STN_CRL_CFG, Reg.STN_CRL_STATUS, Reg.STN_CRL_PEER, Reg.STN_CRL_TIME]
def regMap4 : List RegDef := [Reg.STN_CRL_RETRY, Reg.RAS_CONTAIN, Reg.RAS_FENCE, Reg.RAS_FENCE_INFO, Reg.RAS_DL_CFG, Reg.RAS_DL_PTR, Reg.RAS_DL_STATUS, Reg.RAS_DL_ENTRY, Reg.AMD_CMD, Reg.AMD_STATUS, Reg.AMD_CUTOVER, Reg.AMD_STAGE_VALUE, Reg.AMD_STAGE_MASK, Reg.AMD_STAGE_ADDR, Reg.AMD_INFO, Reg.AMD_RESULT, Reg.AMD_CHECK_INFO, Reg.AMD_EVT, Reg.AMD_PERSIST_STATUS, Reg.AMD_CFG_SLOT, Reg.AMD_SLOT_SEQ0, Reg.AMD_SLOT_SEQ1, Reg.MBX_STATUS, Reg.MBX_TS_OFFSET]
def regMap5 : List RegDef := [Reg.MBX_BRUMIN, Reg.MBX_IMG_STATUS, Reg.MBX_PORT_CFG, Reg.RAS_EVQ_CFG, Reg.RAS_EVQ_PTR, Reg.RAS_EVQ_STATUS, Reg.RAS_ALERT, Reg.RAS_EVQ_POP, Reg.RAS_WM_CFG, Reg.RAS_WM_HYST, Reg.RAS_WM_STATUS, Reg.RAS_EVQ_ENTRY, Reg.MBX_FW_INFO, Reg.MBX_FW_SLOT0, Reg.MBX_FW_SLOT1, Reg.MBX_FW_XFER_STATUS, Reg.MBX_FW_ACT_STATUS, Reg.MBX_FW_UCODE, Reg.PMU_CTL, Reg.PMU_BW_CFG, Reg.PMU_TRK_CFG, Reg.PMU_TRK_PTR, Reg.PMU_TRK_STATUS, Reg.PMU_RD_CFG]
def regMap6 : List RegDef := [Reg.PMU_RD_PTR, Reg.PMU_RD_STATUS, Reg.PMU_RD_WSEL, Reg.PMU_OVF_SUMMARY, Reg.PMU_CTR_CFG, Reg.PMU_CTR_VAL, Reg.PMU_FLT_CTL, Reg.PMU_FLT_PC, Reg.PMU_FLT_PORTS_LO, Reg.PMU_FLT_PORTS_HI, Reg.PMU_FLT_ADDR_LO, Reg.PMU_FLT_ADDR_HI, Reg.PMU_BW_IN, Reg.PMU_BW_OUT, Reg.PMU_TRK_ENTRY, Reg.PMU_RD_WIN, Reg.INL_CTL, Reg.INL_STATUS, Reg.INL_MEAS, Reg.INL_TEMP, Reg.INL_PD_CTL, Reg.INL_PD_STATUS, Reg.INL_EVT, Reg.INL_THERM]
def regMap7 : List RegDef := [Reg.RAS_AVAIL, Reg.RAS_ECC, Reg.RAS_MGMT_ERR, Reg.RAS_LOG_CFG, Reg.RAS_LOG_PTR, Reg.RAS_LOG_STATUS, Reg.RAS_CENSUS_STATUS, Reg.RAS_PLOG_SEL, Reg.RAS_PLOG_STATUS, Reg.RAS_PLOG_REC, Reg.RAS_LOG_ENTRY, Reg.SEC_LIFECYCLE, Reg.SEC_OWNER, Reg.SEC_DEBUG, Reg.SEC_TSP, Reg.SEC_TSP_STATUS, Reg.SEC_IDE_CFG, Reg.SEC_IDE_STATUS, Reg.GLB_ID, Reg.GLB_STATUS, Reg.GLB_RESET]
/-- R477, R482: every register of the map. -/
def regMap : List RegDef := regMap0 ++ regMap1 ++ regMap2 ++ regMap3 ++ regMap4 ++ regMap5 ++ regMap6 ++ regMap7

end Sys2Proof.Machine
end

