-- ==== Sys2Proof/Machine/State.lean ====
section
/-!
DEFINITION. The state of the HK5120 as plain data: Fabric Time, MRAM, fuses, the register file, the sorting office, the
egress ports, the home slices, the parcel engines, the links, the logs, the Postmaster, the inlet guard, and the queue of
waiting commands; and the state after reset. INVENTORY.md, '## State', lists each piece with its rule and reset value.
-/

namespace Sys2Proof.Machine
open Sys2Proof

/-- Why a command stops the machine with no next state. -/
inductive Fault where
  /-- Raised by every path of a single management write, and by L0P_REQUEST, BW_WIN_CHANGE and TRACKING_RESEED, when the write
  carries a non-zero value into a reserved field or encoding (R7, R446: undefined, no effect given). Safe: the model stops where
  the hardware may do anything within R447. -/
  | reservedWrite (addr : Nat)
  /-- Raised by the three doorbell commands when the doorbell they would handle carries a reserved command or non-zero reserved
  bits (R196), and by DOORBELL_SUBMIT when the descriptor does (R203, R7, R446: undefined, no effect given). Safe, as above. -/
  | reservedParcel (fld slot : Nat)
  deriving DecidableEq, Repr

/-- Why a command is turned away by the model. -/
inductive Refusal where
  /-- Raised by Dispatch for a command whose meaning is not written. Safe: no next state is claimed. -/
  | notModelled (mnemonic : String)
  deriving DecidableEq, Repr

/-- R29-R31: Fabric Time in the always-on domain. -/
structure TimeSt where
  /-- FTM_NOW. -/
  now : Word := 0
  /-- The first port has become ready since the cold reset; FTM_LOAD is no longer accepted (R29). -/
  locked : Bool := false
  /-- Offset still to be removed by slewing, in ten-thousandths of a tick (R30: at most 100 ppm). -/
  slew : Int := 0
  /-- Rises of PPS_OUT so far (R31). -/
  ppsOut : Nat := 0
  /-- Ticks of the resonator since the always-on domain came up, which no load changes: the clock of the inlet guard. -/
  up : Nat := 0
  /-- `up` at the last accepted PPS_IN edge, plus 1 (R468). -/
  ppsIn : Nat := 0
  deriving DecidableEq, Repr

/-- R80-R83: a letter in flight on a plane. -/
structure Letter where
  /-- The message (its key) and its source attachment and TAG. -/
  key : Nat
  att : Nat
  tag : Nat
  /-- INDEX of the letter in its message. -/
  idx : Nat
  /-- LAST. -/
  last : Bool
  /-- The plane that carries it. -/
  plane : Nat
  /-- Fabric Time at which it was last sent. -/
  sentAt : Nat
  /-- MARK field. -/
  mark : Nat
  /-- The last handover failed its CHECK, or the plane was retired under it: it goes again before it is handed over. -/
  failed : Bool
  /-- BLANK: false, as a blank letter is delivered to every point at once (R81). -/
  blank : Bool := false
  /-- CHECK: the CRC-16 over the letter and its other fields. -/
  check : Nat := 0
  deriving DecidableEq, Repr

/-- Why a message waits at its ingress before any letter is sent. -/
inductive HoldWhy where
  | record | receiptLimit | receiptOrder | police | courierCredit
  deriving DecidableEq, Repr

/-- Where a message stands on its way to its target. -/
inductive Phase where
  /-- Waiting at its ingress (R309, R123, R128). -/
  | held (why : HoldWhy)
  /-- First letter sent, not yet acknowledged. -/
  | flying
  /-- Refused at the ordering point; a pin holds its postmark there (R85, R94). -/
  | pinned
  /-- Admitted; later letters may still be arriving. -/
  | admitted
  /-- Completed into the discard sink (R103). -/
  | sink
  deriving DecidableEq, Repr

/-- A message between its attachment and its target, with the letters received so far. -/
structure Transit where
  /-- The message's key. -/
  key : Nat
  /-- The message. -/
  msg : Msg
  /-- TAG of its letters. -/
  tag : Nat
  /-- Where it is bound. -/
  tgt : Target
  /-- Letters received so far, by INDEX. -/
  got : List Nat
  /-- How far it has come. -/
  phase : Phase
  /-- Ordering points that hold a pin of it (R85, R107). -/
  pins : List Nat := []
  /-- Ports whose copy a flush has removed while the message waited at its ingress (R102, R106). -/
  cut : List Nat := []
  deriving DecidableEq, Repr

/-- R91: the path by which a message was admitted. -/
inductive Path where
  | onDie | spilled | guaranteed | reserved
  deriving DecidableEq, Repr

/-- A message in an egress queue. -/
structure QEntry where
  /-- The message's key. -/
  key : Nat
  /-- The message. -/
  msg : Msg
  /-- The store that holds its letters. -/
  path : Path
  /-- The multicast group the copy belongs to (R107). -/
  group : Option Nat
  /-- Letters of a spilled message that its port's refill letters hold (R97). -/
  fetched : Nat := 0
  deriving DecidableEq, Repr

/-- R96: a Mailbag block: letters written into it, and the messages whose letters still lie in it. -/
structure SpillBlock where
  /-- Letters written into the block. -/
  filled : Nat
  /-- Messages with letters still in it: key and count. -/
  live : List (Nat × Nat)
  deriving DecidableEq, Repr

/-- R87: one egress queue. -/
structure Queue where
  /-- Sorting section, in postmark order. -/
  sorting : List QEntry := []
  /-- Settled section, in order of leaving. -/
  settled : List QEntry := []
  /-- Mailbag blocks, oldest first. -/
  blocks : List SpillBlock := []
  /-- The tail pigeonhole: the last four letters received for the queue, as message key and INDEX. -/
  tail : List (Nat × Nat) := []
  deriving DecidableEq, Repr

/-- R107, R108: a stored message with its reference count. -/
structure Stored where
  /-- The message's key. -/
  key : Nat
  /-- The store that holds it. -/
  path : Path
  /-- Its letters. -/
  n : Nat
  /-- References left. -/
  refs : Nat
  /-- SOURCE whose reserve holds it, for `reserved`. -/
  source : Nat
  /-- Device-managed group to free when the last reference goes (R71). -/
  group : Option Nat
  deriving DecidableEq, Repr

/-- R256: the notional server of one port and class. -/
structure Notional where
  /-- Notional time t. -/
  t : Nat := 0
  /-- Service class whose turn it is. -/
  s : Nat := 0
  /-- Deficit of each service class. -/
  deficit : List Int := [0, 0, 0, 0]
  /-- Consecutive visits that have started no message. -/
  idle : Nat := 0
  /-- 0: before a visit; 1: within a visit that has started a message; 3: within one that has not; 2: about to move t on. -/
  mid : Nat := 0
  deriving DecidableEq, Repr

/-- R259: what EN, INC and BURST of a shaper or pacer were, up to and with its refill number `last`. -/
structure Setting where
  /-- The last refill under it, in 1,024 ticks. -/
  last : Nat
  /-- EN. -/
  en : Bool
  /-- INC. -/
  inc : Nat
  /-- BURST. -/
  burst : Nat
  deriving DecidableEq, Repr

/-- R258, R264: a token bucket with the settings in force since its last refill (R259): the real level, and for a shaper
the notional level with the last refill that it has had. -/
structure Bucket where
  /-- EN in force. -/
  en : Bool := false
  /-- INC in force. -/
  inc : Nat := 0
  /-- BURST in force. -/
  burst : Nat := 0
  /-- Real level. -/
  lvl : Int := 0
  /-- Notional level. -/
  nlvl : Int := 0
  /-- The last refill that the notional level has had. -/
  nidx : Nat := 0
  /-- EN was in force at it. -/
  nen : Bool := false
  /-- Earlier settings, oldest first, for notional time that lags behind. -/
  past : List Setting := []
  deriving DecidableEq, Repr

/-- A message leaving an egress. -/
structure Leaving where
  /-- The message. -/
  e : QEntry
  /-- Tick at which it began. -/
  began : Nat
  /-- Letters of it that are known to have left: those received before its last underrun (R93, R101). -/
  left : Nat := 0
  /-- Tick at which the open run that it began in ends (R262). -/
  closes : Option Nat := none
  deriving DecidableEq, Repr

/-- R125-R127: the selection state of one egress port. -/
structure PortEg where
  /-- The message that is leaving. -/
  leaving : Option Leaving := none
  /-- The class's next message with its notional start (R257), by class. -/
  next : Table (QEntry × Nat) := []
  /-- Weighted round robin credit of classes MC0 to MC6 (R125). -/
  credit : List Int := [0, 0, 0, 0, 0, 0, 0]
  /-- The class whose turn it is. -/
  turn : Nat := 0
  /-- The turn has begun. -/
  inTurn : Bool := false
  /-- Urgent classes, the longest waiting first (R126). -/
  urgent : List Nat := []
  /-- Classes eligible when last judged. -/
  wasElig : List Nat := []
  /-- Letters of other classes begun since the class last began a message or became eligible. -/
  others : List Nat := [0, 0, 0, 0, 0, 0, 0]
  /-- The last 63 letters begun: true for MC7 (R127). -/
  recent : List Bool := []
  /-- Tick from which the class has had an eligible head with no letter leaving, plus 1; 0 for none (R118). -/
  stallFrom : List Nat := [0, 0, 0, 0, 0, 0, 0, 0]
  deriving DecidableEq, Repr

/-- R309: a requester record. -/
structure ReqRec where
  /-- Requester ID. -/
  reqId : Nat
  /-- Tag. -/
  tag : Nat
  /-- A CXL.io request; otherwise CXL.mem. -/
  io : Bool
  /-- The answer is still to be delivered: false once the fence of its port has ended the request. -/
  live : Bool
  /-- The request: for the error answers of R104, R310 and R320. -/
  msg : Msg
  /-- The Courier port over which the request left the device, if it did (R320). -/
  via : Option Nat
  /-- A completion with UR follows the data of the allowed parts (R246). -/
  ur : Bool := false
  /-- The data, or the NDR, of a CXL.mem request has left: the other ends it (R148). -/
  half : Bool := false
  deriving DecidableEq, Repr

/-- R123: a pool posted write awaiting its receipt. -/
structure Unreceipted where
  /-- The write's postmark at its first ingress. -/
  pm : Postmark
  /-- Its source port. -/
  port : Nat
  /-- Its traffic class. -/
  tc : Nat
  /-- Postcode of the write's home device. -/
  home : Nat
  /-- It carries Relaxed Ordering. -/
  relaxed : Bool
  /-- The Courier port over which it left, if it did. -/
  via : Option Nat
  /-- Its Requester ID. -/
  reqId : Nat
  /-- The write itself, for its record (R320). -/
  msg : Msg
  deriving DecidableEq, Repr

/-- R264: an ingress credit that a pacer holds. -/
structure PacedCredit where
  /-- The ingress port. -/
  port : Nat
  /-- The mail class. -/
  mc : Nat
  /-- The channel whose credits return in order. -/
  channel : Nat
  /-- The FLD that is charged, if any. -/
  fld : Option Nat
  deriving DecidableEq, Repr

/-- R131: the DevLoad window counts of one FLD. -/
structure DevLoad where
  /-- Refused ticks of the window. -/
  refused : Nat := 0
  /-- Messages of the FLD that went to the Mailbag in the window. -/
  spill : Nat := 0
  /-- Bytes of the FLD in the window. -/
  bytes : Nat := 0
  deriving DecidableEq, Repr

/-- A software flush or a fence flush (R102-R105). -/
structure Flush where
  /-- 0 queue, 1 pair, 2 whole port. -/
  scope : Nat
  /-- The port. -/
  port : Nat
  /-- The mail class. -/
  mc : Nat
  /-- The service class. -/
  sc : Nat
  /-- 0 discards, 1 completes with error (R104). -/
  mode : Nat
  /-- The flush postmark. -/
  pm : Postmark
  /-- Dead-letter cause of its entries. -/
  cause : Nat
  /-- The software flush reports in SOF_FLUSH_STATUS and SOF_FLUSH_RESULT. -/
  software : Bool
  /-- Queues on which it has not acted yet. -/
  todo : List Nat
  deriving DecidableEq, Repr

/-- A snoop as its receiver's port saw it pass, for routing the BIRsp back (R222). -/
structure SnoopSeen where
  /-- The port it passed. -/
  port : Nat
  /-- Its tag. -/
  tag : Nat
  /-- Postcode of its home. -/
  home : Nat
  deriving DecidableEq, Repr

/-- A request that passed to port `port`, for the destination of its answer (R63). -/
structure Passed where
  /-- The port it passed to. -/
  port : Nat
  /-- Its Requester ID. -/
  reqId : Nat
  /-- Its tag. -/
  tag : Nat
  /-- Its source postcode. -/
  src : Nat
  /-- A CXL.cache request: its CacheID stands in place of a Requester ID. -/
  cache : Bool := false
  deriving DecidableEq, Repr

/-- Chapter 04, 05, 11: the sorting office. -/
structure Sof where
  /-- The next message key: the model's own number for a message. -/
  nextKey : Nat := 1
  /-- Letters in flight. -/
  letters : List Letter := []
  /-- Messages on their way. -/
  transit : List Transit := []
  /-- Last plane used, by attachment (R82), counted from 1; 0 for none. -/
  rot : Table Nat := []
  /-- Last TAG given, by attachment. -/
  tags : Table Nat := []
  /-- Consecutive failed handovers, by plane (R84). -/
  fails : Table Nat := []
  /-- Latest broadcast mark of each source at every point, and at one point (key 256 × point + source) (R85). -/
  marksAll : Table Nat := []
  marksAt : Table Nat := []
  /-- Egress queues by number q (R86). -/
  queues : Table Queue := []
  /-- Messages held in the stores. -/
  stored : List Stored := []
  /-- Notional servers: key 8 × port + class (R256). -/
  notional : Table Notional := []
  /-- Shapers by queue (R258). -/
  shapers : Table Bucket := []
  /-- Start tick of each port's active gate list, and of an accepted pending one plus 1 (R263). -/
  gateStart : Table Nat := []
  gateNext : Table Nat := []
  /-- LEN of an accepted pending list. -/
  gateLen : Table Nat := []
  /-- Egress ports by number. -/
  eg : Table PortEg := []
  /-- Requester records by port (R309). -/
  recs : Table (List ReqRec) := []
  /-- Posted writes to pool memory that await receipts (R123). -/
  unreceipted : List Unreceipted := []
  /-- MC7 policing by port: tokens below BURST, in thousandths of a letter (R128). -/
  police : Table Int := []
  /-- Credits that pacers hold (R264). -/
  paced : List PacedCredit := []
  /-- R264: pacer buckets: ports at p, FLDs at 128 + f. -/
  pacer : Table Bucket := []
  /-- Credits returned so far at a port (R129, R130): key 16 × port + channel; on a Courier port in letters, key 16 × port + class. -/
  credits : Table Nat := []
  /-- DevLoad counts by FLD (R131). -/
  devload : Table DevLoad := []
  /-- Flushes that have not ended (R102). -/
  flushes : List Flush := []
  /-- Snoops on their way to hosts (R222). -/
  snoopSeen : List SnoopSeen := []
  /-- Requests on their way through ports (R63). -/
  passed : List Passed := []
  /-- Messages begun at each port, oldest first: the port, and the message as it leaves. -/
  wire : List (Nat × Msg) := []
  /-- Nullified items at ports (R103). -/
  nullified : List (Nat × Msg) := []
  deriving DecidableEq, Repr

/-- Carbon state of a host for a line. -/
inductive CSt where
  | i | s | a
  deriving DecidableEq, Repr

/-- R141: a Carbon slot. A free slot is I with PEND clear. -/
structure CEntry where
  /-- TAG. -/
  tag : Nat := 0
  /-- A wide head (R142). -/
  wide : Bool := false
  /-- PEND. -/
  pend : Bool := false
  /-- State. -/
  st : CSt := .i
  /-- Host index of a narrow entry. -/
  host : Nat := 0
  /-- Vector number of a wide head. -/
  vec : Nat := 0
  /-- AGE. -/
  age : Nat := 7
  /-- A capacity back-invalidation is issued for the entry: it no longer counts against its host (R145). -/
  leaving : Bool := false
  deriving DecidableEq, Repr

/-- A victim in the eviction buffer (R146): its set, entry, and the sharers of a wide victim. -/
structure Victim where
  /-- The line. -/
  line : Nat
  /-- The entry. -/
  e : CEntry
  /-- The sharers. -/
  hosts : List Nat
  deriving DecidableEq, Repr

/-- An outstanding or held snoop (R139). -/
structure Snoop where
  /-- Number within the slice. -/
  id : Nat
  /-- The line. -/
  line : Nat
  /-- The host index. -/
  host : Nat
  /-- 0 BISnpCur, 1 BISnpData, 2 BISnpInv. -/
  kind : Nat
  /-- Item that issued it; 0 for a capacity snoop. -/
  item : Nat
  /-- Its postmark. -/
  pm : Postmark
  /-- Against the eviction buffer (R146). -/
  evb : Bool
  /-- For a capacity snoop or census. -/
  capacity : Bool
  /-- It has been sent. -/
  issued : Bool
  deriving DecidableEq, Repr

/-- What a member access is for. -/
inductive Purpose where
  | read (item : Nat)
  | spec (item : Nat)
  | write (item : Nat)
  | victim (fset way : Nat)
  | clean (fset way : Nat) (swept : Bool)
  | copy (group k : Nat) (tick : Nat)
  | poisonWrite
  deriving DecidableEq, Repr

/-- An outstanding member access, with the data of a write (R173). -/
structure Access where
  /-- Number within the slice. -/
  id : Nat
  /-- The line. -/
  line : Nat
  /-- The member port. -/
  port : Nat
  /-- What it is for. -/
  why : Purpose
  /-- Data of a write. -/
  data : Line
  /-- Its byte mask. -/
  mask : Nat
  /-- Its poison. -/
  poison : Bool
  /-- Its postmark. -/
  pm : Postmark
  /-- Fabric Time of issue (R280). -/
  since : Nat
  deriving DecidableEq, Repr

/-- R170: the state of a Fabric Cache way. -/
inductive WSt where
  | invalid | clean | dirty | mirror
  deriving DecidableEq, Repr

/-- R170: a Fabric Cache way: its way word and data. -/
structure Way where
  /-- State. -/
  st : WSt := .invalid
  /-- TAG. -/
  tag : Nat := 0
  /-- AGE. -/
  age : Nat := 15
  /-- POISON. -/
  poison : Bool := false
  /-- OWNED. -/
  owned : Bool := false
  /-- HOLLOW. -/
  hollow : Bool := false
  /-- PWAY of a mirror way: the way in the partner set whose line it copies. -/
  pway : Nat := 0
  /-- The line's data. -/
  data : Line := 0
  /-- Number of the cleaning write of the way that is outstanding, 0 for none (R180). -/
  cleaning : Nat := 0
  /-- The way has been written since that write was issued (R179). -/
  rewritten : Bool := false
  deriving DecidableEq, Repr

/-- What kind of work an item is. -/
inductive Work where
  /-- MemRd, MemRdData and MemInv rows of R148: `want` is S or A for a caching request, `data` says whether data is sent. -/
  | caching (want : MetaVal) (data : Bool)
  /-- Non-caching read (R155). -/
  | ncRead
  /-- Non-caching write (R154): byte mask; a write without data has mask 0. -/
  | ncWrite
  | writeback (mv : MetaVal)
  | specRd
  | clnEvct
  | conflict
  | atomic
  | mirror
  deriving DecidableEq, Repr

/-- An item of a home slice (R137-R140), with the progress of its execution. -/
structure Item where
  /-- Number within the slice. -/
  seq : Nat
  /-- The message. -/
  msg : Msg
  /-- What it does. -/
  work : Work
  /-- The line's pool address. -/
  line : Nat
  /-- Data to write, with its byte mask and poison. -/
  data : Line
  /-- Byte mask of the data. -/
  mask : Nat
  /-- Poison of the data. -/
  poison : Bool
  /-- 0: open. Otherwise its place in confirmation order. -/
  conf : Nat := 0
  /-- It holds the reserved intake entry, or the reserved write record, of its source and class (R46, R137). -/
  reservedEntry : Bool := false
  reservedRec : Bool := false
  /-- Speculation started, still valid, its member read (0 for none), and the way a speculative fill took (R49-R51, R176). -/
  specOn : Bool := false
  specOk : Bool := false
  specId : Nat := 0
  specWay : Option Nat := none
  /-- Data, poison and TICK of the speculative read, where it came before the item began and was valid still (R50, R51). -/
  specVal : Option (Line × Bool × Nat) := none
  /-- Fabric Time of its confirmation (R40). -/
  confAt : Nat := 0
  /-- Execution has begun: every earlier item of its line has passed. -/
  started : Bool := false
  /-- An owner has been snooped: the value waits for its writeback or its BIRsp (R148). -/
  ownerWait : Bool := false
  /-- An owner's writeback: data, byte mask, poison (R152). -/
  wb : Option (Line × Nat × Bool) := none
  /-- The line's value, with poison. -/
  val : Option (Line × Bool) := none
  /-- Member read outstanding for it; 0 for none. -/
  reading : Nat := 0
  /-- The data has been sent. -/
  dataSent : Bool := false
  /-- The completion has been sent. -/
  ndrSent : Bool := false
  /-- The write is in its way, or issued to the member (R173). -/
  committed : Bool := false
  /-- Member writes outstanding. -/
  writing : Nat := 0
  /-- Waits for a free Carbon slot or eviction-buffer room (R144, R146). -/
  stuck : Bool := false
  /-- It has been counted in WIDE_FULL and waits for an entry of its own line (R144). -/
  wideWait : Bool := false
  /-- It waits for every snoop of its line, whoever issued it (R149, R154). -/
  waitAll : Bool := false
  /-- R174 yielded no way for it as it obtained its line (R192). -/
  around : Bool := false
  /-- What it wrote to its member, with byte mask and poison: what its copies carry (R187). -/
  out : Line × Nat × Bool := (0, 0, false)
  /-- Copies still to send: at the commit, as trackers free (R186, R187). -/
  copiesDue : List Nat := []
  /-- Latest TICK of the snoop answers, and of the data inputs, that it waited for (R38). -/
  tick : Nat
  dtick : Nat
  /-- Old value of an atomic (R189). -/
  old : Nat := 0
  /-- Everything is issued and answered. -/
  done : Bool := false
  deriving DecidableEq, Repr

/-- An input waiting to be applied (R140). -/
structure Input where
  /-- The message. -/
  msg : Msg
  deriving DecidableEq, Repr

/-- R173: the message of a write record that waits behind an earlier write of its line to the same member; `due` is the tick
of a scheduled one (R39), and `since` its trigger's confirmation (R40). -/
structure HeldWrite where
  /-- Its access's number. -/
  id : Nat
  /-- The message. -/
  msg : Msg
  /-- Where it goes. -/
  tgt : Target
  due : Option Nat
  since : Nat
  deriving DecidableEq, Repr

/-- R137: one home slice. -/
structure Slice where
  /-- The next item's number. -/
  nextSeq : Nat := 1
  /-- The next place in confirmation order. -/
  nextConf : Nat := 1
  /-- The next snoop's or access's number. -/
  nextId : Nat := 1
  /-- Items and write records. -/
  items : List Item := []
  /-- Inputs that wait. -/
  inputs : List Input := []
  /-- Snoops outstanding or held. -/
  snoops : List Snoop := []
  /-- Member accesses outstanding. -/
  accesses : List Access := []
  /-- Writes merged into a record whose member write is still outstanding, oldest first (R173). -/
  heldWrites : List HeldWrite := []
  /-- Carbon sets by number (R141). -/
  carbon : Table (List CEntry) := []
  /-- Wide store: sharer vectors by number, and the numbers in use. -/
  wide : Table (BitVec 512) := []
  wideUsed : List Nat := []
  /-- Eviction buffer (R146). -/
  evb : List Victim := []
  /-- Fabric Cache sets by number (R170). -/
  cache : Table (List Way) := []
  /-- Next set of the sweep (R147). -/
  sweepPtr : Nat := 0
  /-- Next set of cleaning (R180). -/
  cleanPtr : Nat := 0
  /-- Next due tick of the sweep and of cleaning, plus 1 (R147, R180); 0 when none runs. -/
  sweepDue : Nat := 0
  cleanDue : Nat := 0
  /-- Fabric Time from which that item's 64 ticks count (R40). -/
  sweepFrom : Nat := 0
  cleanFrom : Nat := 0
  /-- The sweep items, the cleaning items and the census item issued and not yet confirmed (R39). -/
  sweepPm : List Postmark := []
  cleanPm : List Postmark := []
  censusPm : Option Postmark := none
  /-- Ways that were dirty at the postmark of the whole-device clean and are still to be written, by set (R181). -/
  toClean : List (Nat × List Nat) := []
  /-- Device-managed groups in use (R71). -/
  groups : List Nat := []
  /-- Host indices removed at this slice and their censuses still to visit (R163): index and next set. -/
  removed : List Nat := []
  deriving DecidableEq, Repr

/-- A removal of a host index waiting for its postmark (R163, R164). -/
structure Removal where
  /-- Host index. -/
  host : Nat
  /-- Its postmark. -/
  pm : Postmark
  /-- The quadrant. -/
  quad : Nat
  /-- Slices at which it has taken effect. -/
  applied : List Nat
  /-- TICKET of HQ_REMOVE, 0 for none. -/
  ticket : Nat
  deriving DecidableEq, Repr

/-- R187: a copy of a mirrored write awaiting completion. -/
structure Copy where
  /-- The slice of the write. -/
  slice : Nat
  /-- The mirror group. -/
  group : Nat
  /-- The copy's number. -/
  k : Nat
  /-- TICK of the primary write. -/
  tick : Nat
  /-- The number that its answer carries. -/
  id : Nat
  /-- The Courier port over which it left, if it did. -/
  via : Option Nat
  deriving DecidableEq, Repr

/-- A CXL.io request split into line items (R112): what has come back. -/
structure Split where
  /-- The request's postmark. -/
  pm : Postmark
  /-- The request. -/
  msg : Msg
  /-- Line addresses not yet done, and data by line. -/
  todo : List Nat
  got : Table (Line × Bool)
  /-- Latest TICK of its parts. -/
  tick : Nat
  deriving DecidableEq, Repr

/-- R433, R437: a census of a Carbon set, or of every fourth set from one on. -/
structure Census where
  /-- The slice. -/
  slice : Nat
  /-- The set; for a pair of stacks the next set to begin. -/
  set : Nat
  /-- The next tag to visit. -/
  tag : Nat
  /-- Lines visited. -/
  lines : Nat
  /-- The TICK of its next item at the earliest (R39). -/
  tick : Nat
  /-- Fabric Time of the confirmation that triggered it (R40). -/
  since : Nat
  deriving DecidableEq, Repr

/-- Chapters 06, 07: home quadrants. -/
structure Home where
  /-- Slices by number. -/
  slices : Table Slice := []
  /-- Removals under way. -/
  removals : List Removal := []
  /-- Copies of mirrored writes outstanding. -/
  copies : List Copy := []
  /-- Split requests outstanding. -/
  splits : List Split := []
  /-- Groups whose copies failed (R187). -/
  degraded : List Nat := []
  /-- Lines still to clean for FCH_CLEAN (R181): postmark and outstanding completions. -/
  cleanPm : Option Postmark := none
  cleanTodo : List Nat := []
  /-- HOST_REMOVED notices not delivered (R312): home postcode, removed postcode. -/
  noticesDue : List (Nat × Nat) := []
  /-- Cleaning completions still to come. -/
  cleanLeft : Nat := 0
  /-- A cleaning write has failed. -/
  cleanFailed : Bool := false
  /-- SLOTs that a source has given in a TICK (R39): key 256 × TICK + source. -/
  slots : Table Nat := []
  /-- Sets censused because both copies failed (R433, R437). -/
  setCensus : List Census := []
  /-- Censuses of the sets of a lost pair of stacks still to begin (R437): every fourth set. -/
  pairCensus : List Census := []
  /-- Carbon sets with no storage (R437): pairs of stacks lost are in RAS_AVAIL. -/
  noStorage : List Nat := []
  /-- Member purges running (R314): port. -/
  purges : List Nat := []
  deriving DecidableEq, Repr

/-- R212: the fields of a result area. -/
structure ResultArea where
  /-- TICKET. -/
  ticket : Nat := 0
  /-- STATE. -/
  state : Nat := 0
  /-- REASON. -/
  reason : Nat := 0
  /-- PROGRESS. -/
  progress : Nat := 0
  /-- MATCHES. -/
  matched : Nat := 0
  /-- CHECKSUM. -/
  checksum : Nat := 0
  /-- ERR_ADDR. -/
  errAddr : Nat := 0
  /-- Old value, high half. -/
  oldHi : Nat := 0
  /-- START. -/
  start : Nat := 0
  /-- SLIPS. -/
  slips : Nat := 0
  deriving DecidableEq, Repr

/-- A parcel slot of an FLD: descriptor bytes, and the result area as each change left it, oldest first, with the change's
postmark (R195, R212, R214). -/
structure PSlot where
  /-- Descriptor bytes. -/
  desc : List Byte := List.replicate 128 0
  /-- The result area at each change, in postmark order (R214). -/
  log : List (Postmark × ResultArea) := []
  deriving DecidableEq, Repr

/-- The result area as it is, after its last change. -/
def PSlot.cur (s : PSlot) : ResultArea := ((s.log.getLast?).map (·.2)).getD {}

/-- A line operation in flight: engine tag, index within the parcel, and kind: 0 read, 1 write, 2 read-back, 3 atomic. -/
structure LineOp where
  /-- Engine tag. -/
  tag : Nat
  /-- Index within the parcel. -/
  idx : Nat
  /-- 0 read, 1 write, 2 read-back, 3 atomic. -/
  kind : Nat
  /-- The Courier port over which it left the device, if it did (R320). -/
  via : Option Nat := none
  deriving DecidableEq, Repr

/-- A write of R207: its index, for a SIEVE the input line that completes what is written; the TICK of its slot, and the Fabric Time at which its data came, plus 1 (R208). -/
structure DueWrite where
  /-- Index within the parcel. -/
  idx : Nat
  /-- TICK of its slot. -/
  tick : Nat
  /-- Fabric Time at which its data came, plus 1. -/
  since : Nat
  deriving DecidableEq, Repr

/-- An output line of a SIEVE: pool-side DPA, bytes and mask, the first element with output in it and the matches before that element, and
the input line that completes it (R201, R207, R213). -/
structure OutLine where
  /-- Pool-side DPA. -/
  addr : Nat
  /-- Bytes. -/
  data : Line
  /-- Byte mask. -/
  mask : Nat
  /-- The first element with output in it. -/
  first : Nat
  /-- Matches before that element. -/
  before : Nat
  /-- The input line that completes it. -/
  input : Nat
  deriving DecidableEq, Repr

/-- Chapter 08: an admitted parcel. -/
structure Parcel where
  /-- Unique number, in acceptance order. -/
  num : Nat
  /-- The FLD. -/
  fld : Nat
  /-- The parcel slot. -/
  slot : Nat
  /-- A sanitize on release of the Postmaster, over pool addresses, for extent-table entry `entry` (R230). -/
  postmaster : Bool := false
  /-- The extent-table entry of a sanitize. -/
  entry : Nat := 0
  /-- Descriptor bytes copied at SUBMIT (R197). -/
  desc : List Byte
  /-- TICK of the doorbell, and the Fabric Time of its confirmation. -/
  doorbellTick : Nat
  accAt : Nat := 0
  /-- World of the submitter (R238). -/
  world : Nat
  /-- The engine that runs it. -/
  engine : Nat
  /-- QUANTUM. -/
  quantum : Nat
  /-- LAG of reads and their writes (R207). -/
  lag : Nat
  /-- Slots that it needs. -/
  slots : Nat
  /-- R206: ready tick, next parcel slot, slots of the present turn. -/
  ready : Option Nat := none
  j : Nat := 0
  turn : Nat := 0
  /-- It has issued its first operation. -/
  begun : Bool := false
  /-- Operations outstanding. -/
  flying : List LineOp := []
  /-- Writes not yet issued. -/
  due : List DueWrite := []
  /-- Reads arrived by input line, with poison; writes settled and read-backs verified by line. -/
  reads : Table (Line × Bool) := []
  wrote : List Nat := []
  verified : List Nat := []
  /-- CHECK: lines folded into the CRC register. -/
  crcLines : Nat := 0
  /-- The CRC register. -/
  crc : Word := 0
  /-- SIEVE: elements evaluated, matches, index entries written, bytes of the open output line, output lines. -/
  elems : Nat := 0
  hits : Nat := 0
  listed : Nat := 0
  open_ : List Byte := []
  openAt : Nat := 0
  /-- The first element with output in the open line, and the matches before it. -/
  openFirst : Nat := 0
  openBefore : Nat := 0
  /-- Output lines of a SIEVE. -/
  outs : List OutLine := []
  /-- The element at which CAP stops a SIEVE. -/
  capElem : Option Nat := none
  /-- No further operation is issued; how the parcel ends. -/
  stopped : Bool := false
  endState : Nat := 3
  reason : Nat := 0
  errAddr : Nat := 0
  /-- The first poisoned input DPA of a COPY (R211). -/
  poison : Option Nat := none
  /-- The answers that have settled operations, in the order they came (R214). -/
  answers : List (Postmark × LineOp × Hdr) := []
  /-- Old value of an ATOMIC. -/
  old : Nat := 0
  deriving DecidableEq, Repr

/-- Chapter 08: the parcel engines. -/
structure Engines where
  /-- Parcel slots: key 16 × FLD + slot. -/
  slots : Table PSlot := []
  /-- Every admitted parcel not ended, in acceptance order, and parcels accepted so far. -/
  parcels : List Parcel := []
  accepted : Nat := 0
  /-- R206: rotation of each engine: parcel numbers. -/
  rotation : Table (List Nat) := []
  /-- R208: ticks by which an engine's slots have slipped. -/
  shift : Table Nat := []
  /-- R206: Fabric Time of an engine's last slot, plus 1; 0 for none. -/
  last : Table Nat := []
  /-- The next engine tag. -/
  nextTag : Nat := 0
  /-- Engines of lost quadrants (R434). -/
  lost : List Nat := []
  /-- R230: releases waiting to be sanitized: FLD, region, entry, cut-over TICK. -/
  toSanitize : List (Nat × Nat × Nat × Nat) := []
  /-- Messages at the dispatcher, by mail class, in postmark order (R197). -/
  intake : Table (List Msg) := []
  deriving DecidableEq, Repr

/-- R219, R220: one HDM decoder of an FLD, as CXL 3.1 lays it out. -/
structure Hdm where
  /-- Base HPA. -/
  base : Nat := 0
  /-- Size. -/
  size : Nat := 0
  /-- Interleave ways. -/
  iw : Nat := 0
  /-- Interleave granularity. -/
  ig : Nat := 0
  /-- DPA skip. -/
  skip : Nat := 0
  /-- COMMITTED. -/
  committed : Bool := false
  /-- Interleave position at which the FLD was last addressed through this decoder. -/
  pos : Nat := 0
  deriving DecidableEq, Repr

/-- A message of an internal source, scheduled (R40). -/
structure Sched where
  /-- SOURCE. -/
  source : Nat
  /-- Scheduled TICK. -/
  tick : Nat
  /-- Fabric Time at which it is due: when its TICK is reached, or at once where that is past. -/
  due : Nat
  /-- The message. -/
  msg : Msg
  /-- Where it goes. -/
  tgt : Target
  deriving DecidableEq, Repr

/-- The last postmark a port assigned, and per-port link bookkeeping (chapters 12 and 14). -/
structure PortSt where
  /-- The latest TICK that the port has assigned (R307). -/
  lastTick : Nat := 0
  /-- Rate (tenths of GT/s) and lanes last trained at (R255); 0 for none since the last configuration read. -/
  rate : Nat := 0
  lanes : Nat := 0
  /-- A viral indication is signalled on the port (R274). -/
  viral : Bool := false
  /-- The partner reports several logical devices (R74, R278). -/
  multiLd : Bool := false
  /-- A port reset waits for the fence (R319). -/
  resetHeld : Bool := false
  /-- PRSNT_N debounced since (Fabric Time), plus 1. -/
  presentSince : Nat := 0
  /-- The level of PERST_N at a host port, and of the debounced PRSNT_N at a member or Courier port. -/
  perstLow : Bool := true
  prsnt : Bool := false
  /-- First training after a configuration read is still to come (R278). -/
  fresh : Bool := true
  /-- The port's IDE streams are Secure (R453). -/
  ideOn : Bool := false
  /-- The partner last trained with (R270, R278). -/
  partner : Option Partner := none
  /-- R268: the device holds a member's PERST_N low, or a host holds it low at a host port. -/
  perstOut : Bool := true
  deriving DecidableEq, Repr

/-- Chapter 13: the state of one Courier port. -/
structure Courier where
  /-- Next sequence to send, first not yet acknowledged, next expected, and the retry buffer: the sequence of a message's last
  flit, and the message (R288). -/
  txSeq : Nat := 0
  ackNext : Nat := 0
  rxSeq : Nat := 0
  retry : List (Nat × List Msg) := []
  /-- A NAK has been sent since the last good flit (R289). -/
  nakSent : Bool := false
  /-- Fabric Time at which the replay that a NAK asked for began to arrive, plus 1 (R289). -/
  replayAt : Nat := 0
  /-- Sequence of the last flit that failed or was discarded after a failure, plus 1: what comes up to it is a replay (R289, R298). -/
  lostTo : Nat := 0
  /-- Replays started from one position with no progress (R290). -/
  replays : Nat := 0
  replayFrom : Nat := 0
  /-- Credits in hand, by class, and the last cumulative count received (R295). -/
  creds : List Nat := [0, 0, 0, 0, 0, 0, 0, 0]
  cumIn : List Nat := [0, 0, 0, 0, 0, 0, 0, 0]
  /-- The SESSION flit that awaits its answer (R303). -/
  outstanding : Option SessionFlit := none
  /-- Fabric Time at which it was last sent. -/
  lastSent : Nat := 0
  /-- Fabric Time of the loss of DL_Active in a hold interval, plus 1, and its extension (R304, R391). -/
  holdFrom : Nat := 0
  holdExt : Nat := 0
  /-- The held session may be resumed (R301); the last session ID on the port (R302). -/
  resumable : Bool := true
  prevId : Nat := 0
  /-- Admission steps 3 and 4 have passed since the last training; Fabric Time of the last failed admission. -/
  authed : Bool := false
  admitAt : Nat := 0
  /-- IDE groups under the present keys, and flits of an open group awaiting their tag: tick, messages, VOIDs (R301). -/
  groups : Nat := 0
  open_ : List (Nat × List Hdr × List (Word × Nat × Nat)) := []
  /-- Exchange: number, t1 and t4 in sixteenths, consecutive good offsets (R298, R300), Fabric Time of the last. -/
  exN : Nat := 0
  exT1 : Nat := 0
  exT4 : Nat := 0
  /-- An exchange awaits its answer. -/
  exOpen : Bool := false
  /-- Fabric Time of the last exchange. -/
  exAt : Nat := 0
  /-- Consecutive good offsets (R300). -/
  good : Nat := 0
  /-- The first exchange has loaded Fabric Time (R29). -/
  loaded : Bool := false
  /-- The peer as its last SESSION flit or its admission showed it. -/
  peer : SessionFlit := {}
  /-- SESSION flits, NAKs (their ACK) and TSLOTs sent, oldest first. -/
  sent : List SessionFlit := []
  nakOut : List Nat := []
  tslotOut : List Nat := []
  deriving DecidableEq, Repr

/-- R321, R374, R441: the three rings, word by word (key 8 × slot + w, or 4 × slot + w for events), and their counts. -/
structure Logs where
  /-- RAS log ring. -/
  ras : Table Word := []
  /-- Dead-letter log ring. -/
  dl : Table Word := []
  /-- Event queue ring. -/
  evq : Table Word := []
  /-- Entries made since cold reset, modulo 2^32, skipping 0 (R441); the same for event records (R372). -/
  rasSeq : Nat := 0
  evSeq : Nat := 0
  /-- Event records dropped since the last overflow record (R374). -/
  dropped : Nat := 0
  /-- Ports whose vector 1 is disarmed (R376). -/
  disarmed : List Nat := []
  /-- MSI-X messages raised: port and vector. -/
  msi : List (Nat × Nat) := []
  deriving DecidableEq, Repr

/-- R406: a message whose recorded-delivery record is still open: its fields and the ticks of the stages reached; there is always
room for it (DESIGN CHOICE: log entry 189). -/
structure RdOpen where
  /-- Its postmark. -/
  pm : Postmark
  /-- OPCODE. -/
  opcode : Nat
  /-- Address. -/
  addr : Nat
  /-- Mail class. -/
  mc : Nat
  /-- Service class. -/
  sc : Nat
  /-- Source postcode. -/
  src : Nat
  /-- Destination postcode. -/
  dst : Nat
  /-- World, and the ports that the filters test (R396): the ingress and, once chosen, the egress. -/
  world : Nat
  ports : List Nat
  /-- (stage, tick), stages 0 to 6 in the order reached. -/
  stages : List (Nat × Nat)
  deriving DecidableEq, Repr

/-- Chapter 18. -/
structure Pmu where
  /-- L_s by source; 0 where the source has not been seeded since reset (R403). -/
  lfsr : Table Nat := []
  /-- Postmarks of tagged messages under way (R404). -/
  tagged : List Postmark := []
  /-- Tracking ring: key 2 × slot + w. Recorded-delivery log: key 4 × slot + w. -/
  trk : Table Word := []
  /-- Recorded-delivery log. -/
  rd : Table Word := []
  /-- Records still open (R406). -/
  rdOpen : List RdOpen := []
  /-- A drop has happened since the ring, or the log, was last not full (R405, R407). -/
  trkFull : Bool := false
  rdFull : Bool := false
  /-- Bytes of the windows that have not become readable: key 256 × window + 2 × port, and one more for bytes out (R401). Window w
  begins at w window lengths of Fabric Time. -/
  bw : Table Nat := []
  /-- Fabric Time at which the next window to become readable ends; 0 before the first. -/
  bwNext : Nat := 0
  /-- Ports whose vector 2 is disarmed (R400). -/
  disarmed : List Nat := []
  deriving DecidableEq, Repr

/-- R273: a CXL.io request that the Postmaster has issued at a port, with its tag and Fabric Time of issue. -/
structure PmReq where
  /-- The port. -/
  port : Nat
  /-- The tag. -/
  tag : Nat
  /-- Fabric Time of issue. -/
  since : Nat
  /-- The interface whose command awaits the completion (R355). -/
  who : Option Iface := none
  deriving DecidableEq, Repr

/-- R339: an amendment item. -/
structure AmdItem where
  /-- Value. -/
  value : Word
  /-- Mask. -/
  mask : Word
  /-- Address. -/
  addr : Nat
  deriving DecidableEq, Repr

/-- What a set does at its cut-over beside its items (R228, R231): bind or unbind an FLD, bind a vPPB of a host port to a
member port (0 unbinds), and the extent-table transitions of FLD `f`, entry `e`. -/
inductive CutAct where
  | bind (f : Nat)
  | unbind (f : Nat)
  | bindPort (p vppb q : Nat)
  | offer (f e : Nat)
  | accept (f e : Nat)
  | reject (f e : Nat)
  | recall (f e : Nat)
  | released (f r e : Nat)
  deriving DecidableEq, Repr

/-- R344: a sealed set waiting for its cut-over. -/
structure SealedSet where
  /-- Cut-over. -/
  cut : Nat
  /-- Items. -/
  items : List AmdItem
  /-- The software set; otherwise one of the Postmaster's. -/
  software : Bool
  /-- What it does beside its items. -/
  acts : List CutAct
  deriving DecidableEq, Repr

/-- R77, R346: a set that has been cut over, for the messages postmarked before it: what its registers held. -/
structure PastSet where
  /-- Cut-over. -/
  cut : Nat
  /-- Addresses with what they held before. -/
  old : List (Nat × Word)
  /-- vPPBs, as 64 times the port plus the vPPB, with what they were bound to. -/
  ports : List (Nat × Nat) := []
  deriving DecidableEq, Repr

/-- R251: a word of a guard rule written outside an amendment that an access may still see in its old form. -/
structure RuleWrite where
  /-- Management address of the word. -/
  addr : Nat
  /-- What it held before the write. -/
  old : Word
  /-- The barrier that runs covers the write. -/
  covered : Bool
  deriving DecidableEq, Repr

/-- Chapter 15: the stage, the sealed sets in the order they were sealed, and a persist in progress. -/
structure Amd where
  /-- Words of guard rules written outside amendments since the last completed barrier, oldest first (R251). -/
  rules : List RuleWrite := []
  /-- Items staged. -/
  stage : List AmdItem := []
  /-- Items were dropped beyond the limit (R341). -/
  overrun : Bool := false
  /-- The check that runs is a DISPATCH's, with this requested cut-over. -/
  dispatch : Bool := false
  /-- The requested cut-over. -/
  cut : Nat := 0
  /-- Sealed sets. -/
  sets : List SealedSet := []
  /-- Sets cut over within the stale limit, oldest first. -/
  past : List PastSet := []
  /-- Registers that a lookup at an earlier postmark shows as they were: address, word shown, and the word put aside. Empty between
  commands. -/
  shown : List (Nat × Word × Word) := []
  /-- A PERSIST runs: the slot and the image it writes (R350). -/
  persist : Option (Nat × List Byte) := none
  deriving DecidableEq, Repr

/-- A CXL dynamic-capacity event record that a host has been given (R228): FLD, add (0) or release (1), and entry. -/
structure DcEvent where
  /-- The FLD. -/
  fld : Nat
  /-- 0 add, 1 release. -/
  kind : Nat
  /-- The extent-table entry. -/
  entry : Nat
  deriving DecidableEq, Repr

/-- Chapter 09: what binding and dynamic capacity hold beside the registers. -/
structure Tenancy where
  /-- Dynamic-capacity events that hosts have not answered. -/
  events : List DcEvent := []
  /-- Entries released whose POOL has not been written since (R228). -/
  stale : List Nat := []
  deriving DecidableEq, Repr

/-- A response on a management interface: to whom, the mailbox return code, STATUS of a vendor or Brumin response, SEQ of a
Brumin request, the values that the spec gives for it in the order of its rule, and bytes where the rule lays them out. -/
structure Reply where
  /-- The interface. -/
  whom : Iface
  /-- Mailbox return code. -/
  ret : Ret := .success
  /-- STATUS. -/
  status : Nat := 0
  /-- SEQ. -/
  seq : Nat := 0
  /-- Values. -/
  vals : List Nat := []
  /-- Bytes. -/
  body : List Byte := []
  deriving DecidableEq, Repr

/-- R228, R355: a background operation of a CCI: its opcode, whether it has ended and how, and the FLD and entries that a
release still waits for. -/
structure BgOp where
  /-- Opcode. -/
  opcode : Nat
  /-- It has ended. -/
  done : Bool
  /-- How it ended. -/
  ret : Ret
  /-- The FLD. -/
  fld : Nat
  /-- Entries it still waits for. -/
  left : List Nat
  deriving DecidableEq, Repr

/-- R355: what a CCI holds: background operation, response message limit (as a power of two), event logs by number, event
interrupt policy. -/
structure Cci where
  /-- Background operation. -/
  bg : Option BgOp := none
  /-- Response message limit, as a power of two. -/
  limit : Nat := 13
  /-- Event logs: log number and record handle. -/
  events : List (Nat × Nat) := []
  /-- Event interrupt policy. -/
  policy : Word := 0
  deriving DecidableEq, Repr

/-- R364: the responses held for one Brumin source address, newest last. -/
structure BrumPeer where
  /-- Source address. -/
  mac : Nat
  /-- Responses held. -/
  held : List Reply
  deriving DecidableEq, Repr

/-- R366: an image load: its slot and LENGTH, the parts received, and those of the first 4 KiB, held. -/
structure ImgLoad where
  /-- Configuration slot. -/
  slot : Nat
  /-- LENGTH. -/
  len : Nat
  /-- Parts received. -/
  got : List Nat
  /-- Parts of the first 4 KiB. -/
  held : List (Nat × List Byte)
  deriving DecidableEq, Repr

/-- R385-R394: firmware transfer, activation and rollout. -/
structure Fw where
  /-- Slot of the running firmware; ROM recovery (R383). -/
  run : Nat := 0
  recovery : Bool := false
  /-- The transfer: target slot and LENGTH, parts received, held parts, blocks that failed. -/
  xfer : Option (Nat × Nat) := none
  got : List Nat := []
  held : List (Nat × List Byte) := []
  bad : List Nat := []
  /-- Activation: 0 none, 1 waiting for Courier links (R391), 2 standby booting, 4 on trial, 6 standby reloading, 7 rollout. -/
  act : Nat := 0
  /-- The slot that is activated. -/
  actSlot : Nat := 0
  /-- Fabric Time at which the present step began. -/
  actAt : Nat := 0
  /-- Fabric Time at which a handover ends, plus 1; and the mailbox commands deferred meanwhile (R358). -/
  handEnd : Nat := 0
  held_ : List Instr := []
  /-- R392: the trial has served a management access of its own; Courier ports with a session at the handover. -/
  served : Bool := false
  sessions : List Nat := []
  /-- COURIER_VER window that the running firmware accepts (R378). -/
  oldest : Nat := 0
  newest : Nat := 0
  /-- R436: pair that has faulted and self-tests, plus 1. -/
  faulted : Nat := 0
  /-- Microcode version of each station (R394): key station. -/
  ucode : Table Nat := []
  deriving DecidableEq, Repr

/-- R456: a debug token in force. -/
structure Token where
  /-- Source address of its holder. -/
  mac : Nat
  /-- PERMS. -/
  perms : Nat
  /-- Fabric Time at which it expires. -/
  ends : Nat
  deriving DecidableEq, Repr

/-- Chapter 21: SPDM connections and sessions, nonce and token, TSP lock. -/
structure Sec where
  /-- Sessions established, and those whose requester has authenticated itself. -/
  sessions : List Iface := []
  mutual_ : List Iface := []
  /-- Key exchanges that await their FINISH. -/
  opening : List Iface := []
  /-- Negotiated SPDM version by connection. -/
  versions : List (Iface × Nat) := []
  /-- The nonce of the last CHALLENGE with the tick at which it expires, and a nonce that has expired (R455). -/
  nonce : Option (List Byte × Nat) := none
  expired : Option (List Byte) := none
  /-- The debug token in force (R456). -/
  token : Option Token := none
  /-- An EXTEST instruction is selected (R458). -/
  extest : Bool := false
  deriving DecidableEq, Repr

/-- Chapter 19: the inlet guard, in the always-on domain, beside its registers. -/
structure Inl where
  /-- VIN is above 30 V and the always-on domain up; EN; `up` at the last fall of EN. -/
  on : Bool := false
  en : Bool := true
  enFell : Nat := 0
  /-- Latched off (R419); the lockout that holds (R410): 0 none, 1 UVLO, 2 OVLO, and `up` at which it began. -/
  latched : Bool := false
  lockout : Nat := 0
  lockAt : Nat := 0
  /-- The step of R409 that the main path stands in: 0 off, 1 pre-charge, 2 gate ramp, 3 gate fully on. -/
  gate : Nat := 0
  /-- `up` at which that step, or the wait for power-good, began; and `up` at which step 2 of R409 last began. -/
  since : Nat := 0
  step2 : Nat := 0
  /-- Resistor model: heat in 0.01 J divided by 8,000,000,000, and `up` at which it was so (R413). -/
  heat : Nat := 220 * 8000000000
  heatAt : Nat := 0
  /-- Fault timer in eighths of a tick, and `up` at which it was so (R415). -/
  timer : Nat := 0
  timerAt : Nat := 0
  /-- `up` at the last trip; consecutive good readings of the FET sensor (R417). -/
  tripAt : Nat := 0
  good : Nat := 100
  /-- R411: the main path has been down since the configuration was last read, or a lockout or trip has kept it down. -/
  lost : Bool := false
  /-- FAULT_N and THERM_TRIP_N pulled low (R419, R427). -/
  faultN : Bool := false
  thermN : Bool := false
  deriving DecidableEq, Repr

/-- What lies in fuses and the identity region, and outlives every reset. -/
structure Nvm where
  /-- Life cycle state (R457). -/
  lifecycle : Nat := 2
  /-- Serial number. -/
  serial : Nat := 0
  /-- Vendor, stepping and station address. -/
  vendor : Nat := 0
  step : Nat := 0
  mac : Nat := 0
  /-- MIN_SVN (R384). -/
  minSvn : Nat := 0
  /-- Owner key; empty for none (R449). -/
  ownerKey : List Byte := []
  /-- Owner certificate chain, slot 1 (R450). -/
  ownerChain : List Byte := []
  /-- The device identity key is present (R457). -/
  identity : Bool := true
  /-- Cold resets, modulo 65,536, and the next slot of the persistent log (R444). -/
  boot : Nat := 0
  plogNext : Nat := 0
  deriving DecidableEq, Repr

/-- Everything outside Fabric Time, MRAM, fuses and the command queue. -/
structure Mach where
  /-- Management registers by address; an unlisted one holds its reset value. -/
  regs : Table Word := []
  /-- Free values taken so far: each undefined value is `Config.freeValue` of this count. -/
  free : Nat := 0
  /-- Sorting office and egress ports. -/
  sof : Sof := {}
  /-- Home quadrants. -/
  home : Home := {}
  /-- Parcel engines. -/
  eng : Engines := {}
  /-- HDM decoders: key 8 × fld + decoder. -/
  hdm : Table Hdm := []
  /-- vPPBs bound to member ports (R220): key 64 × host port + vPPB, value member port + 1. -/
  vppb : Table Nat := []
  /-- Requests of the Postmaster with no completion yet (R273). -/
  pmReqs : List PmReq := []
  /-- Messages of internal sources, scheduled (R40). -/
  sched : List Sched := []
  /-- Ports by number. -/
  ports : Table PortSt := []
  /-- Courier ports by number. -/
  courier : Table Courier := []
  /-- Rings and interrupts. -/
  logs : Logs := {}
  /-- Counters' and windows' state. -/
  pmu : Pmu := {}
  /-- Amendments. -/
  amd : Amd := {}
  /-- Tenancy. -/
  ten : Tenancy := {}
  /-- Responses sent on the management interfaces, oldest first. -/
  replies : List Reply := []
  /-- CCIs by interface: mailbox of port p at p, MCTP over PCIe at 128 + p, MCTP over I3C at 256. -/
  cci : Table Cci := []
  /-- Brumin source addresses, the least recently heard first (R364). -/
  brumin : List BrumPeer := []
  /-- An image load that runs (R366). -/
  load : Option ImgLoad := none
  /-- Firmware. -/
  fw : Fw := {}
  /-- Security. -/
  sec : Sec := {}
  /-- Inlet guard. -/
  inl : Inl := {}
  /-- Warm resets asked for: LAST_RESET cause and Fabric Time at which each is due (R481, R468, R440). -/
  resets : List (Nat × Nat) := []
  /-- Facts of the last start-up (R60, R473), and the Fabric Time by which step 8 of R324 is reached, plus 1. -/
  boot : BootFacts := {}
  step8 : Nat := 0
  /-- R429: table entries whose SRAM word was lost and that the Postmaster has still to rewrite: what they held. -/
  sram : Table Word := []
  /-- What the 15 PLDM sensors showed at their last 10 ms update (R361); empty before the first. -/
  sensed : List Nat := []
  /-- Dynamic address of the I3C target, 0 before the controller has assigned one (R360). -/
  i3cAddr : Nat := 0
  /-- MCTP endpoint IDs and PLDM terminus IDs, by interface (R359), keyed as `cci`. -/
  eids : Table Nat := []
  tids : Table Nat := []
  deriving DecidableEq, Repr

/-- The machine's state. -/
structure State where
  /-- Fabric Time. -/
  time : TimeSt := {}
  /-- The 128 MiB MRAM as bytes by address (R327). -/
  mram : List Host.Cell := []
  /-- Fuses and the identity region. -/
  nvm : Nvm := {}
  /-- The machine. -/
  m : Mach := {}
  /-- Commands waiting, first in, first out. -/
  pending : List Instr := []
  deriving DecidableEq, Repr

/-- The machine right after the always-on domain comes up and a cold reset (R13, R14). -/
def State.reset : State := {}

end Sys2Proof.Machine
end

