-- ==== Sys2Proof/Machine/Tables.lean ====
section
/-!
DEFINITION. The operations on sparse tables (registers, MRAM, HBM sets, queues by number) and their canonical form:
keys strictly rising, and no entry equal to what an unlisted key reads as, so that equal contents are equal data.
-/

namespace Sys2Proof.Machine

/-- What key `i` reads as; `d` where nothing is listed. -/
def tget {α : Type} (d : α) : Table α → Nat → α
  | [], _ => d
  | (k, v) :: t, i => if k = i then v else tget d t i

/-- Put value `v` at key `i`, in key order. -/
def tput {α : Type} : Table α → Nat → α → Table α
  | [], i, v => [(i, v)]
  | (k, w) :: t, i, v =>
    if i < k then (i, v) :: (k, w) :: t else if i = k then (i, v) :: t else (k, w) :: tput t i v

/-- Drop key `i`. -/
def tdrop {α : Type} : Table α → Nat → Table α
  | [], _ => []
  | (k, w) :: t, i => if i = k then tdrop t i else (k, w) :: tdrop t i

/-- Write `v` at key `i`; writing the value an unlisted key reads as removes the entry. -/
def tset {α : Type} [DecidableEq α] (d : α) (t : Table α) (i : Nat) (v : α) : Table α :=
  if v = d then tdrop t i else tput t i v

/-- Apply `f` to what key `i` reads as. -/
def tmod {α : Type} [DecidableEq α] (d : α) (t : Table α) (i : Nat) (f : α → α) : Table α :=
  tset d t i (f (tget d t i))

/-- Every key of `t` is above `b`, keys rise strictly, and no entry equals `d`. -/
def twfFrom {α : Type} [DecidableEq α] (d : α) : Option Nat → Table α → Bool
  | _, [] => true
  | b, (k, v) :: t => (match b with | none => true | some m => decide (m < k)) && decide (v ≠ d) && twfFrom d (some k) t

/-- The canonical form. -/
def twf {α : Type} [DecidableEq α] (d : α) (t : Table α) : Bool := twfFrom d none t

/-- Write consecutive values from key `i`. -/
def tsetList {α : Type} [DecidableEq α] (d : α) : Table α → Nat → List α → Table α
  | t, _, [] => t
  | t, i, v :: vs => tsetList d (tset d t i v) (i + 1) vs

/-- Read `n` consecutive keys from `i`. -/
def tgetList {α : Type} (d : α) (t : Table α) : Nat → Nat → List α
  | _, 0 => []
  | i, n + 1 => tget d t i :: tgetList d t (i + 1) n

/-- Element `i` of a list replaced by `f` of it; the list unchanged when `i` is beyond it. -/
def lmod {α : Type} (f : α → α) : List α → Nat → List α
  | [], _ => []
  | x :: xs, 0 => f x :: xs
  | x :: xs, i + 1 => x :: lmod f xs i

/-- The list without its element `i`. -/
def ldrop {α : Type} : List α → Nat → List α
  | [], _ => []
  | _ :: xs, 0 => xs
  | x :: xs, i + 1 => x :: ldrop xs i

/-- The first element that `p` holds of, with its index counted from `i`. -/
def lfindIdx {α : Type} (p : α → Bool) : List α → Nat → Option (Nat × α)
  | [], _ => none
  | x :: xs, i => if p x then some (i, x) else lfindIdx p xs (i + 1)

/-- The element for which `better` prefers no other, the earlier one on a tie. -/
def lbest {α : Type} (better : α → α → Bool) : List α → Option α
  | [] => none
  | x :: xs => match lbest better xs with
    | none => some x
    | some y => if better y x then some y else some x

end Sys2Proof.Machine
end

