-- ==== Sys2Proof/Machine/Ops.lean ====
section
/-!
DEFINITION. The named operations over the register file, Fabric Time, postmarks, the logs, the event queue and the
watermark monitors that every family of commands shares.
-/

namespace Sys2Proof.Machine
open Sys2Proof

/-! ### Registers (R11-R13) -/

/-- Management address of a register with the given indices. -/
def regAddr (r : RegDef) (ix : List Nat) : Nat :=
  r.base + ((r.dims.zip ix).map (fun d => d.1.1 * d.2)).sum

/-- The register's current word; its reset value where nothing has changed it. -/
def rd (m : Mach) (r : RegDef) (ix : List Nat := []) : Word :=
  tget (BitVec.ofNat 64 r.rst) m.regs (regAddr r ix)

/-- The machine with a register's word replaced. -/
def wr (m : Mach) (r : RegDef) (ix : List Nat) (w : Word) : Mach :=
  { m with regs := tset (BitVec.ofNat 64 r.rst) m.regs (regAddr r ix) w }

/-- A field of a register. -/
def gf (m : Mach) (f : FieldRef) (ix : List Nat := []) : Nat := getBits (rd m f.reg ix) f.hi f.lo

/-- Is a one-bit field set? -/
def gfb (m : Mach) (f : FieldRef) (ix : List Nat := []) : Bool := gf m f ix == 1

/-- The machine with a field replaced. -/
def sf (m : Mach) (f : FieldRef) (ix : List Nat) (v : Nat) : Mach :=
  wr m f.reg ix (setBits (rd m f.reg ix) f.hi f.lo v)

/-- R12: one event of an ACK field: its 16-bit count, directly below the flag, rises modulo 65,536 and the flag is set. -/
def ackEvent (m : Mach) (flag : FieldRef) (ix : List Nat := []) : Mach :=
  let w := rd m flag.reg ix
  let c := getBits w (flag.hi - 1) (flag.hi - 16)
  wr m flag.reg ix (setBits (setBits w (flag.hi - 1) (flag.hi - 16) ((c + 1) % 65536)) flag.hi flag.hi 1)

/-- Add one to a field that saturates at its largest value. -/
def satInc (m : Mach) (f : FieldRef) (ix : List Nat := []) : Mach :=
  sf m f ix (min (gf m f ix + 1) (2 ^ (f.hi + 1 - f.lo) - 1))

/-- Add `k` to a field, modulo its size. -/
def wrapAdd (m : Mach) (f : FieldRef) (k : Nat) (ix : List Nat := []) : Mach :=
  sf m f ix ((gf m f ix + k) % 2 ^ (f.hi + 1 - f.lo))

/-- R445: a write that a rule discards. -/
def countDiscard (m : Mach) : Mach := wrapAdd m F.RAS_MGMT_ERR_DISCARD 1

/-- R445: a framing error under R10. -/
def countFraming (m : Mach) : Mach := wrapAdd m F.RAS_MGMT_ERR_FRAMING 1

/-- R445: an access under R8. -/
def countUnmapped (m : Mach) : Mach := wrapAdd m F.RAS_MGMT_ERR_UNMAPPED 1

/-- The next free value, and the machine that has taken it. -/
def takeFree (m : Mach) : Word × Mach := (Config.freeValue m.free, { m with free := m.free + 1 })

/-! ### Ticks and postmarks (R32-R38) -/

/-- TICK of a full Fabric Time (R32). -/
def tick48 (t : Nat) : Nat := t % 2 ^ 48

/-- R36: serial comparison of 48-bit ticks; ticks out of range are ordered neither way (R37 keeps them from arising). -/
def tickBefore (a b : Nat) : Bool :=
  let d := (b + 2 ^ 48 - a % 2 ^ 48) % 2 ^ 48
  decide (0 < d) && decide (d < 2 ^ 46)

/-- R36: postmark order. -/
def pmBefore (a b : Postmark) : Bool :=
  tickBefore a.tick b.tick ||
    (a.tick == b.tick && (decide (a.source < b.source) || (a.source == b.source && decide (a.slot < b.slot))))

/-- The later of two ticks (R38). -/
def laterTick (a b : Nat) : Nat := if tickBefore a b then b else a

/-- The earlier of two ticks. -/
def earlierTick (a b : Nat) : Nat := if tickBefore b a then b else a

/-- A tick some ticks on, in 48 bits. -/
def tickAdd (a n : Nat) : Nat := (a + n) % 2 ^ 48

/-- Full Fabric Time of a 48-bit tick near `now`. -/
def expandTick (now t : Nat) : Nat :=
  let d := (now + 2 ^ 48 - t) % 2 ^ 48
  if d < 2 ^ 47 then now - d else now + (2 ^ 48 - d)

/-- R32: the 8-byte field of a postmark. -/
def pmWord (p : Postmark) : Word := BitVec.ofNat 64 (p.tick % 2 ^ 48 * 4096 + p.source % 256 * 16 + p.slot % 16)

/-- No postmark: 0 in every record. -/
def pmNone : Postmark := ⟨0, 0, 0⟩

/-- R33: postmark of the n-th message that begins in a flit completing at tick `t` at port `p`. -/
def portPm (p t n : Nat) : Postmark := ⟨tickAdd t (n / 16), p, n % 16⟩

/-- R38: a derived postmark: SOURCE and SLOT of the item, TICK the latest of its inputs. -/
def derivedPm (pm : Postmark) (tick : Nat) : Postmark := { pm with tick := tick }

/-- R307: fence postmark at tick `t` for port `p`. -/
def fencePm (p t : Nat) : Postmark := ⟨t % 2 ^ 48, p, 15⟩

/-- R39: the first TICK from `tick` on in which a source has given fewer than 16 SLOTs. -/
def openTick (slots : Table Nat) (source : Nat) : Nat → Nat → Nat
  | 0, tick => tick
  | fuel + 1, tick => if tget 0 slots (256 * tick + source) < 16 then tick else openTick slots source fuel (tickAdd tick 1)

/-- R403: the state a source is seeded with. -/
def seedOf (m : Mach) (s : Nat) : Nat :=
  let v := gf m F.PMU_TRK_CFG_SEED ^^^ (s * 2 ^ 24)
  if v == 0 then 1 else v

/-- R403: one step of a source's state. -/
def lfsrStep (v : Nat) : Nat := if v % 2 == 1 then (v / 2) ^^^ 0x80200003 else v / 2

/-- R403: source `s` has assigned a postmark, and its Tracking state steps once. -/
def trkStep (m : Mach) (s : Nat) : Mach :=
  let old := tget 0 m.pmu.lfsr s
  { m with pmu := { m.pmu with lfsr := tset 0 m.pmu.lfsr s (lfsrStep (if old == 0 then seedOf m s else old)) } }

/-- R39: the next SLOT of an internal source in `tick`; a seventeenth message takes the next TICK. -/
def internalPm (m : Mach) (source tick : Nat) : Postmark × Mach :=
  -- TICKs that lie past the stale limit come no more (R37)
  let near (t : Nat) : Bool := decide ((t + 2 ^ 48 - tick) % 2 ^ 48 < 2 ^ 37) || decide ((tick + 2 ^ 48 - t) % 2 ^ 48 < 2 ^ 37)
  let slots := m.home.slots.filter (fun x => near (x.1 / 256))
  let t := openTick slots source (slots.length + 1) tick
  let k := 256 * t + source
  (⟨t, source, tget 0 slots k⟩, trkStep { m with home := { m.home with slots := tmod 0 slots k (· + 1) } } source)

/-! ### Slots of the parcel engines (R206, R208) -/

/-- The first slot of engine `e` at or after Fabric Time `t`: a multiple of 4 moved by its slips. -/
def slotFrom (g : Engines) (e t : Nat) : Nat := t + (tget 0 g.shift e + 4 - t % 4) % 4

/-- R206: the next slot of engine `e` that a parcel can use: the one after its last, or for an engine at rest the first at which a parcel becomes
ready. -/
def engineNext (g : Engines) (e : Nat) : Option Nat :=
  let after := tget 0 g.last e + 3
  if !(tget [] g.rotation e).isEmpty then some after
  else match (g.parcels.filter (fun p => p.engine == e && p.ready.isNone && !p.stopped)).map (fun p => p.doorbellTick + 256) with
    | [] => none
    | t :: ts => some (slotFrom g e (max after (ts.foldl min t)))

/-! ### The register at an address (R8, R11) -/

/-- The indices that an offset spells along a register's dimensions, largest stride first. -/
def solveDims : List (Nat × Nat × Nat) → Nat → Option (List Nat)
  | [], 0 => some []
  | [], _ + 1 => none
  | (stride, first, n) :: ds, off =>
    if off < stride * first then none
    else
      let o := off - stride * first
      let i := min (o / stride) (n - 1)
      (solveDims ds (o - i * stride)).map (fun is => (i + first) :: is)

/-- A dimension put in its place in falling order of stride. -/
def putDim (d : (Nat × Nat × Nat) × Nat) : List ((Nat × Nat × Nat) × Nat) → List ((Nat × Nat × Nat) × Nat)
  | [] => [d]
  | e :: es => if d.1.1 < e.1.1 then e :: putDim d es else d :: e :: es

/-- Dimensions in falling order of stride, with each index's place in the register's own order. -/
def sortDims (ds : List (Nat × Nat × Nat)) : List ((Nat × Nat × Nat) × Nat) :=
  (ds.zip (List.range ds.length)).foldr putDim []

/-- The indices at which register `r` stands at an address. -/
def regIndex (r : RegDef) (addr : Nat) : Option (List Nat) :=
  if addr < r.base then none
  else
    let ds := sortDims r.dims
    (solveDims (ds.map (·.1)) (addr - r.base)).map (fun is =>
      (List.range ds.length).map (fun k => (((ds.map (·.2)).zip is).find? (fun z => z.1 == k)).elim 0 (·.2)))

/-- The register that holds an 8-byte aligned address, with its indices. -/
def regFind (addr : Nat) : Option (RegDef × List Nat) := regMap.findSome? (fun r => (regIndex r addr).map (fun ix => (r, ix)))

/-! ### The configuration at a postmark (R77, R346) -/

/-- The sets cut over since that a message with postmark `pm` does not see. -/
def unseen (m : Mach) (pm : Postmark) : List PastSet := m.amd.past.filter (fun s => pmBefore pm ⟨tick48 s.cut, 144, 0⟩)

/-- What several sets replaced: of each address what the first of them replaced. -/
def firstOf {α : Type} (ls : List (List (Nat × α))) : List (Nat × α) :=
  ls.flatten.foldl (fun l x => if l.any (fun y => y.1 == x.1) then l else l ++ [x]) []

/-- The reset value of the register at an address. -/
def resetAt (a : Nat) : Word := match regFind a with | some (r, _) => BitVec.ofNat 64 r.rst | none => 0

/-- The present words again: what a lookup put aside comes back, with the bits that an effect has changed meanwhile. -/
def unshow (m : Mach) : Mach :=
  { m with
    regs := m.amd.shown.foldl (fun t x => tset (resetAt x.1) t x.1 (x.2.2 ^^^ (tget (resetAt x.1) t x.1 ^^^ x.2.1))) m.regs
    amd := { m.amd with shown := [] } }

/-- Show registers as they were, their present words put aside. -/
def showWords (m : Mach) (ws : List (Nat × Word)) : Mach :=
  { m with regs := ws.foldl (fun t x => tset (resetAt x.1) t x.1 x.2) m.regs
           amd := { m.amd with shown := ws.map (fun x => (x.1, x.2, tget (resetAt x.1) m.regs x.1)) } }

/-- The word at `a` as it stood after the first `t` of the writes `ws`, where a later one has changed it. -/
def wordAfter (ws : List RuleWrite) (t a : Nat) : Option Word := ((ws.drop t).find? (fun x => x.addr == a)).map (·.old)

/-- VALID of rule `i` as it stood after the first `t` of the writes `ws` to it. -/
def validAfter (m : Mach) (ws : List RuleWrite) (i t : Nat) : Bool :=
  let a := 0x7100000 + 32 * i
  ((wordAfter ws t a).getD (tget 0 m.regs a)).getLsbD 63

/-- R251: words of rule `i` that the access with postmark `pm` sees in an old form: the rule as it stood at one moment where VALID was
clear at every moment between, else any mix of the forms of its words. -/
def ruleForms (m : Mach) (pm : Postmark) (i : Nat) : List (Nat × Word) :=
  let ws := m.amd.rules.filter (fun x => (x.addr - 0x7100000) / 32 == i)
  let seen (k : Nat) : Nat := Config.ruleSeen (pmWord pm).toNat k % (ws.length + 1)
  let whole := (List.range (ws.length - 1)).all (fun t => !validAfter m ws i (t + 1))
  (ws.map (·.addr)).eraseDups.filterMap (fun a => (wordAfter ws (seen (if whole then i else a)) a).map (fun w => (a, w)))

/-- R251: the words of guard rules that the access with postmark `pm` sees in an old form. -/
def oldRules (m : Mach) (pm : Postmark) : List (Nat × Word) :=
  ((m.amd.rules.map (fun x => (x.addr - 0x7100000) / 32)).eraseDups.map (ruleForms m pm)).flatten

/-- R251: the word at `a`, `old` until now, is written outside an amendment. -/
def noteRule (m : Mach) (a : Nat) (old : Word) : Mach :=
  if 0x7100000 ≤ a && a < 0x7180000 && tget 0 m.regs a != old then
    { m with amd := { m.amd with rules := m.amd.rules ++ [⟨a, old, false⟩] } }
  else m

/-- R251: PENDING is written: a 1 starts a barrier that covers every word written so far, and a 0 ends the one that runs. -/
def setBarrier (m : Mach) (on : Bool) : Mach :=
  { sf m F.GRD_BARRIER_PENDING [] (b2n on) with amd := { m.amd with rules := m.amd.rules.map (fun x => { x with covered := on }) } }

/-- R77, R251, R346: the machine as a lookup for a message with postmark `pm` sees it. -/
def cfgAt (m : Mach) (pm : Postmark) : Mach :=
  if m.amd.past.isEmpty && m.amd.rules.isEmpty then m
  else
    let m := unshow m
    let m := showWords m (firstOf (oldRules m pm :: (unseen m pm).map (·.old)))
    { m with vppb := (firstOf ((unseen m pm).map (·.ports))).foldl (fun t x => tset 0 t x.1 x.2) m.vppb }

/-- R77, R346: an effect whose lookups use the configuration at `pm`; its own changes stay. -/
def withCfg (pm : Postmark) (f : Mach → Mach) (m : Mach) : Mach :=
  if m.amd.past.isEmpty && m.amd.rules.isEmpty then f m
  else
    let outer := m.amd.shown.map (fun x => (x.1, x.2.1))
    { showWords (unshow (f (cfgAt m pm))) outer with vppb := m.vppb }

/-! ### Events, MSI-X and the event queue (R372-R376) -/

/-- Records held in the event queue. -/
def evqHeld (m : Mach) : Nat := (gf m F.RAS_EVQ_PTR_TAIL + 8192 - gf m F.RAS_EVQ_PTR_HEAD) % 8192

/-- Write the four words of a record at TAIL (R374). -/
def evqPut (m : Mach) (now : Nat) (type sev inst : Nat) (pm : Word) (detail : Nat) : Mach :=
  let t := gf m F.RAS_EVQ_PTR_TAIL
  let seq := if (m.logs.evSeq + 1) % 2 ^ 32 == 0 then 1 else (m.logs.evSeq + 1) % 2 ^ 32
  let ws := [BitVec.ofNat 64 (type + sev * 2 ^ 8 + inst % 2 ^ 16 * 2 ^ 16 + seq * 2 ^ 32), pm,
    BitVec.ofNat 64 detail, BitVec.ofNat 64 now]
  let m := { m with logs := { m.logs with evq := tsetList 0 m.logs.evq (4 * (t % 4096)) ws, evSeq := seq } }
  ackEvent (sf m F.RAS_EVQ_PTR_TAIL [] ((t + 1) % 8192)) F.RAS_EVQ_STATUS_NEW

/-- R376: vector 1 of every armed management port fires and is disarmed. -/
def evqSignal (m : Mach) : Mach :=
  let ps := (List.range 128).filter (fun p => gfb m F.MBX_PORT_CFG_MGMT_EN [p] && !m.logs.disarmed.contains p)
  { m with logs := { m.logs with disarmed := m.logs.disarmed ++ ps, msi := m.logs.msi ++ ps.map (fun p => (p, 1)) } }

/-- R372-R375: write an event record: dropped when the type is disabled or the queue is full, preceded by an overflow
record when records were dropped. -/
def event (m : Mach) (now : Nat) (type sev inst : Nat) (pm : Postmark := pmNone) (detail : Nat := 0) : Mach :=
  if type != 1 && !bitAt (gf m F.RAS_EVQ_CFG_MASK) (type / 16) then m
  else
    let held := evqHeld m
    if held ≥ 4095 || (m.logs.dropped > 0 && held > 4094) then
      satInc { m with logs := { m.logs with dropped := m.logs.dropped + 1 } } F.RAS_EVQ_STATUS_LOST
    else
      let m := if m.logs.dropped > 0 then
          let m := evqPut m now 1 1 0 0 m.logs.dropped
          { m with logs := { m.logs with dropped := 0 } }
        else m
      evqSignal (evqPut m now type sev inst (pmWord pm) detail)

/-! ### The RAS log and the dead-letter log (R321, R322, R441-R443) -/

/-- R443, R442: make a RAS log entry; a full ring drops or overwrites (R321). Entries of SEVERITY 3 are made by
`rasLogFatal` of the State, which also writes MRAM. -/
def rasLog (m : Mach) (now : Nat) (kind sev inst : Nat) (pm : Postmark := pmNone) (addr : Nat := 0)
    (world : Nat := 0) (sg : Nat := 0) (src : Nat := 0) (d0 : Nat := 0) (d1 : Nat := 0) : Mach :=
  let seq := if (m.logs.rasSeq + 1) % 2 ^ 32 == 0 then 1 else (m.logs.rasSeq + 1) % 2 ^ 32
  let head := gf m F.RAS_LOG_PTR_HEAD
  let tail := gf m F.RAS_LOG_PTR_TAIL
  let full := (tail + 8192 - head) % 8192 ≥ 4096
  let m := { m with logs := { m.logs with rasSeq := seq } }
  let ws := [pmWord pm, BitVec.ofNat 64 (seq + kind * 2 ^ 32 + sev * 2 ^ 40 + inst % 2 ^ 16 * 2 ^ 48),
    BitVec.ofNat 64 (addr % 2 ^ 52), BitVec.ofNat 64 (src % 2 ^ 18 + sg % 256 * 2 ^ 18 + world % 4 * 2 ^ 26),
    BitVec.ofNat 64 d0, BitVec.ofNat 64 d1, BitVec.ofNat 64 now, 0]
  let put (m : Mach) : Mach := ackEvent
    (sf { m with logs := { m.logs with ras := tsetList 0 m.logs.ras (8 * (tail % 4096)) ws } }
      F.RAS_LOG_PTR_TAIL [] ((tail + 1) % 8192)) F.RAS_LOG_STATUS_NEW
  let m := if !full then put m
    else if gfb m F.RAS_LOG_CFG_OVERWRITE then
      put (satInc (sf m F.RAS_LOG_PTR_HEAD [] ((head + 1) % 8192)) F.RAS_LOG_STATUS_DROPPED)
    else satInc m F.RAS_LOG_STATUS_DROPPED
  if sev ≥ gf m F.RAS_LOG_CFG_EVT_SEV then event m now 0x20 sev kind pm seq else m

/-- R442: the entry of KIND 0x17 for a port error; the spec lists no error codes, so DETAIL [15:0] is a free value. -/
def portError (now : Nat) (m : Mach) (p : Nat) (pm : Postmark) (src : Nat) : Mach :=
  let (v, m) := takeFree m
  rasLog m now 0x17 1 p pm 0 0 0 src (v.toNat % 2 ^ 16)

/-- R293: the Courier opcode of a message's kind. -/
def opcodeOf : MsgKind → Nat
  | .memRd | .memRdData | .memInv | .memInvNT | .memSpecRd | .memClnEvct | .biConflict => 0x10
  | .memWr | .memWrPtl => 0x11
  | .biRspI | .biRspS | .biRspE | .biRspBlk => 0x12
  | .cmp | .cmpS | .cmpE | .biConflictAck | .mirrorCmp => 0x18
  | .memData => 0x19
  | .biSnpCur | .biSnpData | .biSnpInv | .biSnpBlk => 0x1A
  | .d2hReq => 0x20 | .d2hRsp => 0x21 | .d2hData => 0x22
  | .h2dReq => 0x28 | .h2dRsp => 0x29 | .h2dData => 0x2A
  | .mwr | .msg | .msgD | .mrd | .mrdLk | .iord | .iowr | .cfgRd | .cfgWr | .fetchAdd | .swap | .cas
  | .cpl | .cplD => 0x30
  | .lineRd => 0x40 | .lineWr => 0x41 | .lineAtomic => 0x42 | .lineData => 0x43 | .lineAck => 0x44
  | .receipt => 0x48 | .mirrorWr => 0x49 | .hostRemoved => 0x4A
  | .time => 0x70 | .mgmt => 0x71
  | .reservedOp => 0xFF

/-- R322: the answer field of a dead-letter record. -/
inductive DlAnswer where
  | none | poison | ur | logged | nullified | discarded
  deriving DecidableEq, Repr

/-- The code of an answer (R322). -/
def DlAnswer.code : DlAnswer → Nat
  | .none => 0 | .poison => 1 | .ur => 2 | .logged => 3 | .nullified => 4 | .discarded => 5

/-- R321-R323: enter a message in the dead-letter log. -/
def deadLetter (m : Mach) (now : Nat) (x : Msg) (cause : Nat) (ans : DlAnswer) (port : Option Nat := none)
    (group : Option Nat := none) (maybe : Bool := false) (fence : Postmark := pmNone) : Mach :=
  let head := gf m F.RAS_DL_PTR_HEAD
  let tail := gf m F.RAS_DL_PTR_TAIL
  let full := (tail + 4096 - head) % 4096 ≥ 2048
  let addr := if x.pool != 0 then x.pool else x.h.addr
  let ws := [pmWord x.pm, BitVec.ofNat 64 (addr % 2 ^ 52),
    BitVec.ofNat 64 (x.src % 2 ^ 18 + x.dst % 2 ^ 18 * 2 ^ 18 + (port.getD 0) * 2 ^ 36 + b2n port.isSome * 2 ^ 43 +
      x.mc * 2 ^ 44 + x.sc * 2 ^ 47 + opcodeOf x.h.kind * 2 ^ 49),
    BitVec.ofNat 64 (cause + ans.code * 2 ^ 8 + b2n maybe * 2 ^ 11 + b2n group.isSome * 2 ^ 12 + (group.getD 0) * 2 ^ 16),
    pmWord fence, BitVec.ofNat 64 now, BitVec.ofNat 64 x.h.addr, BitVec.ofNat 64 x.h.tag]
  let put (m : Mach) : Mach := ackEvent
    (sf { m with logs := { m.logs with dl := tsetList 0 m.logs.dl (8 * (tail % 2048)) ws } }
      F.RAS_DL_PTR_TAIL [] ((tail + 1) % 4096)) F.RAS_DL_STATUS_NEW
  if !full then put m
  else if gfb m F.RAS_DL_CFG_OVERWRITE then
    put (satInc (sf m F.RAS_DL_PTR_HEAD [] ((head + 1) % 4096)) F.RAS_DL_STATUS_DROPPED)
  else satInc m F.RAS_DL_STATUS_DROPPED

/-! ### Status words (R367) -/

/-- R367: a status word. -/
def statusWord (ticket state reason units : Nat) : Word :=
  BitVec.ofNat 64 (units % 2 ^ 32 + reason % 2 ^ 12 * 2 ^ 32 + state % 16 * 2 ^ 44 + ticket % 2 ^ 16 * 2 ^ 48)

/-- STATE of a status word. -/
def stState (w : Word) : Nat := getBits w 47 44

/-- Does the status word show an operation accepted or running (R367)? -/
def stBusy (w : Word) : Bool := stState w == 1 || stState w == 2

/-- R373: a long operation ended, for software submissions; `block` is bits [31:24] of the block base. -/
def opEnded (m : Mach) (now block : Nat) (w : Word) : Mach :=
  if getBits w 63 48 == 0 then m else event m now 3 (if stState w == 3 then 0 else 1) block pmNone w.toNat

/-! ### Ports -/

/-- Station and subport indices of a port (R265). -/
def st (p : Nat) : List Nat := [p / 4, p % 4]

/-- R267: the role of a port. -/
def role (m : Mach) (p : Nat) : Nat := gf m F.STN_PORT_CFG_ROLE (st p)

/-- R265: lanes of each subport by BIFUR; 0 where the subport has no port. -/
def bifurWidth (b k : Nat) : Nat :=
  match b, k with
  | 0, 0 => 16
  | 1, 0 => 8 | 1, 2 => 8
  | 2, 0 => 8 | 2, 2 => 4 | 2, 3 => 4
  | 3, 0 => 4 | 3, 1 => 4 | 3, 2 => 8
  | 4, 0 => 4 | 4, 1 => 4 | 4, 2 => 4 | 4, 3 => 4
  | _, _ => 0

/-- R282: the port is the even half of a ganged Courier link. -/
def ganged (m : Mach) (p : Nat) : Bool :=
  p % 8 == 0 && gfb m F.STN_CRL_CFG_GANG (st p) && gf m F.STN_CFG_BIFUR [p / 4] == 0 && gf m F.STN_CFG_BIFUR [p / 4 + 1] == 0
    && role m p == 3 && role m (p + 4) == 3

/-- Configured width of a port in lanes. -/
def cfgWidth (m : Mach) (p : Nat) : Nat :=
  if ganged m p then 32 else bifurWidth (gf m F.STN_CFG_BIFUR [p / 4]) (p % 4)

/-- The port exists under its station's bifurcation and has a role (R64, R265). -/
def portExists (m : Mach) (p : Nat) : Bool :=
  decide (p < 128) && role m p != 0 && bifurWidth (gf m F.STN_CFG_BIFUR [p / 4]) (p % 4) != 0
    && !(p % 8 == 4 && ganged m (p - 4))

/-- FSTATE of a port's fence (R315). -/
def fstate (m : Mach) (p : Nat) : Nat := gf m F.RAS_FENCE_FSTATE [p]

/-- The port is contained: its fence is placed or complete (R307, R315). -/
def contained (m : Mach) (p : Nat) : Bool := fstate m p != 0

/-- The fence postmark of a port (R307). -/
def fenceOf (m : Mach) (p : Nat) : Postmark :=
  let v := gf m F.RAS_FENCE_FENCE [p]
  ⟨bitsOf v 59 12, bitsOf v 11 4, bitsOf v 3 0⟩

/-- The port can carry traffic (R65). -/
def canCarry (m : Mach) (p : Nat) : Bool := portExists m p && fstate m p != 2

/-- LINK_EVT of a port, and its event (type 0x50, R373). -/
def linkEvt (m : Mach) (now p : Nat) : Mach :=
  let m := ackEvent m F.STN_LINK_STATUS_LINK_EVT (st p)
  event m now 0x50 0 p pmNone (getBits (rd m Reg.STN_LINK_STATUS (st p)) 63 40)

/-- The device's own postcode (R58, R59). -/
def ownPostcode (m : Mach) : Nat := gf m F.RTE_SELF_DISTRICT * 4096 + gf m F.RTE_SELF_LOCAL

/-- Postcode of a host or member port (R62). -/
def portPostcode (m : Mach) (p : Nat) : Nat := gf m F.RTE_SELF_DISTRICT * 4096 + gf m F.RTE_PORT_ID_LOCAL [p]

/-! ### Power domains (R421) -/

/-- R421: state of power domain `d`: 0 off, 1 powering, 2 on, 3 isolated. -/
def domainState (m : Mach) (d : Nat) : Nat := bitsOf (gf m F.INL_PD_STATUS_STATE) (2 * d + 1) (2 * d)

/-- The machine with a domain's state changed. -/
def setDomain (m : Mach) (d v : Nat) : Mach :=
  let w := gf m F.INL_PD_STATUS_STATE
  sf m F.INL_PD_STATUS_STATE [] (w - bitsOf w (2 * d + 1) (2 * d) * 4 ^ d + v % 4 * 4 ^ d)

/-! ### Watermark monitors (R370, R371) -/

/-- Letters of an entry held on die by any path (R90): a message that streams on the guarantee counts those that it has at the
egress, at most two, `left` of them being gone. -/
def entryHeld (s : Sof) (left : Nat) (e : QEntry) : Nat :=
  match e.path with
  | .spilled => 0
  | .guaranteed =>
    if e.msg.n ≤ 2 then e.msg.n
    else min 2 ((match s.transit.find? (fun t => t.key == e.key) with | some t => t.got.length | none => e.msg.n) - left)
  | _ => e.msg.n

/-- occupancy(q) (R90): its queued entries, and its message that is leaving. -/
def occupancy (s : Sof) (q : Nat) : Nat :=
  let x := tget ({} : Queue) s.queues q
  ((x.sorting ++ x.settled).map (entryHeld s 0)).sum + (match (tget ({} : PortEg) s.eg (q / 32)).leaving with
    | some l => if l.e.msg.mc == q % 32 / 4 && l.e.msg.sc == q % 4 then entryHeld s l.left l.e else 0
    | none => 0)

/-- Letters of the shared pool charged to messages. -/
def poolCharged (s : Sof) : Nat := ((s.stored.filter (fun x => x.path == .onDie)).map (·.n)).sum

/-- R90: B, the letters of the shared pool. -/
def poolB : Nat := 1020736

/-- R90: F. -/
def freeLetters (s : Sof) : Nat := poolB - poolCharged s

/-- Mailbag blocks in use (R99). -/
def mailbagUsed (s : Sof) : Nat := (s.queues.map (fun x => x.2.blocks.length)).sum

/-- Dirty lines of a slice: its dirty ways (R178). -/
def dirtyCount (s : Slice) : Nat := (s.cache.map (fun x => (x.2.filter (fun w => w.st == .dirty)).length)).sum

/-! ### Slice and Carbon set (R135) -/

/-- R135: tag of a line. -/
def lineTag (a : Nat) : Nat := bitsOf a 51 18

/-- R135: fold of a tag. -/
def tagFold (t : Nat) : Nat :=
  bitsOf t 5 0 ^^^ bitsOf t 11 6 ^^^ bitsOf t 17 12 ^^^ bitsOf t 23 18 ^^^ bitsOf t 29 24 ^^^ bitsOf t 33 30

/-- R135: home slice of a pool address. -/
def sliceNo (a : Nat) : Nat := bitsOf a 11 6 ^^^ tagFold (lineTag a)

/-- R135: Carbon set of a pool address within its slice; `k` is K. -/
def carbonSet (k a : Nat) : Nat := bitsOf a 17 12 * k + lineTag a % k

/-- K of the slice's quadrant (R143). -/
def carbonK (m : Mach) (s : Nat) : Nat := max 1 (gf m F.HQ_CARBON_CFG_K [s / 16])

/-- A snoop of line `n.line` is one of the entry with tag `tag` in Carbon set `k`. -/
def snoopOf (ck k tag : Nat) (n : Snoop) : Bool := lineTag n.line == tag && carbonSet ck n.line == k

/-- Entries charged to host `h` in a slice (R145): narrow entries that stay, and set bits of wide heads, but those for which a
capacity back-invalidation is issued. -/
def usedBy (ck : Nat) (s : Slice) (h : Nat) : Nat :=
  (s.carbon.map (fun x => (x.2.filter (fun e =>
    !e.leaving && e.st != .i && (if e.wide then (tget 0 s.wide e.vec).getLsbD h &&
        !(s.snoops.any (fun n => n.capacity && n.host == h && snoopOf ck x.1 e.tag n))
      else e.host == h))).length)).sum

/-- A slice. -/
def sliceOf (m : Mach) (s : Nat) : Slice := tget {} m.home.slices s

/-- R371: the value a monitor watches. -/
def wmValue (m : Mach) (quantity param : Nat) : Nat :=
  let quad (n : Nat) : List Slice := ((List.range 16).map (fun i => sliceOf m (16 * n + i)))
  match quantity with
  | 1 => freeLetters m.sof
  | 2 => mailbagUsed m.sof
  | 3 => occupancy m.sof param
  | 4 => dirtyCount (sliceOf m param)
  | 5 => (m.home.slices.map (fun x => dirtyCount x.2)).sum
  | 6 => ((quad param).map (fun s => s.wideUsed.length)).sum
  | 7 => ((quad (param / 512)).map (fun s => usedBy (carbonK m (16 * (param / 512))) s (param % 512))).sum
  | 8 => (gf m F.RAS_DL_PTR_TAIL + 4096 - gf m F.RAS_DL_PTR_HEAD) % 4096
  | 9 => evqHeld m
  | 10 => (gf m F.RAS_LOG_PTR_TAIL + 8192 - gf m F.RAS_LOG_PTR_HEAD) % 8192
  | 11 => (let t := gf m F.INL_THERM_TJ; if t < 2 ^ 15 then t / 10 else 0)
  | 12 => gf m F.INL_MEAS_VIN
  | 13 => gf m F.INL_MEAS_PIN
  | _ => 0

/-- R370: a monitor's alarm, with hysteresis unless `fresh`. -/
def wmAlarm (dir : Bool) (level hyst value : Nat) (was fresh : Bool) : Bool :=
  if dir then (if was && !fresh then decide (value < level + hyst) else decide (value ≤ level))
  else (if was && !fresh then decide (value + hyst > level) else decide (value ≥ level))

/-- R370: monitor `k` compares: at a change of its quantity, and `fresh` when its configuration has changed. -/
def wmEval (fresh : Bool) (now : Nat) (m : Mach) (k : Nat) : Mach :=
  if !gfb m F.RAS_WM_CFG_EN [k] then m
  else
    let v := wmValue m (gf m F.RAS_WM_CFG_QUANTITY [k]) (gf m F.RAS_WM_CFG_PARAM [k])
    if !fresh && min v (2 ^ 32 - 1) == gf m F.RAS_WM_STATUS_VALUE [k] then m
    else
    let was := gfb m F.RAS_WM_STATUS_ALARM [k]
    let is := wmAlarm (gfb m F.RAS_WM_CFG_DIR [k]) (gf m F.RAS_WM_CFG_LEVEL [k]) (gf m F.RAS_WM_HYST_HYST [k]) v was fresh
    let m := sf m F.RAS_WM_STATUS_VALUE [k] (min v (2 ^ 32 - 1))
    if is && !was then
      event (ackEvent (sf m F.RAS_WM_STATUS_ALARM [k] 1) F.RAS_WM_STATUS_CROSS [k]) now 2 1 k pmNone (v % 2 ^ 32)
    else if !is && was then
      let m := sf m F.RAS_WM_STATUS_ALARM [k] 0
      if gfb m F.RAS_WM_CFG_RETURN_EN [k] then event m now 2 1 k pmNone (v % 2 ^ 32 + 2 ^ 32) else m
    else m

/-- Every monitor, after a change of any quantity. -/
def wmAll (now : Nat) (m : Mach) : Mach := (List.range 64).foldl (wmEval false now) m

/-- Every monitor, after its configuration has been formed. -/
def wmFresh (now : Nat) (m : Mach) : Mach := (List.range 64).foldl (wmEval true now) m

/-! ### Lifting effects to the state -/

/-- A command whose effect is on everything but Fabric Time, MRAM and the fuses. -/
def onMach (f : Nat → Mach → Mach) (s : State) : Host.Outcome State Fault Refusal :=
  .next { s with m := f s.time.now.toNat s.m }

/-- The same, with the watermark monitors judged on what it changed (R370). -/
def onMachW (f : Nat → Mach → Mach) (s : State) : Host.Outcome State Fault Refusal :=
  .next { s with m := wmAll s.time.now.toNat (f s.time.now.toNat s.m) }

end Sys2Proof.Machine
end

