-- ==== Sys2Proof/Machine/Operands.lean ====
section
/-!
DEFINITION. What a message's fields select: mail class, service class, lengths, destination, home range and member, FLD
and device physical address, guard verdict and attributes, home slice and sets.
-/

namespace Sys2Proof.Machine
open Sys2Proof

/-! ### Kinds of message (R111) -/

/-- M2S Req of CXL.mem. -/
def isM2SReq : MsgKind → Bool
  | .memRd | .memRdData | .memInv | .memInvNT | .memSpecRd | .memClnEvct | .biConflict => true
  | _ => false

/-- M2S RwD of CXL.mem. -/
def isRwD (k : MsgKind) : Bool := k == .memWr || k == .memWrPtl

/-- M2S BIRsp. -/
def isBiRsp : MsgKind → Bool
  | .biRspI | .biRspS | .biRspE | .biRspBlk => true
  | _ => false

/-- S2M NDR or DRS. -/
def isS2MRsp : MsgKind → Bool
  | .cmp | .cmpS | .cmpE | .biConflictAck | .memData | .mirrorCmp => true
  | _ => false

/-- S2M BISnp. -/
def isBiSnp : MsgKind → Bool
  | .biSnpCur | .biSnpData | .biSnpInv | .biSnpBlk => true
  | _ => false

/-- CXL.cache. -/
def isCache : MsgKind → Bool
  | .d2hReq | .d2hRsp | .d2hData | .h2dReq | .h2dRsp | .h2dData => true
  | _ => false

/-- CXL.io posted. -/
def isPosted : MsgKind → Bool
  | .mwr | .msg | .msgD => true
  | _ => false

/-- CXL.io non-posted. -/
def isNonPosted : MsgKind → Bool
  | .mrd | .mrdLk | .iord | .iowr | .cfgRd | .cfgWr | .fetchAdd | .swap | .cas => true
  | _ => false

/-- CXL.io completion. -/
def isCpl (k : MsgKind) : Bool := k == .cpl || k == .cplD

/-- CXL.io of any kind. -/
def isIo (k : MsgKind) : Bool := isPosted k || isNonPosted k || isCpl k

/-- PCIe AtomicOp. -/
def isAtomicOp : MsgKind → Bool
  | .fetchAdd | .swap | .cas => true
  | _ => false

/-- CXL.mem of any kind. -/
def isMem (k : MsgKind) : Bool := isM2SReq k || isRwD k || isBiRsp k || isS2MRsp k || isBiSnp k

/-- A read that R104 answers with poison. -/
def isRead : MsgKind → Bool
  | .memRd | .memRdData | .memSpecRd | .mrd | .lineRd | .d2hReq => true
  | _ => false

/-- A response or completion, which a flush or fence only dead-letters (R104, R309). -/
def isResponse (k : MsgKind) : Bool :=
  isS2MRsp k || isCpl k || k == .lineData || k == .lineAck || k == .receipt || k == .d2hRsp || k == .d2hData || k == .h2dRsp
    || k == .h2dData

/-- R111: the mail class of a message at the ingress of a host or member port or from an internal source; `cache` is the
CACHE attribute the guard delivers for its address (R240). -/
def mailClass (k : MsgKind) (cache : Nat) : Nat :=
  match k with
  | .memRd | .memRdData | .memInv | .memInvNT | .memSpecRd => 4
  | .memClnEvct => 2
  | .biConflict => 1
  | .memWr | .memWrPtl => if cache == 2 then 2 else 5
  | .biRspI | .biRspS | .biRspE | .biRspBlk => 1
  | .cmp | .cmpS | .cmpE | .biConflictAck | .memData | .mirrorCmp => 0
  | .biSnpCur | .biSnpData | .biSnpInv | .biSnpBlk => 3
  | .d2hReq => 4
  | .d2hRsp | .d2hData => 1
  | .h2dReq => 3
  | .h2dRsp | .h2dData => 0
  | .mwr | .msg | .msgD => 5
  | .mrd | .mrdLk | .iord | .iowr | .cfgRd | .cfgWr | .fetchAdd | .swap | .cas => 6
  | .cpl | .cplD => 0
  | .lineRd | .lineWr | .lineAtomic => 4
  | .lineData | .lineAck | .receipt => 0
  | .mirrorWr => 2
  | .hostRemoved => 1
  | .time | .mgmt | .reservedOp => 7

/-- R110, R293: the mail classes that a Courier envelope may carry for the opcode of a message's kind. -/
def classAllowed (k : MsgKind) (mc : Nat) : Bool :=
  if isRwD k then mc == 2 || mc == 5
  else if isM2SReq k then mc == 4 || mc == 2 || mc == 1
  else if isIo k then mc == 0 || mc == 5 || mc == 6
  else mc == mailClass k 0

/-- Does the message carry data on its link? -/
def carriesData : MsgKind → Bool
  | .memWr | .memWrPtl | .memData | .d2hData | .h2dData | .mwr | .msgD | .iowr | .cfgWr | .fetchAdd | .swap | .cas
  | .cplD | .lineWr | .lineData | .mirrorWr | .lineAtomic | .mgmt => true
  | _ => false

/-- Payload bytes of a message as it travels on its link (R79, R254). -/
def payloadBytes (h : Hdr) : Nat :=
  if isMem h.kind || isCache h.kind || h.kind == .lineWr || h.kind == .lineData || h.kind == .mirrorWr then
    (if carriesData h.kind then 64 else 0)
  else if h.kind == .lineAtomic then 32
  else if carriesData h.kind then h.len else 0

/-- R79: letters of a message. -/
def lettersOf (h : Hdr) (courier : Bool) : Nat :=
  if !courier && !isIo h.kind then 1 else min 64 (max 1 ((payloadBytes h + 63) / 64))

/-- R293: HLEN, the header section of a message on a Courier link, in units of 8 bytes. -/
def hlenOf (h : Hdr) : Nat :=
  match h.kind with
  | .cmp | .cmpS | .cmpE | .biConflictAck | .memData | .mirrorCmp | .biRspI | .biRspS | .biRspE | .biRspBlk => 1
  | .lineData | .lineAck | .receipt | .hostRemoved | .mgmt => 1
  | .time => 3
  | k => if isIo k then min 7 (max 2 ((h.hdrBytes + 7) / 8)) else 2

/-- R254: counted length of a message at egress port `p`. -/
def countedLen (m : Mach) (p : Nat) (h : Hdr) : Nat :=
  let hdr := if role m p == 3 then 16 + 8 * hlenOf h else if isIo h.kind then h.hdrBytes else 16
  let pay := if role m p == 3 then (payloadBytes h + 3) / 4 * 4 else payloadBytes h
  pay + hdr + gf m F.SCH_PORT_CFG_OVERHEAD [p]

/-- GT/s of a rate code (MAX_RATE). -/
def rateGT (code : Nat) : Nat :=
  match code with
  | 1 => 2 | 2 => 5 | 3 => 8 | 4 => 16 | 5 => 32 | _ => 64

/-- R255: lanes and rate (in tenths of GT/s, so that 2.5 is exact) that govern serialisation at a port. -/
def portSpeed (m : Mach) (p : Nat) : Nat × Nat :=
  let ps := tget {} m.ports p
  if ps.lanes != 0 then (ps.lanes, ps.rate)
  else if role m p == 3 then (cfgWidth m p, if gfb m F.STN_CRL_CFG_RATE128 (st p) then 1280 else 640)
  else
    let c := gf m F.STN_PORT_CFG_MAX_RATE (st p)
    (cfgWidth m p, if c == 1 then 25 else 10 * rateGT c)

/-- R255: serialisation time in ticks of `b` counted bytes at port `p`. -/
def serTicks (m : Mach) (p b : Nat) : Nat :=
  let (w, r) := portSpeed m p
  if w * r == 0 then 1 else (320 * b + w * r - 1) / (w * r)

/-! ### Sparse searches of the register map -/

/-- Indices of the entries at `base + stride × i`, i below `count`, whose bit `bit` is set, in ascending order. -/
def setEntries (m : Mach) (base stride count bit : Nat) : List Nat :=
  m.regs.filterMap (fun x =>
    if base ≤ x.1 && x.1 < base + stride * count && (x.1 - base) % stride == 0 && bitAt x.2.toNat bit then
      some ((x.1 - base) / stride) else none)

/-- Valid home ranges. -/
def validRanges (m : Mach) : List Nat := setEntries m 0x9020000 64 1024 63

/-- Valid guard rules, lowest index first. -/
def validRules (m : Mach) : List Nat := setEntries m 0x7100000 32 16384 63

/-- Enabled FLDs, lowest number first (R218). -/
def enabledFlds (m : Mach) : List Nat := setEntries m 0x6000000 8 4096 63

/-- Valid host indices of a quadrant (R161). -/
def validHosts (m : Mach) (q : Nat) : List Nat := setEntries m (0x3001000 + 0x400000 * q) 8 512 63

/-! ### Home ranges and interleave (R69, R70) -/

/-- Does home range `r` hold pool address `a`? -/
def rangeHolds (m : Mach) (r a : Nat) : Bool :=
  let b := gf m F.RTE_HR_BASE_BASE [r] * 2 ^ 28
  decide (b ≤ a) && decide (a < b + gf m F.RTE_HR_CFG_SIZE [r] * 2 ^ 28)

/-- The home range of a pool address. -/
def homeRange (m : Mach) (a : Nat) : Option Nat := (validRanges m).find? (fun r => rangeHolds m r a)

/-- Member slot `i` of home range `r`. -/
def memberSlot (m : Mach) (r i : Nat) : Nat :=
  if i < 8 then bitsOf (gf m F.RTE_HR_MEMA_MEMBERS [r]) (8 * i + 6) (8 * i)
  else bitsOf (gf m F.RTE_HR_MEMB_MEMBERS [r]) (8 * (i - 8) + 6) (8 * (i - 8))

/-- R70: member port and member address of pool address `a` in home range `r`. -/
def interleave (m : Mach) (r a : Nat) : Nat × Nat :=
  let g := 256 * 2 ^ gf m F.RTE_HR_CFG_GRAN [r]
  let w := gf m F.RTE_HR_CFG_WAYS [r] + 1
  let off := a - gf m F.RTE_HR_BASE_BASE [r] * 2 ^ 28
  let chunk := off / g
  (memberSlot m r (chunk % w), gf m F.RTE_HR_MBASE_MBASE [r] * 2 ^ 28 + chunk / w * g + off % g)

/-- Member port and address of a pool address homed at this device (R68, R70). -/
def memberOf (m : Mach) (a : Nat) : Option (Nat × Nat) :=
  (homeRange m a).map (fun r => interleave m r a)

/-- Postcode of the home device of a pool address (R63). -/
def homeOf (m : Mach) (a : Nat) : Option Nat := (homeRange m a).map (fun r => gf m F.RTE_HR_CFG_HOME [r])

/-! ### Fabric Cache set, and the line of a way or an entry (R135, R169) -/

/-- R169: Fabric Cache set of a pool address within its slice. -/
def fsetOf (a : Nat) : Nat := bitsOf a 32 12 ^^^ bitsOf a 51 33

/-- The line of a tag and Fabric Cache set: A[51:12] is the way's TAG and A[11:6] follows from the slice (R135, R170). -/
def lineOfWay (slice tag40 : Nat) : Nat :=
  let hi := tag40 * 4096
  hi + (slice ^^^ tagFold (lineTag hi)) * 64

/-- The line of a Carbon entry: the slice and set give A[17:6], the tag the rest (R135). -/
def lineOfCarbon (k slice set tag : Nat) : Nat := tag * 2 ^ 18 + set / k * 4096 + (slice ^^^ tagFold tag) * 64

/-! ### Routing (R63-R68) -/

/-- Where routing leads. -/
inductive Route where
  | port (p : Nat)
  | internal
  /-- Unroutable, with LAST_CAUSE. -/
  | nowhere (cause : Nat)
  deriving DecidableEq, Repr

/-- R65: XOR of the eighteen 2-bit groups of the key. -/
def routeHash (src dst : Nat) : Nat :=
  (List.range 18).foldl (fun h i => h ^^^ bitsOf (src * 2 ^ 18 + dst) (2 * i + 1) (2 * i)) 0

/-- R65: the first of the four slots, from the hash on, whose port can carry traffic. -/
def pick (m : Mach) (slots : List Nat) (src dst : Nat) : Route :=
  let h := routeHash src dst
  match ((List.range 4).map (fun i => slots.getD ((h + i) % 4) 0)).find? (canCarry m) with
  | some p => .port p
  | none => .nowhere 3

/-- R64: route a destination postcode; `ing` is the Courier port of arrival, for the reflection rule of R67. -/
def route (m : Mach) (src dst : Nat) (ing : Option Nat) (hop : Nat) : Route :=
  let d := dst / 4096
  let l := dst % 4096
  -- R67: no reflection, and no sixteenth hop
  let onward (r : Route) : Route :=
    match r with
    | .port p =>
      if role m p == 3 && ing == some p then .nowhere 4
      else if role m p == 3 && ing.isSome && hop + 1 > 15 then .nowhere 5
      else .port p
    | r => r
  let overrun (slots : List Nat) : Route := onward (pick m slots src dst)
  if d != gf m F.RTE_SELF_DISTRICT then
    if gfb m F.RTE_DIST_VALID [d] then
      overrun [gf m F.RTE_DIST_SLOT0 [d], gf m F.RTE_DIST_SLOT1 [d], gf m F.RTE_DIST_SLOT2 [d], gf m F.RTE_DIST_SLOT3 [d]]
    else .nowhere 1
  else if !gfb m F.RTE_LOCAL_VALID [l] then .nowhere 2
  else match gf m F.RTE_LOCAL_KIND [l] with
    | 0 => let p := gf m F.RTE_LOCAL_SLOT0 [l]; if portExists m p then onward (.port p) else .nowhere 3
    | 1 => overrun [gf m F.RTE_LOCAL_SLOT0 [l], gf m F.RTE_LOCAL_SLOT1 [l], gf m F.RTE_LOCAL_SLOT2 [l],
        gf m F.RTE_LOCAL_SLOT3 [l]]
    | 2 => .internal
    | _ => .nowhere 2

/-- R68: an unroutable message is counted, with its destination and cause. -/
def countUnrouted (m : Mach) (dst cause : Nat) : Mach :=
  ackEvent (sf (sf m F.RTE_UNROUTED_LAST_DEST [] dst) F.RTE_UNROUTED_LAST_CAUSE [] cause) F.RTE_UNROUTED_UNROUTED

/-- R71: the 128-bit port mask of a multicast group, as a list of ports. -/
def groupPorts (m : Mach) (g : Nat) : List Nat :=
  let w := gf m F.RTE_MCG_LO_PORTS_LO [g] + gf m F.RTE_MCG_HI_PORTS_HI [g] * 2 ^ 64
  (List.range 128).filter (fun p => bitAt w p)

/-- The machine with a group's mask written. -/
def setGroup (m : Mach) (g : Nat) (ps : List Nat) : Mach :=
  let lo := ((ps.filter (· < 64)).map (fun p => 2 ^ p)).sum
  let hi := ((ps.filter (fun p => 64 ≤ p)).map (fun p => 2 ^ (p - 64))).sum
  sf (sf m F.RTE_MCG_LO_PORTS_LO [g] lo) F.RTE_MCG_HI_PORTS_HI [g] hi

/-! ### FLDs and translation (R218-R226) -/

/-- The FLD that holds binding position `pos` of port `p`: the lowest-numbered (R218). -/
def fldAt (m : Mach) (p pos : Nat) : Option Nat :=
  (enabledFlds m).find? (fun f => gf m F.TEN_FLD_CFG_PORT [f] == p && gf m F.TEN_FLD_CFG_POS [f] == pos)

/-- FLD `f` holds its position at its port (R218). -/
def holdsPos (m : Mach) (f : Nat) : Bool :=
  fldAt m (gf m F.TEN_FLD_CFG_PORT [f]) (gf m F.TEN_FLD_CFG_POS [f]) == some f

/-- Ways of an HDM decoder's IW code (CXL 3.1). -/
def hdmWays (iw : Nat) : Nat :=
  match iw with
  | 0 => 1 | 1 => 2 | 2 => 4 | 3 => 8 | 4 => 16 | 8 => 3 | 9 => 6 | 10 => 12 | _ => 1

/-- DPA at which decoder `d` of FLD `f` begins: every decoder's skip and share so far. -/
def hdmDpaBase (m : Mach) (f : Nat) : Nat → Nat
  | 0 => (tget {} m.hdm (8 * f)).skip
  | d + 1 =>
    let e := tget ({} : Hdm) m.hdm (8 * f + d)
    hdmDpaBase m f d + e.size / hdmWays e.iw + (tget ({} : Hdm) m.hdm (8 * f + d + 1)).skip

/-- The committed decoder of FLD `f` that holds an HPA. -/
def hdmFind (m : Mach) (f hpa : Nat) : Option Nat :=
  (List.range 8).find? (fun d => let e := tget ({} : Hdm) m.hdm (8 * f + d)
    e.committed && decide (e.base ≤ hpa) && decide (hpa < e.base + e.size))

/-- R220: the DPA of an HPA through a decoder. -/
def hdmDpa (m : Mach) (f d hpa : Nat) : Nat :=
  let e := tget ({} : Hdm) m.hdm (8 * f + d)
  let g := 256 * 2 ^ e.ig
  let off := hpa - e.base
  hdmDpaBase m f d + off / g / hdmWays e.iw * g + off % g

/-- R226: the HPA of a DPA through FLD `f`'s decoders. -/
def hdmHpa (m : Mach) (f dpa : Nat) : Option Nat :=
  ((List.range 8).find? (fun d => let e := tget ({} : Hdm) m.hdm (8 * f + d); let b := hdmDpaBase m f d
    e.committed && decide (b ≤ dpa) && decide (dpa < b + e.size / hdmWays e.iw))).map (fun d =>
      let e := tget ({} : Hdm) m.hdm (8 * f + d)
      let g := 256 * 2 ^ e.ig
      let off := dpa - hdmDpaBase m f d
      e.base + (off / g * hdmWays e.iw + e.pos) * g + off % g)

/-- The outcome of choosing an FLD for a CXL.mem message (R220, R221, R225). -/
inductive FldPick where
  | fld (f dpa : Nat)
  /-- Fault with its cause and the FLD that decoded, if any. -/
  | fault (cause : Nat) (f : Option Nat)
  deriving DecidableEq, Repr

/-- R220, R221, R231: the FLD and DPA of a CXL.mem message with address `hpa` and `dpid` at host port `p`. -/
def pickFld (m : Mach) (p hpa dpid : Nat) : FldPick :=
  let cands := (enabledFlds m).filter (fun f => if gfb m F.TEN_PORT_MODEL_MODEL [p] then
      gf m F.TEN_FLD_CFG_PBR_ID [f] == dpid
    else gf m F.TEN_FLD_CFG_PORT [f] == p && holdsPos m f && (hdmFind m f hpa).isSome)
  match cands.head? with
  | none => .fault 1 none
  | some f =>
    if !gfb m F.TEN_FLD_STATUS_BOUND [f] || gf m F.TEN_FLD_CFG_PORT [f] != p || !holdsPos m f then .fault 4 (some f)
    else match hdmFind m f hpa with
      | some d => .fld f (hdmDpa m f d hpa)
      | none => .fault 1 none

/-- R221: the FLD of a port-based host port that a local ID names. -/
def fldOfPbr (m : Mach) (l : Nat) : Option Nat :=
  (enabledFlds m).find? (fun f => gf m F.TEN_FLD_CFG_PBR_ID [f] == l && gfb m F.TEN_PORT_MODEL_MODEL [gf m F.TEN_FLD_CFG_PORT [f]])

/-- R218, R231: the FLD receives messages: it is bound and holds its position. -/
def fldServes (m : Mach) (f : Nat) : Bool := gfb m F.TEN_FLD_STATUS_BOUND [f] && holdsPos m f

/-- R272: the CacheID under which host port `p` knows the member with postcode `pc`: k for vPPB 33 + k. -/
def cacheIdOf (m : Mach) (p pc : Nat) : Nat :=
  ((List.range 16).find? (fun k => let q := tget 0 m.vppb (64 * p + 33 + k); q != 0 && portPostcode m (q - 1) == pc)).getD 0

/-- R223: block size of region `r` of FLD `f`. -/
def blockSize (m : Mach) (f r : Nat) : Nat := 2 ^ 21 * 2 ^ gf m F.TEN_RGN_CFG_BSZ [f, r]

/-- R223: the region holds a DPA. -/
def regionHolds (m : Mach) (f r dpa : Nat) : Bool :=
  let b := gf m F.TEN_RGN_BASE_DPA_BASE [f, r] * 2 ^ 21
  gfb m F.TEN_RGN_BASE_VALID [f, r] && decide (b ≤ dpa) && decide (dpa < b + gf m F.TEN_RGN_CFG_LEN [f, r] * blockSize m f r)

/-- R224: translate a DPA of FLD `f`: the pool address, or the fault cause. -/
def translate (m : Mach) (f dpa : Nat) : Sum Nat Nat :=
  match (List.range 8).find? (fun r => regionHolds m f r dpa) with
  | none => .inr 2
  | some r =>
    let off := dpa - gf m F.TEN_RGN_BASE_DPA_BASE [f, r] * 2 ^ 21
    let bs := blockSize m f r
    let i := gf m F.TEN_RGN_CFG_FIRST [f, r] + off / bs
    if i ≥ 2 ^ 19 then .inr 2
    else
      let st := gf m F.TEN_EXT_STATE [i]
      if st == 2 || st == 3 then .inl (gf m F.TEN_EXT_POOL [i] * 2 ^ 21 + off % bs) else .inr 3

/-- R226: the FLD and DPA through which host port `p` maps a pool address: an entry not EMPTY or with KEEP set. -/
def reverseMap (m : Mach) (p pool : Nat) : Option (Nat × Nat) :=
  ((enabledFlds m).filter (fun f => gf m F.TEN_FLD_CFG_PORT [f] == p)).findSome? (fun f =>
    (List.range 8).findSome? (fun r =>
      if !gfb m F.TEN_RGN_BASE_VALID [f, r] then none
      else
        let bs := blockSize m f r
        let first := gf m F.TEN_RGN_CFG_FIRST [f, r]
        let len := gf m F.TEN_RGN_CFG_LEN [f, r]
        (m.regs.findSome? (fun x =>
          if 0x6200000 + 8 * first ≤ x.1 && x.1 < 0x6200000 + 8 * (first + len) && (x.1 - 0x6200000) % 8 == 0 then
            let w := x.2
            let b := getBits w 51 21 * 2 ^ 21
            if (getBits w 63 62 != 0 || getBits w 61 61 == 1) && decide (b ≤ pool) && decide (pool < b + bs) then
              some (f, gf m F.TEN_RGN_BASE_DPA_BASE [f, r] * 2 ^ 21 + ((x.1 - 0x6200000) / 8 - first) * bs + (pool - b))
            else none
          else none))))

/-! ### Address guard (R236-R247) -/

/-- What an access needs (R237). -/
structure Need where
  r : Bool
  w : Bool
  deriving DecidableEq, Repr

/-- R237: the permission each kind of access needs; none for kinds that are not checked (R239). -/
def needOf (h : Hdr) : Option Need :=
  match h.kind with
  | .memRd | .memRdData | .memSpecRd | .mrd | .lineRd => some ⟨true, false⟩
  | .memInv | .memInvNT => some (if h.mv == .i then ⟨false, true⟩ else ⟨true, false⟩)
  | .memWr | .memWrPtl | .mwr | .lineWr => some ⟨false, true⟩
  | .fetchAdd | .swap | .cas | .lineAtomic => some ⟨true, true⟩
  | _ => none

/-- R236: rule `i` covers the granule of an address in a space (0 pool, 1 management). -/
def ruleCovers (m : Mach) (i space addr : Nat) : Bool :=
  let b := gf m F.GRD_RULE_BASE_BASE [i]
  gf m F.GRD_RULE_BASE_SPACE [i] == space && decide (b ≤ addr / 4096)
    && decide (addr / 4096 < b + gf m F.GRD_RULE_SIZE_COUNT [i])

/-- The verdict of the guard. -/
inductive Verdict where
  | allow
  /-- Cause 1, 2 or 3, and the deciding rule. -/
  | deny (cause : Nat) (rule : Option Nat)
  deriving DecidableEq, Repr

/-- R237, R243: the lowest-index valid rule that covers the granule and matches world and source group decides. -/
def guardCheck (m : Mach) (space addr world sg : Nat) (need : Need) : Verdict :=
  if world == 3 then .deny 3 none
  else match (validRules m).find? (fun i => ruleCovers m i space addr
      && bitAt (gf m F.GRD_RULE_MATCH_WORLDS [i]) world
      && (gfb m F.GRD_RULE_MATCH_ANY_SG [i] || gf m F.GRD_RULE_MATCH_SGROUP [i] == sg)) with
    | none => if world == 2 then .allow else .deny 1 none
    | some i =>
      if (!need.r || gfb m F.GRD_RULE_MATCH_R [i]) && (!need.w || gfb m F.GRD_RULE_MATCH_W [i]) then .allow
      else .deny 2 (some i)

/-- R240: the attributes of a pool address. -/
def attrOf (m : Mach) (pool : Nat) : Attr :=
  match (validRules m).find? (fun i => gfb m F.GRD_RULE_MATCH_DELIVER [i] && ruleCovers m i 0 pool) with
  | none => { arrival := gfb m F.FTM_CTL_DEFAULT_ARRIVAL }
  | some i =>
    { cache := gf m F.GRD_RULE_ATTR_CACHE [i], relaxed := gfb m F.GRD_RULE_ATTR_ORDER [i],
      specAllowed := gfb m F.GRD_RULE_ATTR_SPEC [i], alloc := gfb m F.GRD_RULE_ATTR_ALLOC [i],
      mirror := gf m F.GRD_RULE_ATTR_MIRROR [i], arrival := gfb m F.GRD_RULE_ATTR_MODE [i] }

/-- R245: a guard fault is logged and counted. -/
def guardFault (m : Mach) (now : Nat) (pm : Postmark) (src world sg addr cause : Nat) (rule : Option Nat) : Mach :=
  let m := sf (sf (sf m F.GRD_FAULT_LAST_CAUSE [] cause) F.GRD_FAULT_LAST_WORLD [] world) F.GRD_FAULT_LAST_SG [] sg
  let m := sf (sf m F.GRD_FAULT_LAST_NORULE [] (b2n rule.isNone)) F.GRD_FAULT_LAST_RULE [] (rule.getD 0)
  rasLog (ackEvent m F.GRD_FAULT_FAULT) now 0x11 1 (rule.getD 0xFFFF) pm addr world sg src cause

/-- R225: a translation fault is logged and counted; `dpa` is what bytes 40-47 of the entry hold, `pool` its ADDRESS. -/
def xlateFault (m : Mach) (now : Nat) (pm : Postmark) (src cause : Nat) (f : Option Nat) (dpa pool : Nat) : Mach :=
  let m := sf (sf m F.TEN_XLATE_ERR_LAST_CAUSE [] cause) F.TEN_XLATE_ERR_LAST_FLD [] (f.getD 0)
  let m := ackEvent (sf m F.TEN_XLATE_ERR_NOFLD [] (b2n f.isNone)) F.TEN_XLATE_ERR_FAULT
  let m := match f with | some f => ackEvent m F.TEN_FLD_STATUS_XLATE [f] | none => m
  rasLog m now 0x12 1 (f.getD 0xFFFF) pm pool 0 0 src cause dpa

/-! ### Service class (R253) and the letters' α (R92) -/

/-- R253: service class of a CXL.io message of traffic class `tc` at port `p`. -/
def tcClass (m : Mach) (p tc : Nat) : Nat := bitsOf (gf m F.SCH_PORT_CFG_TC_MAP [p]) (2 * (tc % 8) + 1) (2 * (tc % 8))

/-- R253: the service class of a message at the ingress of host or member port `p`. -/
def serviceClass (m : Mach) (p : Nat) (h : Hdr) (fld : Option Nat) : Nat :=
  if isIo h.kind then tcClass m p h.tc
  else match fld with
    | some f => gf m F.SCH_FLD_CFG_MEM_SC [f]
    | none => gf m F.SCH_PORT_CFG_DEFAULT_SC [p]

/-- R150: service class of what a home sends to host index `h` in quadrant `q`. -/
def hostSc (m : Mach) (q h : Nat) : Nat := gf m F.HQ_HOST_CFG_SC [q, h]

/-- R92, R222: the FLD that a message itself belongs to: its requests and RwD, not what answers them. -/
def ownFld (x : Msg) : Option Nat :=
  if isM2SReq x.h.kind || isRwD x.h.kind || isPosted x.h.kind || isNonPosted x.h.kind then x.fld else none

/-- R92: the α code that governs the admission of a message: its FLD's own where it has one. -/
def alphaCode (m : Mach) (x : Msg) : Nat :=
  let own := match ownFld x with
    | some f => gf m F.TEN_FLD_CFG_ALPHA [f]
    | none => 15
  if own != 15 then own
  else match x.sc with
    | 0 => gf m F.SOF_ALPHA_ALPHA_SC0
    | 1 => gf m F.SOF_ALPHA_ALPHA_SC1
    | 2 => gf m F.SOF_ALPHA_ALPHA_SC2
    | _ => gf m F.SOF_ALPHA_ALPHA_SC3

/-- Host index of a postcode in quadrant `q` (R161). -/
def hostIndex (m : Mach) (q pc : Nat) : Option Nat :=
  (validHosts m q).find? (fun h => gf m F.HQ_HOST_CFG_POSTCODE [q, h] == pc)

/-- R162, R271: the host index of a caching request: none for a host port that runs in 68-byte mode. -/
def cachingIndex (m : Mach) (q : Nat) (x : Msg) : Option Nat :=
  if x.att < 128 && role m x.att == 1 && gf m F.STN_LINK_STATUS_MODE (st x.att) == 3 then none else hostIndex m q x.src

/-! ### Lines and bytes -/

/-- A line of 64 little-endian bytes (R5). -/
def lineOf (bs : List Byte) : Line := BitVec.ofNat 512 (leNat (bs.take 64))

/-- The 64 bytes of a line. -/
def bytesOfLine (l : Line) : List Byte := natLe 64 l.toNat

/-- Bytes of `new` selected by `mask` over `old`. -/
def mergeLine (old new : Line) (mask : Nat) : Line :=
  let bits := ((List.range 64).filter (fun k => bitAt mask k)).foldl (fun a k => a + 255 * 2 ^ (8 * k)) 0
  let mk : Line := BitVec.ofNat 512 bits
  (new &&& mk) ||| (old &&& ~~~mk)

/-- The mask of all 64 bytes. -/
def fullMask : Nat := 2 ^ 64 - 1

/-- Pool lines that `len` bytes from `a` touch. -/
def linesOf (a len : Nat) : List Nat :=
  (List.range ((a % 64 + max 1 len + 63) / 64)).map (fun i => a / 64 * 64 + 64 * i)

end Sys2Proof.Machine
end

