-- ==== Sys2Proof/Machine/Cache.lean ====
section
/-!
DEFINITION. The sets of a home slice as data (chapters 06 and 07): Fabric Cache ways, their AGE, replacement, mirrors and
speculative fills; Carbon entries, wide vectors, and the states hosts hold.
-/

namespace Sys2Proof.Machine
open Sys2Proof

/-- The machine with a slice changed. -/
def modSlice (m : Mach) (s : Nat) (f : Slice → Slice) : Mach :=
  { m with home := { m.home with slices := tmod {} m.home.slices s f } }

/-- R435: Fabric Cache set `fs` lies on a lost stack. -/
def setLost (m : Mach) (fs : Nat) : Bool := bitAt (gf m F.RAS_AVAIL_HBM_LOST) (fs % 8)

/-! ### Fabric Cache sets (R168-R176) -/

/-- The 16 ways of a set. -/
def ways (sl : Slice) (fs : Nat) : List Way :=
  let l := tget [] sl.cache fs
  if l.isEmpty then List.replicate 16 {} else l

/-- The slice with the ways of a set written, whatever speculation holds. -/
def putWays (sl : Slice) (fs : Nat) (ws : List Way) : Slice :=
  { sl with cache := tset [] sl.cache fs (if ws.all (fun w => decide (w = {})) then [] else ws) }

/-- The slice with the ways of a set changed by confirmed work: the speculation of open items on that set is no longer valid
(R51). -/
def setWays (sl : Slice) (fs : Nat) (ws : List Way) : Slice :=
  let sl := putWays sl fs ws
  { sl with items := sl.items.map (fun i =>
    if i.conf == 0 && i.specOn && fsetOf i.line == fs then { i with specOk := false } else i) }

/-- STATE of a way word (R170). -/
def WSt.code : WSt → Nat
  | .invalid => 0 | .clean => 1 | .dirty => 2 | .mirror => 3

/-- R170: the way word, with its CHECK. -/
def wayWord (w : Way) : Word :=
  let b := w.tag % 2 ^ 40 + (if w.st == .mirror then w.pway % 16 * 2 ^ 40 else 0) + b2n w.hollow * 2 ^ 47 + w.st.code * 2 ^ 48
    + b2n w.owned * 2 ^ 50 + b2n w.poison * 2 ^ 51 + w.age % 16 * 2 ^ 52
  BitVec.ofNat 64 (b + (Config.secded b).toNat * 2 ^ 56)

/-- The slice with one way changed by confirmed work. -/
def modWay (sl : Slice) (fs w : Nat) (f : Way → Way) : Slice := setWays sl fs (lmod f (ways sl fs) w)

/-- TAG of a way for a line (R170). -/
def wayTag (line : Nat) : Nat := line / 4096

/-- The way that holds a line, clean or dirty, hollow or not (R170). -/
def findWay (sl : Slice) (line : Nat) : Option (Nat × Way) :=
  lfindIdx (fun w => (w.st == .clean || w.st == .dirty) && w.tag == wayTag line) (ways sl (fsetOf line)) 0

/-- R175: way `w` of a set takes AGE 0; a newly filled one counts as having had AGE 15. -/
def touch (ws : List Way) (w : Nat) (filled : Bool) : List Way :=
  let old := if filled then 15 else (ws.getD w {}).age
  lmod (fun x => { x with age := 0 }) (ws.map (fun x => if x.age < old then { x with age := x.age + 1 } else x)) w

/-- R174: of the ways that `p` allows, the one with the highest AGE, lower numbers first. -/
def oldestWay (ws : List Way) (p : Way → Bool) : Option Nat :=
  (lbest (fun (a b : Nat × Way) => decide (b.2.age < a.2.age)) (((List.range ws.length).zip ws).filter (fun x => p x.2))).map (·.1)

/-- R174: rules 1 and 2: the lowest invalid way, else the oldest clean way. -/
def freeWay (ws : List Way) : Option Nat :=
  match lfindIdx (fun w => w.st == .invalid) ws 0 with
  | some (i, _) => some i
  | none => oldestWay ws (fun w => w.st == .clean)

/-- R174, R313: all three rules; `keep` names the dirty ways whose member is contained. -/
def victimWay (ws : List Way) (keep : Way → Bool) : Option Nat :=
  match freeWay ws with
  | some i => some i
  | none => oldestWay ws (fun w => w.st == .dirty && !w.owned && !keep w)

/-- The partner set of a set (R169). -/
def partner (fs : Nat) : Nat := fs ^^^ 4

/-- The mirror way of dirty way `w` of set `fs` (R170). -/
def mirrorOf (sl : Slice) (fs w tag : Nat) : Option Nat :=
  (lfindIdx (fun x => x.st == .mirror && x.pway == w && x.tag == tag) (ways sl (partner fs)) 0).map (·.1)

/-- R179: the mirror of a way is freed. -/
def freeMirror (sl : Slice) (fs w tag : Nat) : Slice :=
  match mirrorOf sl fs w tag with
  | some k => modWay sl (partner fs) k (fun x => { x with st := .invalid, tag := 0, poison := false, pway := 0, data := 0 })
  | none => sl

/-- R178: the partner set can hold a mirror: the way it would take. -/
def mirrorRoom (sl : Slice) (fs max : Nat) : Option Nat :=
  let ws := ways sl (partner fs)
  if (ws.filter (fun w => w.st == .mirror)).length < max then freeWay ws else none

/-- R178: write data and poison into way `w`, which holds the line already or has just taken it. The line becomes, or
stays, dirty with its mirror when `mayDirty` and R178 allow; otherwise the way is clean and the caller writes through: a line
that a mirror group covers is never dirty (R186). Answers the slice and whether the line is dirty. -/
def writeWay (sl : Slice) (fs w : Nat) (data : Line) (poison mayDirty : Bool) (budget mirrorMax : Nat) : Slice × Bool :=
  let way := (ways sl fs).getD w {}
  let put (st : WSt) (sl : Slice) : Slice := modWay sl fs w (fun x =>
    { x with st := st, data := data, poison := poison, hollow := false, rewritten := true })
  let mir (k : Nat) (sl : Slice) : Slice := modWay sl (partner fs) k (fun x =>
    { x with st := .mirror, tag := way.tag, pway := w, data := data, poison := poison, owned := false, hollow := false })
  if way.st == .dirty && !mayDirty then (put .clean (freeMirror sl fs w way.tag), false)
  else if way.st == .dirty then
    match mirrorOf sl fs w way.tag with
    | some k => (mir k (put .dirty sl), true)
    | none => (put .dirty sl, true)
  else if !mayDirty || dirtyCount sl ≥ budget then (put .clean sl, false)
  else match mirrorRoom sl fs mirrorMax with
    | some k => (mir k (put .dirty sl), true)
    | none => (put .clean sl, false)

/-- A way takes a new line, clean, with no data yet (HOLLOW) and AGE 0. -/
def claimWay (sl : Slice) (fs w line : Nat) (owned : Bool) : Slice :=
  setWays sl fs (touch (lmod (fun x =>
    { x with st := .clean, tag := wayTag line, hollow := true, poison := false, owned := owned, data := 0, cleaning := 0, rewritten := false })
    (ways sl fs) w) w true)

/-- R176: a speculative read's data has landed: the way that rules 1 and 2 choose takes the data, so that a clean way loses
its own (HOLLOW). The way word is unchanged. -/
def specFill (lost : Nat → Bool) (sl : Slice) (id : Nat) : Slice :=
  match sl.items.find? (fun i => i.conf == 0 && i.specOn && i.specOk && i.specId == id && i.specWay.isNone && i.msg.attr.alloc) with
  | none => sl
  | some i =>
    let fs := fsetOf i.line
    match if lost fs then none else freeWay (ways sl fs) with
    | none => sl
    | some w =>
      let sl := putWays sl fs (lmod (fun x => if x.st == .clean then { x with hollow := true } else x) (ways sl fs) w)
      { sl with items := sl.items.map (fun j => if j.seq == i.seq then { j with specWay := some w } else j) }

/-! ### Carbon sets (R141-R144) -/

/-- The eight slots of a Carbon set. -/
def slots (sl : Slice) (k : Nat) : List CEntry :=
  let l := tget [] sl.carbon k
  if l.isEmpty then List.replicate 8 {} else l

/-- A free slot (R141). -/
def freeEntry (e : CEntry) : Bool := e.st == .i && !e.pend

/-- R141: AGE as a rank among the entries of a set: as many as are more recent; lower slots first where entries came together. -/
def ranked (es : List CEntry) : List CEntry :=
  let ix := (List.range es.length).zip es
  ix.map (fun x => if freeEntry x.2 then ({} : CEntry) else { x.2 with
    age := (ix.filter (fun y => !freeEntry y.2 && (decide (y.2.age < x.2.age) || (y.2.age == x.2.age && decide (y.1 < x.1))))).length })

/-- The slice with a Carbon set written: free slots are blank, and the speculation of open items on the set is no longer valid
(R51). -/
def setSlots (ck : Nat) (sl : Slice) (k : Nat) (es : List CEntry) : Slice :=
  let es := ranked es
  { sl with
    carbon := tset [] sl.carbon k (if es.all freeEntry then [] else es)
    items := sl.items.map (fun i =>
      if i.conf == 0 && i.specOn && carbonSet ck i.line == k then { i with specOk := false } else i) }

/-- STATE of a Carbon entry (R141). -/
def CSt.code : CSt → Nat
  | .i => 0 | .s => 1 | .a => 2

/-- R141: the 8 bytes of a Carbon entry, with its CHECK. -/
def entryWord (e : CEntry) : Word :=
  let b := e.tag % 2 ^ 34 + (if e.wide then bitsOf e.vec 14 6 * 2 ^ 34 + bitsOf e.vec 5 0 * 2 ^ 43 else e.host % 512 * 2 ^ 34)
    + e.st.code * 2 ^ 49 + b2n e.pend * 2 ^ 51 + b2n e.wide * 2 ^ 52 + e.age % 8 * 2 ^ 53
  BitVec.ofNat 64 (b + (Config.secded b).toNat * 2 ^ 56)

/-- The slots that hold entries of a line. -/
def lineSlots (es : List CEntry) (line : Nat) : List (Nat × CEntry) :=
  ((List.range es.length).zip es).filter (fun x => !freeEntry x.2 && x.2.tag == lineTag line)

/-- Host indices whose bit is set in a sharer vector. -/
def vecHosts (v : BitVec 512) : List Nat := (List.range 512).filter (fun h => v.getLsbD h)

/-- State of host `h` for a line, in its set (R141, R144); an entry at I counts as I. -/
def hostState (ck : Nat) (sl : Slice) (line h : Nat) : CSt :=
  let es := (lineSlots (slots sl (carbonSet ck line)) line).map (·.2)
  match es.find? (fun e => !e.wide && e.host == h) with
  | some e => e.st
  | none => match es.find? (fun e => e.wide) with
    | some e => if (tget 0 sl.wide e.vec).getLsbD h then .s else .i
    | none => .i

/-- The hosts in S or A for a line, with their states (R148), those of the eviction buffer not among them. -/
def holders (ck : Nat) (sl : Slice) (line : Nat) : List (Nat × CSt) :=
  ((lineSlots (slots sl (carbonSet ck line)) line).map (fun x =>
    if x.2.wide then (vecHosts (tget 0 sl.wide x.2.vec)).map (fun h => (h, CSt.s))
    else if x.2.st == .i then [] else [(x.2.host, x.2.st)])).flatten

/-- Some host holds the line in A. -/
def heldA (ck : Nat) (sl : Slice) (line : Nat) : Bool :=
  (holders ck sl line).any (fun x => x.2 == .a) || sl.evb.any (fun v => v.line == line && v.e.st == .a)

/-- R182: OWNED follows what hosts hold. -/
def noteOwned (ck : Nat) (sl : Slice) (line : Nat) : Slice :=
  match findWay sl line with
  | some (w, x) =>
    let a := heldA ck sl line
    if x.owned == a then sl else modWay sl (fsetOf line) w (fun y => { y with owned := a })
  | none => sl

/-- Free a vector (R144). -/
def freeVec (sl : Slice) (v : Nat) : Slice :=
  { sl with wide := tset 0 sl.wide v 0, wideUsed := sl.wideUsed.filter (· != v) }

/-- A snoop to this host for this line is outstanding or held (R149 PEND). -/
def snoopTo (sl : Slice) (line h : Nat) : Option Snoop := sl.snoops.find? (fun n => n.line == line && n.host == h)

/-- R149: PEND of a line's entries follows its snoops. -/
def notePend (ck : Nat) (sl : Slice) (line : Nat) : Slice :=
  let k := carbonSet ck line
  let es := slots sl k
  let pend (e : CEntry) : Bool :=
    if e.wide then sl.snoops.any (fun n => n.line == line && !n.evb)
    else sl.snoops.any (fun n => n.line == line && n.host == e.host && !n.evb)
  let es' := es.map (fun e => if !freeEntry e && e.tag == lineTag line then { e with pend := pend e } else e)
  if es' == es then sl else setSlots ck sl k es'

/-- R149: the state of host `h` for a line becomes `st`; an entry at I without PEND is freed. A wide bit set to I is
cleared, and a wide head left with no bit and no PEND is freed with its vector (R144). -/
def setHostState (ck : Nat) (sl : Slice) (line h : Nat) (st : CSt) : Slice :=
  let k := carbonSet ck line
  let es := slots sl k
  let t := lineTag line
  let sl :=
    match es.find? (fun e => !freeEntry e && e.tag == t && e.wide) with
    | some e =>
      if st == .i then
        let v := (tget 0 sl.wide e.vec) &&& ~~~(BitVec.ofNat 512 (2 ^ h))
        let sl := { sl with wide := tset 0 sl.wide e.vec v }
        if v == 0 && !sl.snoops.any (fun n => n.line == line && !n.evb) then
          freeVec (setSlots ck sl k (es.map (fun x => if x.tag == t && x.wide then {} else x))) e.vec
        else sl
      else sl
    | none =>
      setSlots ck sl k (es.map (fun x => if !freeEntry x && x.tag == t && x.host == h then
        { x with st := st, leaving := x.leaving && st != .i } else x))
  noteOwned ck (notePend ck sl line) line

/-- R144: a wide line left with three or fewer bits, no PEND and room in its set unfolds into narrow entries, which take the
head's place in the order of AGE (DESIGN CHOICE: log entry 163). -/
def unfold (ck : Nat) (sl : Slice) (line : Nat) : Slice :=
  let k := carbonSet ck line
  let es := slots sl k
  match lfindIdx (fun e => !freeEntry e && e.tag == lineTag line && e.wide) es 0 with
  | none => sl
  | some (i, e) =>
    let hs := vecHosts (tget 0 sl.wide e.vec)
    let free := (List.range 8).filter (fun j => freeEntry (es.getD j {}))
    if e.pend || hs.length > 3 || free.length + 1 < hs.length then sl
    else
      let put (es : List CEntry) (x : Nat × Nat) : List CEntry :=
        lmod (fun _ => ({ tag := lineTag line, st := .s, host := x.2, age := e.age } : CEntry)) es x.1
      freeVec (setSlots ck sl k ((((i :: free).zip hs)).foldl put (lmod (fun _ => ({} : CEntry)) es i))) e.vec

/-- The entry that confirmed work touches takes AGE 0 within its set; a new one comes after every other. -/
def touchEntry (es : List CEntry) (i : Nat) (new : Bool) : List CEntry :=
  let old := if new then 8 else (es.getD i {}).age
  lmod (fun x => { x with age := 0 }) (es.map (fun x => if !freeEntry x && x.age < old then { x with age := x.age + 1 } else x)) i

/-- R141: the entries of hosts `hs` for a line are touched, in slot order, by the confirmed item that uses them. -/
def touchHosts (ck : Nat) (sl : Slice) (line : Nat) (hs : List Nat) : Slice :=
  let k := carbonSet ck line
  let es := slots sl k
  let is := ((lineSlots es line).filter (fun x => x.2.wide || hs.contains x.2.host)).map (·.1)
  let es' := is.foldl (fun es i => touchEntry es i false) es
  if es' == es then sl else setSlots ck sl k es'

/-- R145: hosts over their quota in a slice, with the excess. -/
def excess (m : Mach) (s : Nat) (sl : Slice) (h : Nat) : Nat := usedBy (carbonK m s) sl h - gf m F.HQ_HOST_CFG_QUOTA [s / 16, h]

/-- Hosts that hold any entry in a slice. -/
def hostsIn (sl : Slice) : List Nat :=
  ((sl.carbon.map (fun x => (x.2.map (fun e =>
    if e.st == .i then [] else if e.wide then vecHosts (tget 0 sl.wide e.vec) else [e.host])).flatten)).flatten).eraseDups

/-- R147: hosts over quota in a slice; a removed host has no entries left (R163). -/
def overHosts (m : Mach) (s : Nat) (sl : Slice) : List Nat :=
  (hostsIn sl).filter (fun h => !sl.removed.contains h && 0 < excess m s sl h)

/-- R146: the entry a capacity eviction takes from a full set: the narrow entry of the host furthest over quota, else the
oldest narrow entry, else the oldest wide head; lower slots first; none of the item's own line, none with PEND. -/
def chooseVictim (m : Mach) (s : Nat) (sl : Slice) (k line : Nat) : Option Nat :=
  let es := (List.range 8).zip (slots sl k)
  let ok := es.filter (fun x => !x.2.pend && x.2.tag != lineTag line && x.2.st != .i && (x.2.wide || !sl.removed.contains x.2.host))
  let nar := ok.filter (fun x => !x.2.wide)
  let overrun := nar.filter (fun x => 0 < excess m s sl x.2.host)
  match lbest (fun a b => decide (excess m s sl b.2.host < excess m s sl a.2.host)) overrun with
  | some x => some x.1
  | none => match lbest (fun (a b : Nat × CEntry) => decide (b.2.age < a.2.age)) nar with
    | some x => some x.1
    | none => (lbest (fun (a b : Nat × CEntry) => decide (b.2.age < a.2.age)) (ok.filter (fun x => x.2.wide))).map (·.1)

/-- Is the message an input of a slice (R140)? -/
def isInput (k : MsgKind) : Bool := isBiRsp k || isS2MRsp k || k == .hostRemoved

end Sys2Proof.Machine
end

