-- ==== Sys2Proof/Machine/Monitoring.lean ====
section
/-!
DEFINITION. Chapter 18: filter sets, counters, bandwidth windows, Tracking and recorded delivery: the hooks that the
other families call, and the commands of the family.
-/

namespace Sys2Proof.Machine
open Sys2Proof

/-- R396: the fields an event offers to the filters. -/
structure MonInfo where
  ports : List Nat := []
  src : Option Nat := none
  world : Option Nat := none
  mc : Option Nat := none
  sc : Option Nat := none
  pool : Option Nat := none
  deriving DecidableEq, Repr

/-- R396: the fields of a message, with the egress ports once they are chosen. -/
def msgInfo (x : Msg) (egress : List Nat := []) : MonInfo :=
  { ports := (if x.att < 128 then [x.att] else []) ++ egress, src := some x.src, world := some x.world,
    mc := some x.mc, sc := some x.sc, pool := if x.pool == 0 then none else some x.pool }

/-- R395: does an event pass filter set `f`? -/
def passes (m : Mach) (f : Nat) (i : MonInfo) : Bool :=
  let src := match gf m F.PMU_FLT_CTL_SRC_SEL [f] with
    | 0 => true
    | 1 => i.ports.any (fun p => if p < 64 then bitAt (gf m F.PMU_FLT_PORTS_LO_PORTS_LO [f]) p
        else bitAt (gf m F.PMU_FLT_PORTS_HI_PORTS_HI [f]) (p - 64))
    | _ => match i.src with
      | some s => let k := gf m F.PMU_FLT_PC_PC_MASK [f]; (s &&& k) == (gf m F.PMU_FLT_PC_PC_VALUE [f] &&& k)
      | none => false
  let addr := !gfb m F.PMU_FLT_CTL_ADDR_EN [f] || (match i.pool with
    | some a => decide (gf m F.PMU_FLT_ADDR_LO_LO [f] ≤ a / 64) && decide (a / 64 ≤ gf m F.PMU_FLT_ADDR_HI_HI [f])
    | none => false)
  let has (mask full : Nat) (v : Option Nat) : Bool :=
    mask == full || (match v with | some k => bitAt mask k | none => false)
  src && addr && has (gf m F.PMU_FLT_CTL_MC_MASK [f]) 255 i.mc && has (gf m F.PMU_FLT_CTL_SC_MASK [f]) 15 i.sc
    && has (gf m F.PMU_FLT_CTL_WORLDS [f]) 7 i.world

/-- R400: MSI-X vector 2 of every armed management port. -/
def pmuSignal (m : Mach) : Mach :=
  let ps := (List.range 128).filter (fun p => gfb m F.MBX_PORT_CFG_MGMT_EN [p] && !m.pmu.disarmed.contains p)
  { m with pmu := { m.pmu with disarmed := m.pmu.disarmed ++ ps },
           logs := { m.logs with msi := m.logs.msi ++ ps.map (fun p => (p, 2)) } }

/-- R399: OVF of counter `c`. -/
def ctrOverflow (m : Mach) (c : Nat) : Mach :=
  let m := ackEvent m F.PMU_CTR_CFG_OVF [c]
  let w := c / 64
  sf m F.PMU_OVF_SUMMARY_OVF [w] (gf m F.PMU_OVF_SUMMARY_OVF [w] ||| 2 ^ (c % 64))

/-- R397, R399: add `amt` to counter `c`. -/
def ctrAdd (now : Nat) (m : Mach) (c amt : Nat) : Mach :=
  let v := gf m F.PMU_CTR_VAL_VALUE [c]
  if gfb m F.PMU_CTR_CFG_MODE [c] then
    let m := sf m F.PMU_CTR_VAL_VALUE [c] ((v + amt) % 2 ^ 48)
    if v + amt ≥ 2 ^ 48 then pmuSignal (event (ctrOverflow m c) now 0x60 0 c pmNone ((v + amt) % 2 ^ 48)) else m
  else if v == 2 ^ 48 - 1 then m
  else
    let m := sf m F.PMU_CTR_VAL_VALUE [c] (min (v + amt) (2 ^ 48 - 1))
    if v + amt ≥ 2 ^ 48 - 1 then ctrOverflow m c else m

/-- Counters enabled. -/
def liveCounters (m : Mach) : List Nat := setEntries m 0xA010000 8 2048 63

/-- R397, R398: an event of code `ev` with its amount, unless the counters are frozen. -/
def count (m : Mach) (now ev amt : Nat) (i : MonInfo := {}) : Mach :=
  if gfb m F.PMU_CTL_FREEZE || amt == 0 then m
  else (liveCounters m).foldl (fun m c =>
    if gf m F.PMU_CTR_CFG_EVENT [c] == ev && (!gfb m F.PMU_CTR_CFG_FILT_EN [c] || passes m (gf m F.PMU_CTR_CFG_FILTER [c]) i)
    then ctrAdd now m c amt else m) m

/-! ### Tracking (R403-R405) -/

/-- R405: write an entry in the Tracking ring. -/
def trkPut (m : Mach) (now : Nat) (w0 w1 : Nat) : Mach :=
  let head := gf m F.PMU_TRK_PTR_HEAD
  let tail := gf m F.PMU_TRK_PTR_TAIL
  let full := (tail + 8192 - head) % 8192 ≥ 4096
  let put (m : Mach) : Mach :=
    sf { m with pmu := { m.pmu with trk := tsetList 0 m.pmu.trk (2 * (tail % 4096)) [BitVec.ofNat 64 w0, BitVec.ofNat 64 w1] } }
      F.PMU_TRK_PTR_TAIL [] ((tail + 1) % 8192)
  if !full then put { m with pmu := { m.pmu with trkFull := false } }
  else
    let m := satInc m F.PMU_TRK_STATUS_DROPPED
    let m := if m.pmu.trkFull then m else
      event (ackEvent { m with pmu := { m.pmu with trkFull := true } } F.PMU_TRK_STATUS_FULL) now 0x61 1 0 pmNone
        (gf m F.PMU_TRK_STATUS_DROPPED)
    if gfb m F.PMU_TRK_CFG_MODE then put (sf m F.PMU_TRK_PTR_HEAD [] ((head + 1) % 8192)) else m

/-- R404, R406: a message reaches a stage at a point. -/
def stage (m : Mach) (now : Nat) (pm : Postmark) (k point tick : Nat) : Mach :=
  let m := if m.pmu.tagged.contains pm then
      trkPut m now ((pmWord pm).toNat + k * 2 ^ 60) (tick % 2 ^ 48 + point * 2 ^ 48) else m
  if m.pmu.rdOpen.isEmpty then m
  else { m with pmu := { m.pmu with rdOpen := m.pmu.rdOpen.map (fun r =>
    if r.pm == pm && !r.stages.any (fun s => s.1 == k) then { r with stages := r.stages ++ [(k, tick)] } else r) } }

/-- R407: move a log pointer (slot and lap) on by one. -/
def rdNext (cap slot lap : Nat) : Nat × Nat := if slot + 1 ≥ cap then (0, 1 - lap) else (slot + 1, lap)

/-- R406: the delta to stage `k` from the stage reached before it, saturating at all ones in `w` bits. -/
def rdDelta (st : List (Nat × Nat)) (k w : Nat) : Nat :=
  match lfindIdx (fun s => s.1 == k) st 0 with
  | some (i, s) =>
    match (st.take i).getLast? with
    | some p => min ((s.2 + 2 ^ 48 - p.2) % 2 ^ 48) (2 ^ w - 1)
    | none => 0
  | none => 0

/-- R406: the fields of an open record that the filter tests. -/
def rdInfo (r : RdOpen) : MonInfo :=
  { ports := r.ports, src := some r.src, world := some r.world, mc := some r.mc, sc := some r.sc,
    pool := if r.addr == 0 then none else some r.addr }

/-- R406-R408: the message's life at this device has ended: write its record, where it passes the filter; one whose slot lies on a lost stack is not
written and counts in DROPPED (R435). -/
def rdClose (m : Mach) (now : Nat) (pm : Postmark) (port : Option Nat := none) : Mach :=
  match m.pmu.rdOpen.find? (fun r => r.pm == pm) with
  | none => m
  | some r =>
    let m := { m with pmu := { m.pmu with rdOpen := m.pmu.rdOpen.filter (fun x => x.pm != pm) } }
    let cap := gf m F.PMU_RD_CFG_CAP
    if !gfb m F.PMU_RD_CFG_EN || cap == 0 || !passes m (gf m F.PMU_RD_CFG_FILTER) (rdInfo r) then m
    else
      let p := port
      let stages := ((List.range 6).map (fun k => if r.stages.any (fun s => s.1 == k + 1) then 2 ^ k else 0)).sum
      let d := rdDelta r.stages
      let ws := [pmWord r.pm, BitVec.ofNat 64 (r.addr % 2 ^ 52 + r.opcode * 2 ^ 52),
        BitVec.ofNat 64 (r.src % 2 ^ 18 + r.dst % 2 ^ 18 * 2 ^ 18 + p.getD 0 * 2 ^ 36 + b2n p.isSome * 2 ^ 43 + r.sc * 2 ^ 44
          + r.mc * 2 ^ 46 + stages * 2 ^ 49),
        BitVec.ofNat 64 (d 1 8 + d 2 10 * 2 ^ 8 + d 3 8 * 2 ^ 18 + d 4 8 * 2 ^ 26 + d 5 14 * 2 ^ 34 + d 6 14 * 2 ^ 48)]
      let hs := gf m F.PMU_RD_PTR_HEAD
      let hl := gf m F.PMU_RD_PTR_HEAD_LAP
      let ts := gf m F.PMU_RD_PTR_TAIL
      let tl := gf m F.PMU_RD_PTR_TAIL_LAP
      let full := hs == ts && hl != tl
      let gone := gf m F.RAS_AVAIL_HBM_LOST != 0 && bitAt (gf m F.RAS_AVAIL_HBM_LOST) (Config.rdStack ts % 8)
      let put (m : Mach) : Mach :=
        let n := rdNext cap ts tl
        if gone then sf (sf (satInc m F.PMU_RD_STATUS_DROPPED) F.PMU_RD_PTR_TAIL [] n.1) F.PMU_RD_PTR_TAIL_LAP [] n.2
        else
        sf (sf { m with pmu := { m.pmu with rd := tsetList 0 m.pmu.rd (4 * ts) ws } } F.PMU_RD_PTR_TAIL [] n.1)
          F.PMU_RD_PTR_TAIL_LAP [] n.2
      if !full then put { m with pmu := { m.pmu with rdFull := false } }
      else
        let m := satInc m F.PMU_RD_STATUS_DROPPED
        let m := if m.pmu.rdFull then m else
          event (ackEvent { m with pmu := { m.pmu with rdFull := true } } F.PMU_RD_STATUS_FULL) now 0x62 1 0 pmNone
            (gf m F.PMU_RD_STATUS_DROPPED)
        if gfb m F.PMU_RD_CFG_MODE then
          let n := rdNext cap hs hl
          put (sf (sf m F.PMU_RD_PTR_HEAD [] n.1) F.PMU_RD_PTR_HEAD_LAP [] n.2)
        else m

/-- R404: the point of an attachment. -/
def attPoint (att : Nat) : Nat := if 132 ≤ att && att < 148 then 192 + (att - 132) else att

/-- R403: the state of a message's source tags it, and it passes the filter with the egress ports known so far. -/
def tags (m : Mach) (x : Msg) (egress : List Nat) : Bool :=
  gfb m F.PMU_TRK_CFG_EN && tget 0 m.pmu.lfsr x.pm.source % 2 ^ gf m F.PMU_TRK_CFG_N == 0 && !m.pmu.tagged.contains x.pm
    && (!gfb m F.PMU_TRK_CFG_FILT_EN || passes m (gf m F.PMU_TRK_CFG_FILTER) (msgInfo x egress))

/-- R403, R404: a message that is tagged, with its entry of stage 0. -/
def tag (m : Mach) (now : Nat) (x : Msg) (egress : List Nat) : Mach :=
  if tags m x egress then
    trkPut { m with pmu := { m.pmu with tagged := m.pmu.tagged ++ [x.pm] } } now (pmWord x.pm).toNat (x.pm.tick + attPoint x.att * 2 ^ 48)
  else m

/-- R396: R64 has chosen the egress ports of an arrived message: the filters judge it with them (DEDUCED: log entry 188). -/
def noteEgress (m : Mach) (now : Nat) (x : Msg) (egress : List Nat) : Mach :=
  if egress.isEmpty then m
  else tag { m with pmu := { m.pmu with rdOpen := m.pmu.rdOpen.map (fun r => if r.pm == x.pm then { r with ports := r.ports ++ egress } else r) } }
    now x egress

/-- R401: length of a bandwidth window in ticks; 0 for no windows. -/
def bwLen (m : Mach) : Nat := gf m F.PMU_BW_CFG_WIN * 4000

/-- R401: the place of window `w`, port `p`, direction `d` (0 in, 1 out). -/
def bwKey (w p d : Nat) : Nat := 256 * w + 2 * p + d

/-- R401: bytes at port `p` in the window in which Fabric Time `t` lies. -/
def bwAdd (m : Mach) (t p d bytes : Nat) : Mach :=
  if bwLen m == 0 then m else { m with pmu := { m.pmu with bw := tmod 0 m.pmu.bw (bwKey (t / bwLen m) p d) (· + bytes) } }

/-- R401, R403, R404, R406: a message has been postmarked: its bytes in, its Tracking state, and its open record. -/
def onPostmark (m : Mach) (now : Nat) (x : Msg) (egress : List Nat := []) : Mach :=
  let bytes := payloadBytes x.h + (if isIo x.h.kind then x.h.hdrBytes else 16)
  let m := if x.att < 128 then bwAdd m (expandTick now x.pm.tick) x.att 0 bytes else m
  -- an internal source's state has stepped as the postmark was assigned
  let m := tag (if x.att < 128 then trkStep m x.pm.source else m) now x egress
  if !gfb m F.PMU_RD_CFG_EN then m
  else { m with pmu := { m.pmu with rdOpen := m.pmu.rdOpen ++
    [⟨x.pm, opcodeOf x.h.kind, x.pool, x.mc, x.sc, x.src, x.dst, x.world, (msgInfo x egress).ports, [(0, x.pm.tick)]⟩] } }

/-- R406: the message with this postmark still has work at this device: an item, an unsent message derived from it, or itself
in a queue. -/
def lifeOpen (m : Mach) (pm : Postmark) : Bool :=
  let mine (x : Msg) : Bool := x.pm == pm || x.root == some pm
  m.home.slices.any (fun s => s.2.items.any (fun i => i.msg.pm == pm))
    || m.sof.transit.any (fun t => mine t.msg)
    || m.sof.queues.any (fun q => (q.2.sorting ++ q.2.settled).any (fun e => mine e.msg))

/-- R401: a message begins to leave at port `p`: its bytes out, stage 6, the counters, and the end of its life here when
it is no response derived from an item still open. -/
def onBegin (m : Mach) (now p : Nat) (x : Msg) : Mach :=
  let bytes := payloadBytes x.h + (if isIo x.h.kind then x.h.hdrBytes else 16)
  let m := bwAdd m now p 1 bytes
  let m := count (count m now 0x20 1 (msgInfo x [p])) now 0x21 (countedLen m p x.h) (msgInfo x [p])
  let m := stage m now x.pm 6 p (tick48 now)
  if lifeOpen m x.pm then m else rdClose m now x.pm (some p)

/-! ### The commands of the family -/

/-- R398: CTR_VALUE_WRITE: a write to a counter's VALUE; earlier events not yet counted are discarded with it. -/
def ctrValueWrite (c v : Nat) (_now : Nat) (m : Mach) : Mach :=
  if c < 2048 then sf m F.PMU_CTR_VAL_VALUE [c] v else m

/-- The meaning of CTR_VALUE_WRITE. -/
def execCtrValueWrite (c v : Nat) (s : State) := onMach (ctrValueWrite c v) s

/-- R398: PMU_CLEAR: every counter is set to 0. -/
def pmuClear (_now : Nat) (m : Mach) : Mach :=
  { m with regs := m.regs.filter (fun x => !(decide (0xA020000 ≤ x.1) && decide (x.1 < 0xA020000 + 8 * 2048) && x.1 % 8 == 0)) }

/-- The meaning of PMU_CLEAR. -/
def execPmuClear (s : State) := onMach pmuClear s

/-- R398: PMU_FREEZE: FREEZE of PMU_CTL takes the value written. -/
def pmuFreeze (on : Bool) (_now : Nat) (m : Mach) : Mach := sf m F.PMU_CTL_FREEZE [] (b2n on)

/-- The meaning of PMU_FREEZE. -/
def execPmuFreeze (on : Bool) (s : State) := onMach (pmuFreeze on) s

/-- R401: completed windows that are not yet readable, at window length `len`. -/
def bwEnded (now len : Nat) (m : Mach) : Nat := if m.pmu.bwNext == 0 then 1 else (now / len * len - m.pmu.bwNext) / len + 1

/-- R401: BW_WINDOW_END: the last complete window becomes readable, and WSEQ has advanced with every window completed. -/
def bwWindowEnd (now : Nat) (m : Mach) : Mach :=
  let len := bwLen m
  if len == 0 || now < len || now < m.pmu.bwNext then m
  else
    let w := now / len - 1
    let seq := (gf m F.PMU_BW_IN_WSEQ [0] + bwEnded now len m) % 65536
    let n := (List.range 128).foldl (fun n p =>
      let n := sf (sf n F.PMU_BW_IN_BYTES [p] (tget 0 m.pmu.bw (bwKey w p 0))) F.PMU_BW_IN_WSEQ [p] seq
      sf (sf n F.PMU_BW_OUT_BYTES [p] (tget 0 m.pmu.bw (bwKey w p 1))) F.PMU_BW_OUT_WSEQ [p] seq) m
    { n with pmu := { m.pmu with bw := m.pmu.bw.filter (fun x => decide (w < x.1 / 256)), bwNext := (w + 2) * len } }

/-- The meaning of BW_WINDOW_END. -/
def execBwWindowEnd (s : State) := onMach bwWindowEnd s

/-- R402: BW_WIN_CHANGE: the accumulating windows are discarded, and the next begins at the first multiple of the new
length at or after now. -/
def bwWinChange (win : Nat) (now : Nat) (m : Mach) : Mach :=
  let m := sf m F.PMU_BW_CFG_WIN [] win
  let len := win * 4000
  let start := if len == 0 then 0 else (now + len - 1) / len * len
  { m with pmu := { m.pmu with bw := [], bwNext := start + len } }

/-- The meaning of BW_WIN_CHANGE. A WIN above 1,000,000 is reserved, and writing it is undefined (R7). -/
def execBwWinChange (win : Nat) (s : State) : Host.Outcome State Fault Refusal :=
  if 1000000 < win then .fault (.reservedWrite (regAddr Reg.PMU_BW_CFG [])) else onMach (bwWinChange win) s

/-- R403: every source's state is seeded anew. -/
def reseedAll (m : Mach) : Mach := { m with pmu := { m.pmu with lfsr := [] } }

/-- R403: TRACKING_RESEED: a write of PMU_TRK_CFG that turns EN on or changes SEED reseeds every source. -/
def trackingReseed (w : Word) (_now : Nat) (m : Mach) : Mach :=
  let old := rd m Reg.PMU_TRK_CFG
  let new := BitVec.ofNat 64 (w.toNat &&& Reg.PMU_TRK_CFG.rw)
  let m := wr m Reg.PMU_TRK_CFG [] new
  if (getBits new 63 63 == 1 && getBits old 63 63 == 0) || getBits new 31 0 != getBits old 31 0 then reseedAll m else m

/-- A HEAD written to a ring of counts modulo `size`: forward to at most TAIL, or discarded and counted. -/
def headWrite (m : Mach) (head tail : FieldRef) (size v : Nat) : Mach :=
  let h := gf m head
  let t := gf m tail
  if (v + size - h) % size ≤ (t + size - h) % size then sf m head [] v else countDiscard m

/-- R405: TRK_HEAD_WRITE: Tracking entries are released. -/
def trkHeadWrite (v : Nat) (_now : Nat) (m : Mach) : Mach :=
  headWrite m F.PMU_TRK_PTR_HEAD F.PMU_TRK_PTR_TAIL 8192 (v % 8192)

/-- The meaning of TRK_HEAD_WRITE. -/
def execTrkHeadWrite (v : Nat) (s : State) := onMach (trkHeadWrite v) s

/-- R407: position of a slot and lap on a ring of two laps. -/
def rdPos (cap slot lap : Nat) : Nat := slot + lap * cap

/-- R407: RD_HEAD_WRITE: recorded-delivery records are released. -/
def rdHeadWrite (slot lap : Nat) (_now : Nat) (m : Mach) : Mach :=
  let cap := gf m F.PMU_RD_CFG_CAP
  let h := rdPos cap (gf m F.PMU_RD_PTR_HEAD) (gf m F.PMU_RD_PTR_HEAD_LAP)
  let t := rdPos cap (gf m F.PMU_RD_PTR_TAIL) (gf m F.PMU_RD_PTR_TAIL_LAP)
  let v := rdPos cap slot (lap % 2)
  if cap == 0 || slot ≥ cap then countDiscard m
  else if (v + 2 * cap - h) % (2 * cap) ≤ (t + 2 * cap - h) % (2 * cap) then
    sf (sf m F.PMU_RD_PTR_HEAD [] slot) F.PMU_RD_PTR_HEAD_LAP [] (lap % 2)
  else countDiscard m

/-- The meaning of RD_HEAD_WRITE. -/
def execRdHeadWrite (slot lap : Nat) (s : State) := onMach (rdHeadWrite slot lap) s

end Sys2Proof.Machine
end

