-- ==== Sys2Proof/Machine/Sorting.lean ====
section
/-!
DEFINITION. The sorting office (chapter 04): letters over the planes, broadcast marks and horizons, admission, the
answers a message gets when it is ended with error, and the commands on letters and planes.
-/

namespace Sys2Proof.Machine
open Sys2Proof

/-! ### Planes and letters (R82-R84) -/

/-- PLn_STATE of a plane (SOF_PLANE_STATUS). -/
def planeField (n : Nat) : FieldRef :=
  match n with
  | 0 => F.SOF_PLANE_STATUS_PL0_STATE
  | 1 => F.SOF_PLANE_STATUS_PL1_STATE
  | 2 => F.SOF_PLANE_STATUS_PL2_STATE
  | _ => F.SOF_PLANE_STATUS_PL3_STATE

/-- Planes now working. -/
def workingPlanes (m : Mach) : List Nat := (List.range 4).filter (fun n => gf m (planeField n) == 0)

/-- R82: the next working plane, in ascending cyclic order, after plane `p` (counted from 1; 0 for none yet). -/
def nextPlane (m : Mach) (p : Nat) : Option Nat :=
  ((List.range 4).map (fun i => (p + i) % 4)).find? (fun n => gf m (planeField n) == 0)

/-- SOURCE of an attachment (chapter 01): ports and engines their own, the Postmaster 144; a quadrant has none of its own. -/
def attSource (att : Nat) : Option Nat :=
  if att < 128 then some att else if 132 ≤ att && att < 148 then some (att - 4) else if att == 148 then some 144 else none

/-- The ordering point a target stands for, with the message's class (R41); none for targets that order nothing. -/
def pointOf (tgt : Target) (mc : Nat) : Option Nat :=
  match tgt with
  | .egress p => some (8 * p + mc)
  | .slice s => some (1024 + s)
  | .dispatcher => some (1088 + mc)
  | _ => none

/-- Ports of a multicast group that get a copy of a transit: neither its ingress (R72), nor one that cannot carry traffic or is fenced
(R109), nor one whose copy a flush has removed (R102). -/
def groupLive (m : Mach) (t : Transit) (g : Nat) : List Nat :=
  (groupPorts m g).filter (fun p => t.msg.att != p && canCarry m p && !contained m p && !t.cut.contains p)

/-- Every ordering point that a transit is bound for. -/
def pointsOf (m : Mach) (t : Transit) : List Nat :=
  if t.msg.h.kind == .hostRemoved && t.tgt == .postmaster then (List.range 64).map (1024 + ·)
  else match t.tgt with
  | .group g => (groupLive m t g).map (fun p => 8 * p + t.msg.mc)
  | tgt => (pointOf tgt t.msg.mc).toList

/-- Ordering points whose mark a transit holds back: those that have pinned it, or all that it is bound for (R42, R85). -/
def holdsAt (m : Mach) (t : Transit) : List Nat := if t.phase == .pinned then t.pins else pointsOf m t

/-- A message has not yet been admitted, nor ended. -/
def underWay (t : Transit) : Bool := t.phase != .admitted && t.phase != .sink

/-- TICKs of messages under way to slices that become items there. -/
def towardSlices (m : Mach) : List Nat :=
  (m.sof.transit.filter (fun t => underWay t && !isInput t.msg.h.kind && (match t.tgt with | .slice _ => true | _ => false))).map (fun t => t.msg.pm.tick)

/-- R39, R40, R41: the TICKs that source 145 or 146 may still give for slice `sl`: 16 ticks past an item, or the next multiple of 16 after it;
where what it would give is 64 ticks overdue already, it takes the current one. -/
def agentTicks (now src : Nat) (sl : Slice) : List Nat :=
  let after (t : Nat) : Nat := tickAdd (t / 16 * 16) 16
  let fresh (t from_ : Nat) : List Nat := if now < from_ + 64 then [t] else []
  let items := (sl.items.map (fun i =>
    if i.conf == 0 then [after i.msg.pm.tick] else fresh (after i.msg.pm.tick) (max i.confAt (expandTick now (tickAdd i.msg.pm.tick 16))))).flatten
  items ++ (if src == 146 then (if sl.sweepDue == 0 then [] else fresh (sl.sweepDue - 1) sl.sweepFrom)
    else (if sl.cleanDue == 0 then [] else fresh (sl.cleanDue - 1) sl.cleanFrom) ++ sl.heldWrites.filterMap (·.due))

/-- R39: TICKs that the first slots of parcels may take whose doorbells are still to be confirmed. -/
def doorbellTicks (m : Mach) : List Nat :=
  ((m.sof.transit.filter (fun t => t.tgt == .dispatcher && underWay t && t.msg.mc == 5)).map (fun t => t.msg.pm.tick)
    ++ (tget [] m.eng.intake 5).map (fun x => x.pm.tick)).map (fun t => tickAdd t 256)

/-- R41: the local mark a source may give: no later than the present tick, nor than a TICK that it can still give (R39, R40): to a message
it has scheduled, to what 145 and 146 give for each slice, to a census or a clean of the whole device, to an engine's due write, to
the cut-over of a sealed set; for a Courier port, than a flit that awaits the tag of its group (R301). -/
def localMark (now : Nat) (m : Mach) (src l : Nat) : Nat :=
  let sched := (m.sched.filter (fun x => x.source == src)).map (·.tick)
  let agents := if src == 145 || src == 146 then
      (m.home.slices.map (fun x => agentTicks now src x.2)).flatten ++ (towardSlices m).map (fun t => tickAdd (t / 16 * 16) 16)
        ++ (if src == 146 then m.home.setCensus.map (·.tick) ++ m.home.pairCensus.map (·.tick) else (m.home.cleanPm.map (·.tick)).toList)
    else []
  let due := if 128 ≤ src && src < 144 then
      ((m.eng.parcels.filter (fun p => p.engine == src - 128)).map (fun p => p.due.map (·.tick))).flatten
        ++ ((engineNext m.eng (src - 128)).map tick48).toList ++ doorbellTicks m
    else []
  let cuts := if src == 144 then m.amd.sets.map (fun c => tick48 c.cut) else []
  let pipe := if src < 128 then (tget ({} : Courier) m.courier src).open_.map (fun g => tick48 g.1) else []
  (sched ++ agents ++ due ++ cuts ++ pipe).foldl earlierTick (earlierTick l (tick48 now))

/-- R85: the broadcast mark of a source: the least of its local mark and the postmarks of its messages whose first letter
is sent and not acknowledged. -/
def broadcastMark (m : Mach) (source l : Nat) : Nat :=
  ((m.sof.transit.filter (fun t => t.phase == .flying && attSource t.msg.att == some source)).map (fun t => t.msg.pm.tick)).foldl
    earlierTick l

/-- R80: TARGET, an egress attachment or, with the group flag, a multicast group. -/
def targetCode (tgt : Target) : Nat :=
  match tgt with
  | .egress p | .ingress p => p
  | .group g => 2 ^ 16 + g
  | .slice s => 128 + s / 16
  | .dispatcher => 132
  | .engine e => 132 + e
  | .postmaster => 148

/-- R80: CHECK of letter `i` of a message, over its 64 bytes of payload and the other side-channel fields. -/
def letterCheckOf (t : Transit) (i : Nat) (last : Bool) (mark : Nat) : Nat :=
  let side := (pmWord t.msg.pm).toNat + 2 ^ 60 * (t.msg.att + 2 ^ 8 * (t.tag + 2 ^ 16 * (i + 2 ^ 6 * (b2n last
    + 4 * (targetCode t.tgt + 2 ^ 17 * (t.msg.mc + 8 * (t.msg.sc + 4 * mark)))))))
  (Config.letterCheck (leNat ((t.msg.h.data.drop (64 * i)).take 64) + 2 ^ 512 * side)).toNat

/-- R82: send letters `i`, `i+1`, … of a message across the working planes in rotation. -/
def sendLetters (now : Nat) (t : Transit) (mark : Nat) : Nat → Nat → Mach → Mach
  | _, 0, m => m
  | i, k + 1, m =>
    let att := t.msg.att
    match nextPlane m (tget 0 m.sof.rot att) with
    | none => m
    | some p =>
      let last := i + 1 == t.msg.n
      let l : Letter := { key := t.key, att := att, tag := t.tag, idx := i, last := last, plane := p, sentAt := now, mark := mark,
                          failed := false, check := letterCheckOf t i last mark }
      let s := m.sof
      sendLetters now t mark (i + 1) k
        { m with sof := { s with letters := s.letters ++ [l], rot := tset 0 s.rot att (p + 1) } }

/-- R85: the MARK that an attachment sends in its letters: its source's broadcast mark; a quadrant is no source, and sends 0. -/
def markOf (now : Nat) (m : Mach) (att : Nat) : Nat :=
  match attSource att with
  | some s => broadcastMark m s (localMark now m s (tick48 now))
  | none => 0

/-- Start a message on its way: its transit turns `flying` and its letters are sent. -/
def launch (now : Nat) (m : Mach) (t : Transit) : Mach :=
  let m := { m with sof := { m.sof with transit := m.sof.transit.map (fun u =>
    if u.key == t.key then { u with phase := .flying } else u) } }
  sendLetters now t (markOf now m t.msg.att) 0 t.msg.n m

/-- Enter a message at its attachment: held at the ingress for `why`, or sent at once (R79, R80). -/
def enter (now : Nat) (m : Mach) (x : Msg) (tgt : Target) (why : Option HoldWhy := none) : Mach :=
  let s := m.sof
  let tag := (tget 0 s.tags x.att + 1) % 65536
  let t : Transit := { key := s.nextKey, msg := x, tag := tag, tgt := tgt, got := [], phase := match why with | some w => .held w | none => .flying }
  let m := { m with sof := { s with nextKey := s.nextKey + 1, tags := tset 0 s.tags x.att tag, transit := s.transit ++ [t] } }
  if why.isSome then m else launch now m t

/-- The transit with a key. -/
def transitOf (m : Mach) (key : Nat) : Option Transit := m.sof.transit.find? (fun t => t.key == key)

/-- Drop a transit. -/
def dropTransit (m : Mach) (key : Nat) : Mach :=
  { m with sof := { m.sof with transit := m.sof.transit.filter (fun t => t.key != key) } }

/-- Set a transit's phase. -/
def setPhase (m : Mach) (key : Nat) (p : Phase) : Mach :=
  { m with sof := { m.sof with transit := m.sof.transit.map (fun t => if t.key == key then { t with phase := p } else t) } }

/-- All letters of a message have been received (or its transit is over). -/
def allReceived (m : Mach) (key n : Nat) : Bool :=
  match transitOf m key with
  | none => true
  | some t => decide (n ≤ t.got.length)

/-- Letters of a message received so far. -/
def receivedOf (m : Mach) (key n : Nat) : Nat :=
  match transitOf m key with
  | none => n
  | some t => t.got.length

/-- A message stands at its target's door: its first letter has been received and it is neither admitted nor ended. -/
def atDoor (t : Transit) : Bool := t.got.contains 0 && (t.phase == .flying || t.phase == .pinned)

/-! ### Marks and horizons (R41-R44, R85) -/

/-- The line an input concerns. -/
def inputLine (sl : Slice) (x : Msg) : Nat :=
  let id := x.h.tag / 64
  match sl.snoops.find? (fun n => n.id == id) with
  | some n => n.line
  | none => ((sl.accesses.find? (fun a => a.id == id)).map (·.line)).getD x.pool

/-- R38, R42: least postmarks of what slice `sl` can still produce: by its open items, its held snoops, and the items of the capacity agent
and of cleaning; and, once an input of `ins` is applied, by the items that wait for it. -/
def sliceProduces (sl : Slice) (ins : List Msg) : List Postmark :=
  (sl.items.filter (fun i => i.conf == 0)).map (fun i => i.msg.pm)
    ++ (sl.snoops.filter (fun n => !n.issued)).map (fun n => n.pm)
    ++ sl.sweepPm ++ sl.cleanPm ++ sl.censusPm.toList
    ++ (ins.map (fun x =>
      let line := inputLine sl x
      (sl.items.filter (fun i => i.conf != 0 && (i.line == line || i.stuck))).map (fun i => derivedPm i.msg.pm (laterTick i.tick x.pm.tick)))).flatten

/-- Postmarks that the device can still produce toward an egress under R38: at its slices, and for requests under way to a slice or
to the dispatcher, whose answers bear their own. -/
def producible (m : Mach) : List Postmark :=
  let toward (s : Nat) : List Msg := (m.sof.transit.filter (fun t => t.tgt == .slice s && underWay t && isInput t.msg.h.kind)).map (·.msg)
  (m.home.slices.map (fun x => sliceProduces x.2 (x.2.inputs.map (·.msg) ++ toward x.1))).flatten
    ++ (m.sof.transit.filter (fun t => underWay t && !isInput t.msg.h.kind && (match t.tgt with | .slice _ | .dispatcher => true | _ => false))).map (fun t => t.msg.pm)
    ++ (m.eng.intake.map (fun x => x.2.map (·.pm))).flatten

/-- R85: the mark of source `s` at ordering point `a`: the latest received, lowered by its pins and by what R42 names; none before the first
mark arrives. -/
def markAt (m : Mach) (a s : Nat) : Option Nat :=
  let g := tget 0 m.sof.marksAll s
  let l := tget 0 m.sof.marksAt (256 * a + s)
  let base := if l != 0 then some (l - 1) else if g != 0 then some (g - 1) else none
  let late := (m.sof.transit.filter (fun t => t.msg.pm.source == s && underWay t && (holdsAt m t).contains a)).map (fun t => t.msg.pm.tick)
  let prod := if a < 1024 then ((producible m).filter (fun p => p.source == s)).map (·.tick) else []
  base.map (fun b => (late ++ prod).foldl earlierTick b)

/-- R42: active sources: every internal source, and every configured port whose fence is not complete. -/
def activeSources (m : Mach) : List Nat :=
  ((List.range 128).filter (fun p => portExists m p && fstate m p != 2)) ++ (List.range 19).map (· + 128)

/-- R42: the horizon at ordering point `a` and the source that holds it; none while some active source has sent no mark. -/
def horizonHolder (m : Mach) (a : Nat) : Option (Nat × Nat) :=
  ((activeSources m).map (fun s => (markAt m a s).map (fun t => (t, s)))).foldl
    (fun acc x => match acc, x with
      | some none, _ => some none
      | _, none => some none
      | none, some y => some (some y)
      | some (some z), some y => some (some (if tickBefore y.1 z.1 then y else z))) none |>.join

/-- R44: does the horizon at `a` pass tick `t`? -/
def horizonPast (m : Mach) (a t : Nat) : Bool :=
  match horizonHolder m a with
  | some (h, _) => tickBefore t h
  | none => false

/-! ### Credits and pacing (R130, R264) -/

/-- R129: the credit channel of a message at a host or member port: M2S Req, RwD and BIRsp, S2M NDR and DRS, the three of CXL.cache each
way, and CXL.io posted, non-posted and completion. -/
def channelOf (k : MsgKind) : Nat :=
  if isM2SReq k then 0 else if isRwD k then 1 else if isBiRsp k then 2
  else match k with
  | .memData => 4
  | .d2hReq => 5 | .d2hRsp => 6 | .d2hData => 7
  | .h2dReq => 8 | .h2dRsp => 9 | .h2dData => 10
  | k => if isPosted k then 11 else if isNonPosted k then 12 else if isCpl k then 13 else 3

/-- R129: where the credits of a message's channel, on a Courier port of its class, are counted. -/
def creditKey (m : Mach) (x : Msg) : Nat := 16 * x.att + (if role m x.att == 3 then x.mc else channelOf x.h.kind)

/-- Credits returned to a sender. -/
def giveCredit (m : Mach) (key n : Nat) : Mach := { m with sof := { m.sof with credits := tmod 0 m.sof.credits key (· + n) } }

/-- R264: the pacer of port p (key p) or FLD f (key 128 + f) withholds credits: active and below 0. -/
def pacerHolds (m : Mach) (k : Nat) : Bool :=
  let b := tget ({} : Bucket) m.sof.pacer k
  b.en && decide (b.lvl < 0)

/-- R264: charge a pacer. -/
def chargePacer (t : Table Bucket) (k : Nat) (cost : Int) : Table Bucket :=
  tmod {} t k (fun b => if b.en then { b with lvl := b.lvl - cost } else b)

/-- R264: a credit may be returned when each pacer charged is at least 0. -/
def pacersAllow (m : Mach) (p : Nat) (f : Option Nat) : Bool :=
  !pacerHolds m p && (match f with | some f => !pacerHolds m (128 + f) | none => true)

/-- Bit c of WITHHELD: the port holds a refused or paced message of class c (SOF_ING_STATUS). -/
def withheldMask (m : Mach) (p : Nat) : Nat :=
  ((List.range 8).map (fun c =>
    if m.sof.transit.any (fun t => t.msg.att == p && t.msg.mc == c && (match t.phase with
        | .pinned => true | .held _ => true | _ => false))
      || m.sof.paced.any (fun k => k.port == p && k.mc == c) then 2 ^ c else 0)).sum

/-- WITHHOLD: an event for each bit of WITHHELD that turned from 0 to 1 at port `p`. -/
def withholdEvents (before : Nat) (m : Mach) (p : Nat) : Mach :=
  if p ≥ 128 then m
  else (List.range 8).foldl (fun m c =>
    if bitAt (withheldMask m p) c && !bitAt before c then ackEvent m F.SOF_ING_STATUS_WITHHOLD [p] else m) m

/-- R130, R131, R264: an admitted message gives back its credit, at once or when its pacers allow. The bytes it counts for its FLD's DevLoad
are those of its payload (DESIGN CHOICE: log entry 167). -/
def onAdmitted (m : Mach) (x : Msg) : Mach :=
  let p := x.att
  if p ≥ 128 || !x.credit then m
  else if role m p == 3 then giveCredit m (creditKey m x) x.n
  else
    let paced := x.mc == 2 || x.mc == 4 || x.mc == 5 || x.mc == 6
    let cost : Int := payloadBytes x.h + (if isIo x.h.kind then x.h.hdrBytes else 16) + gf m F.SCH_PORT_CFG_OVERHEAD [p]
    let f? := ownFld x
    let m := if !paced then m else
      let c1 := chargePacer m.sof.pacer p cost
      let c2 := match f? with | some f => chargePacer c1 (128 + f) cost | none => c1
      { m with sof := { m.sof with pacer := c2 } }
    let m := match f? with
      | some f => { m with sof := { m.sof with devload := tmod {} m.sof.devload f (fun d => { d with bytes := d.bytes + payloadBytes x.h }) } }
      | none => m
    let ch := channelOf x.h.kind
    let waits := paced && x.mc != 2 && (!pacersAllow m p f? ||
      m.sof.paced.any (fun c => c.port == p && c.channel == ch))
    if waits then withholdEvents (withheldMask m p) { m with sof := { m.sof with paced := m.sof.paced ++ [⟨p, x.mc, ch, f?⟩] } } p
    else giveCredit m (creditKey m x) 1

/-- R75, R102, R130: a message that ends before any admission gives back its credit, on a Courier port all its letters' (R103). -/
def discardCredit (m : Mach) (x : Msg) : Mach :=
  if x.att ≥ 128 || !x.credit then m else giveCredit m (creditKey m x) (if role m x.att == 3 then x.n else 1)

/-- R264: return the paced credits that the pacers now allow, in admission order on each channel. -/
def releasePaced (m : Mach) : Mach :=
  m.sof.paced.foldl (fun m c =>
    let blocked := m.sof.paced.any (fun d => d.port == c.port && d.channel == c.channel && decide (d ≠ c))
      && (m.sof.paced.find? (fun d => d.port == c.port && d.channel == c.channel) != some c)
    if !blocked && pacersAllow m c.port c.fld then
      let m := giveCredit m (16 * c.port + c.channel) 1
      { m with sof := { m.sof with paced := m.sof.paced.erase c } }
    else m) m

/-! ### Sending what the device produces -/

/-- Attachment of the quadrant of a slice. -/
def sliceAtt (s : Nat) : Nat := 128 + s / 16

/-- R64, R77: the route, at its postmark, of a message that the device produces. -/
def routeOut (m : Mach) (x : Msg) : Route := route (cfgAt m x.pm) x.src x.dst none 0

/-- Put an input into a slice (R140). -/
def slicePost (m : Mach) (s : Nat) (x : Msg) : Mach :=
  { m with home := { m.home with slices := tmod {} m.home.slices s (fun sl => { sl with inputs := sl.inputs ++ [⟨x⟩] }) } }

/-- R164: a removal of a host index at this device's quadrants, with its removal postmark. -/
def addRemoval (now : Nat) (m : Mach) (h : Nat) (pm : Postmark) (ticket : Nat) (quads : List Nat) : Mach :=
  quads.foldl (fun m q =>
    let m := sf m F.HQ_HOST_STATUS_SCRUB [q, h] 1
    let m := wr m Reg.HQ_REMOVE_STATUS [q] (statusWord ticket 2 0 0)
    let m := event m now 0x17 1 h pm q
    { m with home := { m.home with removals := m.home.removals ++ [⟨h, pm, q, [], ticket⟩] } }) m

/-- Remove every index of a postcode (R164). -/
def removePostcode (now : Nat) (m : Mach) (pc : Nat) (pm : Postmark) : Mach :=
  (List.range 4).foldl (fun m q => match hostIndex m q pc with
    | some h => addRemoval now m h pm 0 [q]
    | none => m) m

/-- The response to a request, from the attachment where it ends back to its requester (R63). -/
def replyTo (m : Mach) (x : Msg) (att : Nat) (k : MsgKind) (poison err : Bool) (status : CplStatus) (data : List Byte)
    (pm : Postmark) (sc : Nat) : Msg :=
  let h : Hdr := { x.h with
    kind := k, poison := poison, err := err, status := status, data := data, len := data.length, hdrBytes := 12,
    src := ownPostcode m, dst := x.src, mc := mailClass k 0, sc := sc, hop := 0 }
  let n := if isCpl k then min 64 (max 1 ((data.length + 63) / 64)) else 1
  { h := h, pm := pm, mc := mailClass k 0, sc := sc, src := if x.lost then ownPostcode m else x.dst, dst := x.src,
    pool := x.pool, fld := x.fld, att := att, n := n, arrival := x.arrival, credit := false,
    root := some (x.root.getD x.pm), world := x.world }

/-- Where a reply `y` to request `x` goes: the engine or the Postmaster that issued it, or by routing to the requester's postcode (R63, R64);
the cause where it is unroutable. -/
def replyTarget (m : Mach) (x y : Msg) : Sum Target Nat :=
  if 132 ≤ x.att && x.att < 148 then .inl (.engine (x.att - 132))
  else if x.att == 148 then .inl .postmaster
  else match routeOut m y with
    | .port p => .inl (.egress p)
    | .internal => .inl .postmaster
    | .nowhere c => .inr c

/-- Send a reply; an unroutable one is dead-lettered (R68). -/
def sendReply (now : Nat) (m : Mach) (x y : Msg) : Mach :=
  match replyTarget m x y with
  | .inl t => enter now m y t
  | .inr c => deadLetter (countUnrouted m y.dst c) now y 1 .discarded

/-- R104, R310: the answer a message gets when it is ended with error. -/
def errAnswer (x : Msg) : DlAnswer :=
  if isResponse x.h.kind || isBiSnp x.h.kind || isBiRsp x.h.kind then .discarded
  else if isNonPosted x.h.kind then .ur
  else if isRead x.h.kind || x.h.kind == .lineAtomic then .poison
  else .logged

/-- R104, R225, R244, R310: send the answers of a request ended with error, from attachment `att` with postmark `pm`. A CXL.cache request
takes poisoned data as a read does (DESIGN CHOICE: log entry 176). `line` is the status of a line operation's answer: .ca for a
stale one (R211).
Requests of a home slice are answered into the slice (R311). -/
def errReply (now : Nat) (m : Mach) (x : Msg) (att : Nat) (pm : Postmark) (line : CplStatus := .ok) : Mach :=
  let sc := x.sc
  let rep (m : Mach) (k : MsgKind) (poison err : Bool) (st : CplStatus) (data : List Byte) : Mach :=
    let y := replyTo m x att k poison err st data pm sc
    if 128 ≤ x.att && x.att < 132 then
      -- the answer names the member that it stands for
      slicePost m (x.h.tag % 64) { y with h := { y.h with tag := x.h.tag }, src := if att < 128 && role m att != 3 then portPostcode m att else y.src }
    else sendReply now m x y
  match x.h.kind with
  | .memRd | .memRdData =>
    let m := rep m .memData true true .ok (List.replicate 64 0)
    if 128 ≤ x.att && x.att < 132 then m else rep m .cmp false false .ok []
  | .memInv | .memInvNT | .memClnEvct | .memWr | .memWrPtl => rep m .cmp false (128 ≤ x.att && x.att < 132) .ok []
  | .biConflict => rep m .biConflictAck false false .ok []
  | .mrd | .mrdLk | .iord | .iowr | .cfgRd | .cfgWr | .fetchAdd | .swap | .cas => rep m .cpl false true .ur []
  | .d2hReq => rep m .h2dData true false .ok (List.replicate 64 0)
  | .lineRd | .lineAtomic => rep m .lineData true true line (List.replicate 64 0)
  | .lineWr => rep m .lineAck false true line []
  | .mirrorWr => rep m .mirrorCmp false true .ok []
  | _ => m

/-- End a message with error: its answer, and its dead-letter record (R68, R104, R310). -/
def endError (now : Nat) (m : Mach) (x : Msg) (cause : Nat) (port : Option Nat) (group : Option Nat := none)
    (maybe : Bool := false) (fence : Postmark := pmNone) : Mach :=
  let att := port.getD x.att
  -- R312: a notice that cannot be delivered is kept for the next session toward its home
  let notice := x.h.kind == .hostRemoved && x.att == 148
  let cause := if notice then 0x0D else cause
  let m := if notice then { m with home := { m.home with noticesDue := m.home.noticesDue ++ [(x.dst, x.h.hostPc)] } } else m
  let m := deadLetter m now x cause (errAnswer x) port group maybe fence
  if isResponse x.h.kind then m
  else if errAnswer x == .logged && (x.h.kind == .mwr || x.h.kind == .msg || x.h.kind == .msgD) then rdClose m now x.pm
  else errReply now m x att x.pm (if cause == 2 then .ca else .ok)

/-- R68: end a message as unroutable. A snoop's host is treated as removed at the snooping item's postmark (R164). -/
def endUnroutable (now : Nat) (m : Mach) (x : Msg) (cause : Nat) : Mach :=
  let m := countUnrouted m x.dst cause
  if isBiSnp x.h.kind && 128 ≤ x.att && x.att < 132 then
    removePostcode now (deadLetter m now x 1 .discarded) x.dst (x.root.getD x.pm)
  else endError now m x 1 none

/-- Send a message that the device itself produces toward a postcode (R38, R64). -/
def sendOut (now : Nat) (m : Mach) (x : Msg) : Mach :=
  match routeOut m x with
  | .port p => enter now m x (.egress p)
  | .internal => enter now m x .postmaster
  | .nowhere c => endUnroutable now m x c

/-- R396: the egress port that R64 chooses for a message that the device sends toward a postcode. -/
def sentPorts (m : Mach) (x : Msg) : List Nat := match routeOut m x with | .port p => [p] | _ => []

/-- R403, R406: the same for a message with a postmark of its own. -/
def sendNew (now : Nat) (m : Mach) (x : Msg) : Mach := sendOut now (onPostmark m now x (sentPorts m x)) x

/-! ### Admission (R87-R96, R107-R109) -/

/-- Egress queue number (R86). -/
def qno (p mc sc : Nat) : Nat := 32 * p + 4 * mc + sc

/-- A queue. -/
def queueOf (m : Mach) (q : Nat) : Queue := tget {} m.sof.queues q

/-- The machine with a queue changed. -/
def modQueue (m : Mach) (q : Nat) (f : Queue → Queue) : Mach :=
  { m with sof := { m.sof with queues := tmod {} m.sof.queues q f } }

/-- Egress state of a port. -/
def egOf (m : Mach) (p : Nat) : PortEg := tget {} m.sof.eg p

/-- The machine with a port's egress state changed. -/
def modEg (m : Mach) (p : Nat) (f : PortEg → PortEg) : Mach :=
  { m with sof := { m.sof with eg := tmod {} m.sof.eg p f } }

/-- Every entry of port `p`, class `mc`: queued, chosen next or leaving. -/
def pairEntries (m : Mach) (p mc : Nat) : List QEntry :=
  ((List.range 4).map (fun s => let q := queueOf m (qno p mc s); q.sorting ++ q.settled)).flatten
    ++ (match (egOf m p).leaving with | some l => if l.e.msg.mc == mc then [l.e] else [] | none => [])

/-- R88: shared sorter entries of port `p` in use. -/
def sorterUsed (m : Mach) (p : Nat) : Nat :=
  ((List.range 32).map (fun i => ((queueOf m (32 * p + i)).sorting.filter (fun e =>
    e.path == .onDie || e.path == .spilled)).length)).sum

/-- R88: the reserved sorter entry of a source at port `p` is free. -/
def reservedEntryFree (m : Mach) (p source : Nat) : Bool :=
  !(List.range 32).any (fun i => (queueOf m (32 * p + i)).sorting.any (fun e => e.path == .reserved && e.msg.pm.source == source))

/-- R93: the guarantee of a pair is unused. -/
def guaranteeFree (m : Mach) (p mc : Nat) : Bool := !(pairEntries m p mc).any (fun e => e.path == .guaranteed)

/-- R46: reserve letters of a source still free. -/
def reserveFree (m : Mach) (source : Nat) : Nat :=
  64 - ((m.sof.stored.filter (fun x => x.path == .reserved && x.source == source)).map (·.n)).sum

/-- R46: no earlier message of the same source is bound for the same point and not yet at it. -/
def oldestAt (m : Mach) (t : Transit) : Bool :=
  !m.sof.transit.any (fun u => u.key != t.key && u.msg.pm.source == t.msg.pm.source && u.phase != .admitted
    && u.phase != .sink && (pointsOf m u).any (fun a => (pointsOf m t).contains a) && pmBefore u.msg.pm t.msg.pm)

/-- R96: blocks a queue would hold after `n` more spilled letters. -/
def spillNeed (q : Queue) (n : Nat) : Nat :=
  let room := match q.blocks.getLast? with | some b => 51 - b.filled | none => 0
  (n - min n room + 50) / 51

/-- R96, R98: the spill test. -/
def spillFits (m : Mach) (p sc : Nat) (q : Queue) (n : Nat) : Bool :=
  let cap := if sc == 2 then gf m F.SOF_PORT_CFG_CAP_SC2 [p] else gf m F.SOF_PORT_CFG_CAP_SC3 [p]
  decide (q.blocks.length + spillNeed q n ≤ cap) && decide (mailbagUsed m.sof + spillNeed q n ≤ gf m F.SOF_MAILBAG_SIZE)

/-- R96: write `n` letters of message `key` into the open block, opening blocks as they fill. -/
def spillInto (key : Nat) : Nat → Nat → List SpillBlock → List SpillBlock
  | 0, _, bs => bs
  | _, 0, bs => bs
  | fuel + 1, n, bs =>
    match bs.getLast? with
    | some b =>
      if b.filled < 51 then
        let k := min n (51 - b.filled)
        spillInto key fuel (n - k) (bs.dropLast ++ [⟨b.filled + k, b.live ++ [(key, k)]⟩])
      else spillInto key fuel (n - min n 51) (bs ++ [⟨min n 51, [(key, min n 51)]⟩])
    | none => spillInto key fuel (n - min n 51) [⟨min n 51, [(key, min n 51)]⟩]

/-- R97, R106: a message's spilled letters have left: emptied blocks are freed. -/
def unspill (key : Nat) (bs : List SpillBlock) : List SpillBlock :=
  (bs.map (fun b => { b with live := b.live.filter (fun x => x.1 != key) })).filter (fun b => !b.live.isEmpty)

/-- R91: the threshold test of one queue. -/
def thresholdOk (m : Mach) (x : Msg) (q : Nat) : Bool :=
  decide (64 * occupancy m.sof q < 2 ^ alphaCode m x * freeLetters m.sof) && decide (x.n ≤ freeLetters m.sof)

/-- R89: an arrival-mode message settles at once when its source has no earlier-postmarked message in the sorting section. -/
def bypasses (q : Queue) (x : Msg) : Bool :=
  x.arrival && !q.sorting.any (fun e => e.msg.pm.source == x.pm.source && pmBefore e.msg.pm x.pm)

/-- R91: how a message for port `p` is admitted, or none when it is refused. -/
def admitPath (m : Mach) (t : Transit) (p : Nat) : Option Path :=
  let x := t.msg
  let q := queueOf m (qno p x.mc x.sc)
  let past := bypasses q x
  let entry := decide (sorterUsed m p < 1024) || past
  if entry && thresholdOk m x (qno p x.mc x.sc) then some .onDie
  else if entry && (x.sc == 2 || x.sc == 3) && x.mc != 7 && spillFits m p x.sc q x.n then some .spilled
  else if guaranteeFree m p x.mc then some .guaranteed
  else if oldestAt m t && decide (x.n ≤ reserveFree m x.pm.source) && (past || reservedEntryFree m p x.pm.source) then some .reserved
  else none

/-- Insert by postmark: ahead of every entry with a later postmark (R87). -/
def insertPm (e : QEntry) : List QEntry → List QEntry
  | [] => [e]
  | f :: fs => if pmBefore e.msg.pm f.msg.pm then e :: f :: fs else f :: insertPm e fs

/-- R87: letters of message `key` have been received for queue `q`: the last four stand in its tail pigeonhole. -/
def noteTail (m : Mach) (q key : Nat) (idx : List Nat) : Mach :=
  modQueue m q (fun x => let l := x.tail ++ idx.map (fun i => (key, i)); { x with tail := l.drop (l.length - 4) })

/-- R87: the head pigeonhole: the first four letters of the settled section. -/
def headPigeonhole (q : Queue) : List (Nat × Nat) := ((q.settled.map (fun e => (List.range e.msg.n).map (fun i => (e.key, i)))).flatten).take 4

/-- R87: the middle: the letters of a queue in neither pigeonhole, which the cell buffer or the Mailbag holds; none in a queue of at most
eight letters. -/
def middle (q : Queue) : List (Nat × Nat) :=
  let all := ((q.settled ++ q.sorting).map (fun e => (List.range e.msg.n).map (fun i => (e.key, i)))).flatten
  if all.length ≤ 8 then [] else all.filter (fun l => !(headPigeonhole q).contains l && !q.tail.contains l)

/-- R87, R89: place an entry in its queue, with the letters received so far. -/
def enqueue (m : Mach) (p : Nat) (e : QEntry) (got : List Nat) : Mach :=
  let q := qno p e.msg.mc e.msg.sc
  noteTail (modQueue m q (fun q =>
    let q := if e.path == .spilled then { q with blocks := spillInto e.key (e.msg.n + 1) e.msg.n q.blocks } else q
    if bypasses q e.msg then { q with settled := insertPm e q.settled } else { q with sorting := insertPm e q.sorting })) q e.key got

/-- LOW follows F downward (SOF_FREE). -/
def trackLow (m : Mach) : Mach :=
  let f := freeLetters m.sof
  if f < gf m F.SOF_FREE_LOW then sf m F.SOF_FREE_LOW [] f else m

/-- R93: a message of more than two letters streams on the guarantee: the egress holds its first two, and the ingress keeps the others. -/
def stream (m : Mach) (t : Transit) (path : Path) : Mach × Transit :=
  if path != .guaranteed || t.msg.n ≤ 2 then (m, t)
  else ({ m with sof := { m.sof with letters := m.sof.letters.filter (fun l => l.key != t.key || l.idx < 2) } },
    { t with got := t.got.filter (· < 2) })

/-- R396: the egress ports of a message bound for `tgt`. -/
def egressPorts (m : Mach) (x : Msg) (tgt : Target) : List Nat :=
  match tgt with
  | .egress p => [p]
  | .group g => (groupPorts (cfgAt m x.pm) g).filter (· != x.att)
  | _ => []

/-- R404: the ordering point at which a message bound for `tgt` is admitted; a multicast message is admitted at all of its ports at once. -/
def targetPoint (m : Mach) (x : Msg) (tgt : Target) : Nat :=
  match tgt with
  | .slice s => 128 + s
  | .engine e => 192 + e
  | tgt => (egressPorts m x tgt).headD 0

/-- An admitted message: stored once, its transit admitted (or over when whole), its credit given back. -/
def storeMsg (now : Nat) (m : Mach) (t : Transit) (path : Path) (refs : Nat) (group : Option Nat) : Mach :=
  let i := msgInfo t.msg (egressPorts m t.msg t.tgt)
  let m := count (count m now 0x10 1 i) now 0x11 (payloadBytes t.msg.h + (if isIo t.msg.h.kind then t.msg.h.hdrBytes else 16)) i
  let m := if path == .onDie then m else count m now 0x15 1 i
  let m := stage m now (t.msg.root.getD t.msg.pm) 1 (targetPoint m t.msg t.tgt) (tick48 now)
  let m := { m with sof := { m.sof with stored := m.sof.stored ++ [⟨t.key, path, t.msg.n, refs, t.msg.pm.source, group⟩] } }
  let m := trackLow (onAdmitted m t.msg)
  let (m, t) := stream m t path
  if t.got.length ≥ t.msg.n then dropTransit m t.key
  else { m with sof := { m.sof with transit := m.sof.transit.map (fun u =>
    if u.key == t.key then { u with phase := .admitted, got := t.got, pins := [] } else u) } }

/-- R85, R94: a refused message is pinned at the points that refused it, and its ingress withholds the class. -/
def refuse (now : Nat) (m : Mach) (t : Transit) (pins : List Nat) : Mach :=
  let m := count m now 0x12 1 (msgInfo t.msg (egressPorts m t.msg t.tgt))
  let before := withheldMask m t.msg.att
  withholdEvents before { m with sof := { m.sof with transit := m.sof.transit.map (fun u =>
    if u.key == t.key then { u with phase := .pinned, pins := pins } else u) } } t.msg.att

/-- R310: a message routed to a contained port is ended with error where it would be admitted; a response, as one whose record
is dead (R309). -/
def endContained (now : Nat) (m : Mach) (t : Transit) (p : Nat) : Mach :=
  let m := dropTransit m t.key
  let m := onAdmitted m t.msg
  if (role m p == 1 || role m p == 2) && (isS2MRsp t.msg.h.kind || isCpl t.msg.h.kind) then deadLetter m now t.msg 7 .discarded (some p)
  else if isBiSnp t.msg.h.kind then deadLetter m now t.msg 9 .discarded (some p) none false (fenceOf m p)
  else endError now m t.msg 9 (some p) none false (fenceOf m p)

/-- R71: a device-managed group is free again. -/
def freeGroup (m : Mach) (g : Nat) : Mach :=
  if g < 61440 then m
  else modSlice (setGroup m g []) ((g - 61440) / 64) (fun s => { s with groups := s.groups.filter (· != g) })

/-- R109, R187, R311: the copy of a home's multicast member write that port `p` does not take completes with error. -/
def failCopy (m : Mach) (x : Msg) (p : Nat) : Mach :=
  if isRwD x.h.kind && 128 ≤ x.att && x.att < 132 then
    slicePost m (x.h.tag % 64) { replyTo m x p .cmp false true .ok [] x.pm x.sc with src := portPostcode m p }
  else m

/-- R107: how a multicast message is admitted at port `p`, or none when it is refused there. -/
def groupPath (m : Mach) (t : Transit) (p : Nat) : Option Path :=
  let q := qno p t.msg.mc t.msg.sc
  if (decide (sorterUsed m p < 1024) || bypasses (queueOf m q) t.msg) && thresholdOk m t.msg q then some .onDie
  else if t.msg.n ≤ 2 && guaranteeFree m p t.msg.mc then some .guaranteed else none

/-- R67: a copy that came over a Courier link may not leave on one for a sixteenth time. -/
def hopsOver (m : Mach) (x : Msg) (p : Nat) : Bool := role m p == 3 && x.att < 128 && role m x.att == 3 && decide (x.h.hop + 1 > 15)

/-- R67, R109: the copy of a multicast message that port `p`, which takes none, would have had. A snoop's host is treated as removed at the
snooping item's postmark (R164). -/
def endCopy (now : Nat) (m : Mach) (x : Msg) (g p : Nat) : Mach :=
  if canCarry m p && contained m p then failCopy (deadLetter m now x 9 .discarded (some p) (some g) false (fenceOf m p)) x p
  else
    let m := if canCarry m p then deadLetter (countUnrouted m x.dst 5) now x 1 .discarded (some p) (some g)
      else deadLetter m now x 8 .discarded (some p) (some g)
    let m := failCopy m x p
    if isBiSnp x.h.kind then removePostcode now m (portPostcode m p) (x.root.getD x.pm) else m

/-- R107-R109: admission of a multicast message, all or nothing. -/
def admitGroup (now : Nat) (m : Mach) (t : Transit) (g : Nat) : Mach :=
  let ports := (groupPorts (cfgAt m t.msg.pm) g).filter (fun p => t.msg.att != p)
  if ports.isEmpty then endUnroutable now (freeGroup (onAdmitted (dropTransit m t.key) t.msg) g) t.msg 7
  else
    let ports := ports.filter (fun p => !t.cut.contains p)
    let live := ports.filter (fun p => canCarry m p && !contained m p && !hopsOver m t.msg p)
    let against := live.filter (fun p => (groupPath m t p).isNone)
    if !against.isEmpty then refuse now m t (against.map (fun p => 8 * p + t.msg.mc))
    else
      let m := (ports.filter (fun p => !live.contains p)).foldl (fun m p => endCopy now m t.msg g p) m
      let path (p : Nat) : Path := (groupPath m t p).getD .onDie
      let all := live.map (fun p => (p, path p))
      let m := all.foldl (fun m x => enqueue m x.1 ⟨t.key, t.msg, x.2, some g, 0⟩ t.got) m
      if live.isEmpty then freeGroup (onAdmitted (dropTransit m t.key) t.msg) g
      else storeMsg now m t (if all.any (fun x => x.2 == .onDie) then .onDie else .guaranteed) live.length
        (if g ≥ 61440 then some g else none)

/-- R91: admit, or refuse, a message whose first letter has reached its egress. -/
def admitAt (now : Nat) (m : Mach) (t : Transit) : Mach :=
  match t.tgt with
  | .egress p =>
    if contained m p then endContained now m t p
    else match admitPath m t p with
      | none => refuse now m t [8 * p + t.msg.mc]
      | some path =>
        let m := enqueue m p ⟨t.key, t.msg, path, none, 0⟩ (stream m t path).2.got
        let m := if path == .spilled then (match ownFld t.msg with
            | some f => { m with sof := { m.sof with devload := tmod {} m.sof.devload f (fun d => { d with spill := d.spill + 1 }) } }
            | none => m) else m
        storeMsg now m t path 1 none
  | .group g => admitGroup now m t g
  | _ => m

/-! ### Commands on marks, letters and planes -/

/-- R81, R85: BLANK_LETTER: source `src` sends its broadcast mark to every ordering point at once. -/
def blankLetter (src l : Nat) (now : Nat) (m : Mach) : Mach :=
  if src ≤ 146 then
    { m with sof := { m.sof with
        marksAll := tset 0 m.sof.marksAll src (broadcastMark m src (localMark now m src l) + 1)
        marksAt := m.sof.marksAt.filter (fun x => x.1 % 256 != src) } }
  else m

/-- The meaning of BLANK_LETTER. -/
def execBlankLetter (src l : Nat) (s : State) := onMach (blankLetter src l) s

/-- R85: the MARK field of a received letter updates its source's mark at the point it reached. -/
def noteMark (m : Mach) (t : Transit) (l : Letter) : Mach :=
  match attSource l.att with
  | none => m
  | some s => { m with sof := { m.sof with marksAt := (pointsOf m t).foldl (fun a p => tset 0 a (256 * p + s) (l.mark + 1)) m.sof.marksAt } }

/-- Insert a message by postmark. -/
def insertMsg (x : Msg) : List Msg → List Msg
  | [] => [x]
  | y :: ys => if pmBefore x.pm y.pm then x :: y :: ys else y :: insertMsg x ys

/-- R140, R197: a message whole at its target lands where no room need be found: an input in its slice's response slot,
where a speculative read may fill (R176), and a dispatcher message in its class's intake queue. -/
def land (m : Mach) (t : Transit) : Mach :=
  if t.got.length < t.msg.n then m
  else match t.tgt with
    | .slice s =>
      if isInput t.msg.h.kind then
        let m := if t.msg.h.kind == .memData && !t.msg.h.poison then modSlice m s (fun sl => specFill (setLost m) sl (t.msg.h.tag / 64)) else m
        slicePost (onAdmitted (dropTransit m t.key) t.msg) s t.msg
      else m
    | .postmaster =>
      if t.msg.h.kind == .hostRemoved || t.msg.h.kind == .time then m else onAdmitted (dropTransit m t.key) t.msg
    | .dispatcher => onAdmitted (dropTransit { m with eng := { m.eng with
        intake := tmod [] m.eng.intake t.msg.mc (insertMsg t.msg) } } t.key) t.msg
    | _ => m

/-- R83, R84: LETTER_HANDOVER: letter `i` of those in flight is handed to its attachment; `ok` is the verdict of its CHECK. A letter that has
failed, or whose plane was retired under it, must go again first. Only failed CHECKs count toward a plane's sixteen failures (DESIGN
CHOICE: log entry 169). -/
def letterHandover (i : Nat) (ok : Bool) (_now : Nat) (m : Mach) : Mach :=
  match m.sof.letters[i]? with
  | none => m
  | some l =>
    if l.failed then m
    else if !ok then
      { m with sof := { m.sof with letters := lmod (fun l => { l with failed := true }) m.sof.letters i,
                                   fails := tmod 0 m.sof.fails l.plane (· + 1) } }
    else
      let m := { m with sof := { m.sof with letters := ldrop m.sof.letters i, fails := tset 0 m.sof.fails l.plane 0 } }
      match transitOf m l.key with
      | none => m
      | some t =>
        if t.got.contains l.idx then m
        else
          let t' := { t with got := t.got ++ [l.idx] }
          let m := noteMark { m with sof := { m.sof with transit := m.sof.transit.map (fun u =>
            if u.key == t.key then t' else u) } } t l
          let m := match t.phase, t.tgt with
            | .admitted, .egress p => noteTail m (qno p t.msg.mc t.msg.sc) t.key [l.idx]
            | .admitted, .group g => (groupLive m t g).foldl (fun m p => noteTail m (qno p t.msg.mc t.msg.sc) t.key [l.idx]) m
            | _, _ => m
          if !underWay t && decide (t.msg.n ≤ t'.got.length) then dropTransit m t.key
          else land m t'

/-- The meaning of LETTER_HANDOVER. -/
def execLetterHandover (i : Nat) (ok : Bool) (s : State) := onMach (letterHandover i ok) s

/-- R83: LETTER_RESEND: a letter that failed its check, or has waited 64 ticks, goes again on the working plane after its own; the rotation of
its attachment stays where it is (DESIGN CHOICE: log entry 168). -/
def letterResend (i : Nat) (now : Nat) (m : Mach) : Mach :=
  match m.sof.letters[i]? with
  | none => m
  | some l =>
    if l.failed || decide (l.sentAt + 64 ≤ now) then
      match nextPlane m (l.plane + 1) with
      | none => m
      | some p => count
          { m with sof := { m.sof with letters := lmod (fun l => { l with plane := p, sentAt := now, failed := false }) m.sof.letters i } }
          now 0x30 1
    else m

/-- The meaning of LETTER_RESEND. -/
def execLetterResend (i : Nat) (s : State) := onMach (letterResend i) s

/-- R84: retire a plane: its state, its letters due again under R83, RETIRED, the RAS entry and the event. -/
def retirePlane (n : Nat) (now : Nat) (m : Mach) : Mach :=
  let m := setDomain (sf m (planeField n) [] 1) (20 + n) 3
  let m := { m with sof := { m.sof with letters := m.sof.letters.map (fun l => if l.plane == n then { l with failed := true } else l),
                                        fails := tset 0 m.sof.fails n 0 } }
  let m := ackEvent m F.SOF_PLANE_STATUS_RETIRED
  event (rasLog m now 0x04 2 n) now 0x11 2 n

/-- R84: PLANE_RETIRE: sixteen consecutive failed handovers, or a parity fault retires plane `n`. -/
def planeRetire (n : Nat) (parity : Bool) (now : Nat) (m : Mach) : Mach :=
  if n < 4 && gf m (planeField n) == 0 && (parity || decide (16 ≤ tget 0 m.sof.fails n)) then
    let m := if parity then rasLog m now 0x03 2 2 else m
    retirePlane n now m
  else m

/-- The meaning of PLANE_RETIRE. -/
def execPlaneRetire (n : Nat) (parity : Bool) (s : State) := onMachW (planeRetire n parity) s

/-- R84: SOF_PLANE_RETIRE: RETIRE bits written to SOF_PLANE_CTL; a write that would leave fewer than three planes working
is discarded and counted. -/
def sofPlaneRetire (bits : Nat) (now : Nat) (m : Mach) : Mach :=
  let ns := (workingPlanes m).filter (fun n => bitAt bits n)
  if bits % 16 == 0 then m
  else if (workingPlanes m).length - ns.length < 3 then countDiscard m
  else ns.foldl (fun m n => retirePlane n now m) m

/-- The meaning of SOF_PLANE_RETIRE. -/
def execSofPlaneRetire (bits : Nat) (s : State) := onMachW (sofPlaneRetire bits) s

/-- R84: SOF_PLANE_RESTORE: RESTORE bits start the self-test of retired planes. It brings back a plane whose domain is isolated; one whose
domain is off ignores it (DESIGN CHOICE: log entry 170). -/
def sofPlaneRestore (bits : Nat) (_now : Nat) (m : Mach) : Mach :=
  (List.range 4).foldl (fun m n =>
    if bitAt bits n && (gf m (planeField n) == 1 || gf m (planeField n) == 2) && domainState m (20 + n) != 0 then
      let m := sf m (planeField n) [] 3
      sf m F.SOF_PLANE_CTL_RESTORE [] (gf m F.SOF_PLANE_CTL_RESTORE ||| 2 ^ n)
    else m) m

/-- The meaning of SOF_PLANE_RESTORE. -/
def execSofPlaneRestore (bits : Nat) (s : State) := onMach (sofPlaneRestore bits) s

/-- R84: PLANE_SELF_TEST_DONE: the plane joins the rotations or stays retired, and RESTORE clears. -/
def planeSelfTestDone (n : Nat) (pass : Bool) (_now : Nat) (m : Mach) : Mach :=
  if n < 4 && gf m (planeField n) == 3 then
    let m := sf m (planeField n) [] (if pass then 0 else 1)
    let m := if pass then setDomain m (20 + n) 2 else m
    sf m F.SOF_PLANE_CTL_RESTORE [] (gf m F.SOF_PLANE_CTL_RESTORE &&& (15 - 2 ^ n))
  else m

/-- The meaning of PLANE_SELF_TEST_DONE. -/
def execPlaneSelfTestDone (n : Nat) (pass : Bool) (s : State) := onMach (planeSelfTestDone n pass) s

/-- R94: a message is behind an earlier refused message of the same ingress for the same queue. -/
def behindRefused (m : Mach) (t : Transit) : Bool :=
  m.sof.transit.any (fun u => decide (u.key < t.key) && u.phase == .pinned && u.msg.att == t.msg.att
    && (t.msg.att < 128 || u.msg.pm.source == t.msg.pm.source) && u.msg.mc == t.msg.mc && u.msg.sc == t.msg.sc
    && (pointsOf m u).any (fun a => (pointsOf m t).contains a))

/-- R91, R94: ADMIT_MESSAGE: transit `i`, whose first letter has reached its egress for the first time, is admitted or refused; behind a
refused one it is refused with it. -/
def admitMessage (i : Nat) (now : Nat) (m : Mach) : Mach :=
  match m.sof.transit[i]? with
  | some t =>
    if t.phase != .flying || !t.got.contains 0 then m
    else match t.tgt with
      | .egress _ | .group _ => if behindRefused m t then refuse now m t (pointsOf m t) else admitAt now m t
      | _ => m
  | none => m

/-- The meaning of ADMIT_MESSAGE. -/
def execAdmitMessage (i : Nat) (s : State) := onMachW (admitMessage i) s

/-- R94: REOFFER: a refused message is offered again. -/
def reoffer (i : Nat) (now : Nat) (m : Mach) : Mach :=
  match m.sof.transit[i]? with
  | some t => if t.phase == .pinned && !behindRefused m t then admitAt now m t else m
  | none => m

end Sys2Proof.Machine
end

