-- ==== Sys2Proof/Machine/Egress.lean ====
section
/-!
DEFINITION. The egress ports (chapters 04, 05, 11): settling, the notional schedule, shapers, gates and pacers, the
selection between classes, the leaving of messages, the Mailbag, flushes, and the DevLoad windows.
-/

namespace Sys2Proof.Machine
open Sys2Proof

/-! ### Time gates (R260-R263) -/

/-- R260: entry `k` of bank `b` of port `p`: INTERVAL and GATES. -/
def gateEntry (m : Mach) (p b k : Nat) : Nat × Nat :=
  let w := if k % 2 == 0 then gf m F.SCH_GATE_ENT_ENTRY_EVEN [p, b, k / 2] else gf m F.SCH_GATE_ENT_ENTRY_ODD [p, b, k / 2]
  (bitsOf w 31 8, bitsOf w 3 0)

/-- The first `n` entries of a bank. -/
def gateList (m : Mach) (p b n : Nat) : List (Nat × Nat) := (List.range n).map (gateEntry m p b)

/-- R261: the cycle of a list. -/
def gateCycle (l : List (Nat × Nat)) : Nat := (l.map (·.1)).sum

/-- The active list of a port. -/
def activeList (m : Mach) (p : Nat) : List (Nat × Nat) :=
  gateList m p (gf m F.SCH_GATE_INFO_ACTIVE [p]) (gf m F.SCH_GATE_INFO_ALEN [p])

/-- Ticks from offset `off` into entries `l` in which class `s` stays open; none for one that never closes within `l`. -/
def runIn (s : Nat) : List (Nat × Nat) → Nat → Nat → Option Nat
  | [], _, _ => none
  | (iv, g) :: l, off, acc =>
    if off ≥ iv then runIn s l (off - iv) acc
    else if bitAt g s then runIn s l 0 (acc + (iv - off))
    else some acc

/-- R261: ticks for which class `s` is open at port `p` from full tick `t` on; `none` when it never closes. The bounds are
read from the active list and an accepted pending one. -/
def openFor (m : Mach) (p s t : Nat) : Option Nat :=
  let nextS := tget 0 m.sof.gateNext p
  let bank := gf m F.SCH_GATE_INFO_ACTIVE [p]
  let pend := gateList m p (1 - bank) (tget 0 m.sof.gateLen p)
  let inList (l : List (Nat × Nat)) (start t : Nat) : Option Nat :=
    if l.isEmpty || gateCycle l == 0 then none else runIn s (l ++ l ++ l) ((t - start) % gateCycle l) 0
  if nextS == 0 then inList (activeList m p) (tget 0 m.sof.gateStart p) t
  else
    let sw := nextS - 1
    if t ≥ sw then inList pend sw t
    else match inList (activeList m p) (tget 0 m.sof.gateStart p) t with
      | some n => if t + n < sw then some n else (inList pend sw sw).map (· + (sw - t))
      | none => (inList pend sw sw).map (· + (sw - t))

/-- R261: the longest open run of class `s` in the active list's cycle; none when the class never closes. -/
def longestRun (m : Mach) (p s : Nat) : Option Nat :=
  let l := activeList m p
  if l.isEmpty || l.all (fun e => bitAt e.2 s) then none
  else some (((List.range l.length).map (fun i => (runIn s (l.drop i ++ l) 0 0).getD 0)).foldl max 0)

/-- R261: the gate admits a message of class `s` and serialisation time `ser` from tick `t`. -/
def gateFits (m : Mach) (p mc s ser t : Nat) : Bool :=
  if mc == 7 then true
  else match openFor m p s t with
    | none => true
    | some n =>
      if ser ≤ n then true
      else match longestRun m p s with
        | some r => decide (r < ser) && decide (0 < n) && (t == 0 || openFor m p s (t - 1) == some 0)
        | none => true

/-- R261, R262: the tick at which the open run of message `x` that holds tick `t` ends; none where it never does, or no gate applies. -/
def runEnd (m : Mach) (p : Nat) (x : Msg) (t : Nat) : Option Nat :=
  if x.mc == 7 then none else (openFor m p x.sc t).map (t + ·)

/-- The first tick after `t` at which an open run of class `s` begins, within the lists in force. -/
def nextOpen (m : Mach) (p s t : Nat) : Option Nat :=
  let l := activeList m p
  let start := tget 0 m.sof.gateStart p
  let c := gateCycle l
  let own := if c == 0 then [] else
    let bounds := (List.range (2 * l.length + 1)).map (fun i =>
      t - (t - start) % c + ((l ++ l).take i).foldl (fun a e => a + e.1) 0)
    bounds.filter (fun u => decide (t < u) && openFor m p s u != some 0)
  let sw := tget 0 m.sof.gateNext p
  let pend := if sw > t + 1 && openFor m p s (sw - 1) != some 0 then [sw - 1] else []
  (own ++ pend).foldl (fun a u => match a with | none => some u | some v => some (min u v)) none

/-! ### The notional schedule (R256) -/

/-- Weight of a service class at a port. -/
def weightSc (m : Mach) (p s : Nat) : Nat :=
  match s with
  | 0 => gf m F.SCH_PORT_CFG_W_SC0 [p]
  | 1 => gf m F.SCH_PORT_CFG_W_SC1 [p]
  | 2 => gf m F.SCH_PORT_CFG_W_SC2 [p]
  | _ => gf m F.SCH_PORT_CFG_W_SC3 [p]

/-- The head of a queue: its earliest message by postmark, with whether it is settled. -/
def headOf (q : Queue) : Option (QEntry × Bool) :=
  match q.settled, q.sorting with
  | [], [] => none
  | [], e :: _ => some (e, false)
  | e :: _, [] => some (e, true)
  | e :: _, f :: _ => if pmBefore f.msg.pm e.msg.pm then some (f, false) else some (e, true)

/-- R258, R259: the notional bucket in notional time `t`, as EN and its level: refilled at every multiple of 1,024 since it was charged, each
time by the settings of that tick; it holds BURST from the refill at which EN turns on. -/
def notionalLevel (b : Bucket) (t : Nat) : Bool × Int :=
  ((b.past ++ [({ last := t / 1024, en := b.en, inc := b.inc, burst := b.burst } : Setting)]).foldl (fun (a : Nat × Bool × Int) (s : Setting) =>
    let j := min s.last (t / 1024)
    if j ≤ a.1 then a
    else if !s.en then (j, false, 0)
    else if !a.2.1 then (j, true, (s.burst : Int))
    else (j, true, min (a.2.2 + (((j - a.1) * s.inc : Nat) : Int)) (s.burst : Int))) (b.nidx, b.nen, b.nlvl)).2

/-- R258: the shaper holds queue (p, c, s) at notional tick `t`. -/
def shaperHolds (m : Mach) (p c s t : Nat) : Bool :=
  let l := notionalLevel (tget {} m.sof.shapers (qno p c s)) t
  l.1 && decide (l.2 < 0)

/-- R256: is the head of queue (p, c, s) ready at notional tick `t`? -/
def readyAt (now : Nat) (m : Mach) (p c s t : Nat) (x : Msg) : Bool :=
  decide (expandTick now x.pm.tick < t)
    && (c == 7 || (gateFits m p c s (serTicks m p (countedLen m p x.h)) t && !shaperHolds m p c s t))

/-- R256: the least tick after `t` at which the head of queue (p, c, s) could become ready: its TICK + 1 if that is still to
come, else a refill if its shaper holds it, or the start of an open run if its gate does. -/
def readyNext (now : Nat) (m : Mach) (p c s t : Nat) (x : Msg) : Option Nat :=
  let a := expandTick now x.pm.tick + 1
  if t < a then some a
  else if c == 7 then none
  else
    let refill := if shaperHolds m p c s t then some ((t / 1024 + 1) * 1024) else none
    let open' := if gateFits m p c s (serTicks m p (countedLen m p x.h)) t then none else nextOpen m p s t
    match refill, open' with
    | some u, some v => some (min u v)
    | some u, none => some u
    | none, v => v

/-- The state of the notional server after message `x` of class `s` starts at its tick (R256), under configuration `cfg`. -/
def notionalStart (cfg m : Mach) (p c s : Nat) (n : Notional) (x : Msg) : Notional × Mach :=
  let b := countedLen cfg p x.h
  let n' := { n with t := n.t + serTicks cfg p b, deficit := lmod (· - (x.n : Int)) n.deficit s, mid := 1 }
  let m := { m with sof := { m.sof with shapers := tmod {} m.sof.shapers (qno p c s) (fun k =>
    let l := notionalLevel k n.t
    if l.1 && c != 7 then { k with nlvl := l.2 - b, nidx := n.t / 1024, nen := true } else k) } }
  (n', m)

/-- R256, R257: run the notional server of port `p` and class `c`, under the configuration of each notional tick (DEDUCED: log entry 184), until
it starts a message or must wait. It goes no further than `limit`, the horizon, up to which every message is known (R45); with none, to schedule an arrival-mode
message, it runs over what is present. -/
def notionalRun (now p c : Nat) (limit : Option Nat) : Nat → Notional → Mach → Option (QEntry × Nat) × Notional × Mach
  | 0, n, m => (none, n, m)
  | fuel + 1, n, m =>
    let s := n.s
    let cfg := cfgAt m ⟨tick48 n.t, 144, 0⟩
    if limit.any (fun h => decide (h < n.t)) then (none, n, m)
    else if n.mid == 2 then
      -- no message has started in four visits: where no head is ready, t moves on
      let heads := (List.range 4).filterMap (fun k => (headOf (queueOf m (qno p c k))).map (fun e => (k, e.1.msg)))
      let on (t : Nat) := notionalRun now p c limit fuel { n with mid := 0, idle := 0, s := (s + 1) % 4, t := t } m
      if heads.any (fun e => readyAt now cfg p c e.1 n.t e.2) then on n.t
      else
        match (heads.filterMap (fun e => readyNext now cfg p c e.1 n.t e.2)).foldl (fun a u => match a with
            | none => some u | some v => some (min u v)) (none : Option Nat) with
        | none => (none, n, m)
        | some u => if limit.all (fun h => decide (u < h)) then on u else (none, n, m)
    else
      let w : Int := weightSc cfg p s
      let d := if n.mid == 0 then min (n.deficit.getD s 0 + w) w else n.deficit.getD s 0
      let head := headOf (queueOf m (qno p c s))
      let n := { n with deficit := lmod (fun _ => d) n.deficit s }
      let pass (d' : Int) :=
        let idle := if n.mid == 1 then 0 else n.idle + 1
        let n := { n with deficit := lmod (fun _ => d') n.deficit s }
        notionalRun now p c limit fuel (if idle == 4 then { n with mid := 2, idle := 0 }
          else { n with mid := 0, idle := idle, s := (s + 1) % 4 }) m
      match head with
      | some (e, settled) =>
        if 0 < d && readyAt now cfg p c s n.t e.msg then
          if settled && limit.all (fun h => decide (n.t < h)) then
            let (n', m') := notionalStart cfg m p c s n e.msg
            (some (e, n.t), n', m')
          else (none, { n with mid := if n.mid == 1 then 1 else 3 }, m)
        else pass (if decide (expandTick now e.msg.pm.tick < n.t) then d else 0)
      | none => pass 0

/-- R257: some settled arrival-mode message of port `p` and class `c` stands at the head of its queue. -/
def arrivalHead (m : Mach) (p c : Nat) : Bool :=
  (List.range 4).any (fun k => match headOf (queueOf m (qno p c k)) with | some (e, st) => st && e.msg.arrival | none => false)

/-- R257 step 1: choose the class's next message, when it has none: the one that the notional schedule starts before the horizon, or an
arrival-mode message that the schedule over what is present starts first. -/
def chooseNext (now p : Nat) (m : Mach) (c : Nat) : Mach :=
  if ((egOf m p).next.any (fun x => x.1 == c)) then m
  else
    let k := 8 * p + c
    let limit := match horizonHolder m k with | some (h, _) => expandTick now h | none => 0
    let keep (n : Notional) (m : Mach) : Mach := { m with sof := { m.sof with notional := tset {} m.sof.notional k n } }
    let take (e : QEntry) (start : Nat) (m : Mach) : Mach := modEg m p (fun g => { g with next := tput g.next c (e, start) })
    match notionalRun now p c (some limit) 512 (tget {} m.sof.notional k) m with
    | (some (e, start), n, m) => take e start (keep n m)
    | (none, n, m) =>
      let m := keep n m
      if !arrivalHead m p c then m
      else match notionalRun now p c none 512 n m with
        | (some (e, start), n', m') => if e.msg.arrival then take e start (keep n' m') else m
        | (none, _, _) => m

/-! ### Beginning a message (R122, R125-R127, R257) -/

/-- R122: does the PCIe ordering table forbid `x` to pass an earlier posted message `y`? -/
def mayNotPass (x y : Msg) : Bool :=
  if isCpl x.h.kind && x.h.ro then false
  else if x.h.ido && (if isCpl x.h.kind then x.h.cplId != y.h.reqId else x.h.reqId != y.h.reqId) then false
  else true

/-- R122: the message is held behind a posted message of its source and traffic class at this egress. -/
def ordHeld (m : Mach) (p : Nat) (x : Msg) : Bool :=
  (x.mc == 6 || (x.mc == 0 && isCpl x.h.kind)) && isIo x.h.kind &&
    ((List.range 4).any (fun s => let q := queueOf m (qno p 5 s)
      (q.sorting ++ q.settled).any (fun e => isPosted e.msg.h.kind && e.msg.src == x.src && e.msg.h.tc == x.h.tc
        && pmBefore e.msg.pm x.pm && mayNotPass x e.msg)))

/-- R286, R291: sequenced flits that a message takes on a Courier link; each message begins a new flit. -/
def flitsOf (m : Mach) (p : Nat) (x : Msg) : Nat :=
  max 1 ((16 + 8 * hlenOf x.h + payloadBytes x.h + (if gfb m F.STN_CRL_STATUS_IDE_ON (st p) then 219 else 235))
    / (if gfb m F.STN_CRL_STATUS_IDE_ON (st p) then 220 else 236))

/-- R295: a Courier link has credits for all the message's letters. -/
def courierCredit (m : Mach) (p : Nat) (x : Msg) : Bool :=
  role m p != 3 || (let c := tget ({} : Courier) m.courier p
    gf m F.STN_CRL_STATUS_CSTATE (st p) == 3 && decide (x.n ≤ c.creds.getD x.mc 0)
      && decide ((c.txSeq + 4096 - c.ackNext) % 4096 + flitsOf m p x ≤ 4095))

/-- R97, R100: the letters of a message that its port needs before it may begin: CT + 1, or all; a spilled message whole in the refill
letters; one that streams on the guarantee as many as are held at the egress at a time (R93; DEDUCED: log entry 177). -/
def lettersReady (m : Mach) (p : Nat) (e : QEntry) : Bool :=
  let n := e.msg.n
  let ct := gf m F.SOF_PORT_CFG_CT [p] + 1
  match e.path with
  | .spilled => allReceived m e.key n && decide (n ≤ e.fetched)
  | .guaranteed => decide (min n (min 2 ct) ≤ receivedOf m e.key n)
  | _ => decide (min n ct ≤ receivedOf m e.key n)

/-- R257, R100: the class's next message may begin now. -/
def mayBegin (now : Nat) (m : Mach) (p c : Nat) : Bool :=
  match (egOf m p).next.find? (fun x => x.1 == c) with
  | none => false
  | some (_, e, _) =>
    let b := tget ({} : Bucket) m.sof.shapers (qno p c e.msg.sc)
    lettersReady m p e
      && gateFits m p c e.msg.sc (serTicks m p (countedLen m p e.msg.h)) now
      && (c == 7 || !b.en || decide (0 ≤ b.lvl))
      && !ordHeld m p e.msg && courierCredit m p e.msg

/-- The classes that may begin a message (R257 step 4). -/
def eligible (now : Nat) (m : Mach) (p : Nat) : List Nat := (List.range 8).filter (mayBegin now m p)

/-- Weight of a mail class at a port (R126). -/
def weightMc (m : Mach) (p c : Nat) : Nat :=
  match c with
  | 0 => gf m F.SOF_MC_CFG_W_MC0 [p]
  | 1 => gf m F.SOF_MC_CFG_W_MC1 [p]
  | 2 => gf m F.SOF_MC_CFG_W_MC2 [p]
  | 3 => gf m F.SOF_MC_CFG_W_MC3 [p]
  | 4 => gf m F.SOF_MC_CFG_W_MC4 [p]
  | 5 => gf m F.SOF_MC_CFG_W_MC5 [p]
  | _ => gf m F.SOF_MC_CFG_W_MC6 [p]

/-- R126: weighted round robin: the class that begins next, with the credits and the visit it leaves. -/
def wrr (m : Mach) (p : Nat) (el : List Nat) : Nat → PortEg → Option Nat × PortEg
  | 0, g => (none, g)
  | fuel + 1, g =>
    let c := g.turn
    let g := if g.inTurn then g else { g with credit := lmod (· + (weightMc m p c : Int)) g.credit c, inTurn := true }
    let k := g.credit.getD c 0
    if el.contains c && 0 < k then (some c, g)
    else
      let k' := if !el.contains c && 0 < k then 0 else k
      wrr m p el fuel { g with credit := lmod (fun _ => k') g.credit c, inTurn := false, turn := (c + 1) % 7 }

/-- R127: MC7 may take `n` more letters while another class is eligible. -/
def mc7Allowed (g : PortEg) (n : Nat) (others : Bool) : Bool :=
  !others || decide (((g.recent.take (64 - min n 64)).filter id).length + n ≤ 16)

/-- R126: what eligibility changes: newly eligible classes count from 0, classes past 64 letters become urgent, lower
numbers first, and a class with no eligible message loses a positive credit. -/
def noteEligible (el : List Nat) (g : PortEg) : PortEg :=
  let fresh := el.filter (fun c => !g.wasElig.contains c)
  let others := fresh.foldl (fun o c => lmod (fun _ => 0) o c) g.others
  let urgent := g.urgent.filter (fun c => el.contains c)
  let add := (List.range 7).filter (fun c => el.contains c && !urgent.contains c && 64 ≤ others.getD c 0)
  let credit := (List.range 7).map (fun c => let k := g.credit.getD c 0; if !el.contains c && 0 < k then 0 else k)
  { g with others := others, wasElig := el, urgent := urgent ++ add, credit := credit }

/-- R126: visits after which some eligible class has a positive credit. -/
def wrrFuel (g : PortEg) : Nat := 7 * ((g.credit.map (fun k => (-k).toNat)).foldl max 0 + 2)

/-- R125: the class that begins a message now, with the selection state after the choice. -/
def selectClass (m : Mach) (p : Nat) (el : List Nat) (n7 : Nat) (g : PortEg) : Option Nat × PortEg :=
  let rest := el.filter (· != 7)
  if el.contains 7 && mc7Allowed g n7 (!rest.isEmpty) then (some 7, g)
  else match g.urgent.head? with
    | some c => (some c, { g with urgent := g.urgent.tail })
    | none => if rest.isEmpty then (none, g) else wrr m p rest (wrrFuel g) g

/-- R126: a begun message of `n` letters of class `c` counts against the credit and the urgency of the others. -/
def noteBegun (c n : Nat) (g : PortEg) : PortEg :=
  let recent := (List.replicate (min n 64) (c == 7) ++ g.recent).take 63
  if c == 7 then { g with recent := recent }
  else
    let others := (List.range 7).map (fun k => if k == c then 0 else g.others.getD k 0 + n)
    { g with recent := recent, credit := lmod (· - (n : Int)) g.credit c, others := others,
             urgent := g.urgent.filter (· != c), wasElig := g.wasElig.filter (· != c) }

/-- R118: the tick from which each class has been eligible with no letter leaving. -/
def noteStall (now : Nat) (el : List Nat) (begun : Option Nat) (g : PortEg) : PortEg :=
  { g with stallFrom := (List.range 8).map (fun c =>
      if !el.contains c || begun == some c then 0
      else if g.stallFrom.getD c 0 == 0 then now + 1 else g.stallFrom.getD c 0) }

/-- The machine without an entry in its queue. -/
def unqueue (m : Mach) (p : Nat) (e : QEntry) : Mach :=
  let m := modQueue m (qno p e.msg.mc e.msg.sc) (fun q =>
    { q with settled := q.settled.filter (fun f => f.key != e.key), sorting := q.sorting.filter (fun f => f.key != e.key) })
  modEg m p (fun g => { g with next := g.next.filter (fun x => x.2.1.key != e.key) })

/-- R71, R108: a reference to a stored message is dropped; at the last one its letters return to their store, and a
device-managed group is freed. -/
def dropRef (m : Mach) (key : Nat) : Mach :=
  match m.sof.stored.find? (fun x => x.key == key) with
  | none => m
  | some x =>
    if x.refs ≤ 1 then
      let m := { m with sof := { m.sof with stored := m.sof.stored.filter (fun y => y.key != key) } }
      match x.group with
      | some g => freeGroup m g
      | none => m
    else { m with sof := { m.sof with stored := m.sof.stored.map (fun y => if y.key == key then { y with refs := y.refs - 1 } else y) } }

/-- R103: the rest of a message's letters are completed into the discard sink. -/
def sinkRest (m : Mach) (key n : Nat) : Mach := if allReceived m key n then m else setPhase m key .sink

/-- R87, R97, R106: a message's letters leave its queue's stores: Mailbag blocks that they empty are freed. -/
def leaveQueue (m : Mach) (p : Nat) (e : QEntry) : Mach :=
  modQueue m (qno p e.msg.mc e.msg.sc) (fun q => { q with blocks := unspill e.key q.blocks, tail := q.tail.filter (fun l => l.1 != e.key) })

/-- Everything an entry holds is released (R106, R108). -/
def releaseEntry (m : Mach) (p : Nat) (e : QEntry) : Mach :=
  let m := leaveQueue (unqueue m p e) p e
  dropRef (sinkRest m e.key e.msg.n) e.key

/-- R309: the record a response answers at port `p`. -/
def recordFor (m : Mach) (p : Nat) (x : Msg) : Option ReqRec :=
  (tget [] m.sof.recs p).find? (fun r => r.tag == x.h.tag && r.io == isCpl x.h.kind && (!r.io || r.reqId == x.h.reqId))

/-- R148, R309: a response that ends the request of record `r`: of a CXL.mem read the second of its data and its NDR, of any other the NDR; of
a CXL.io request the completion whose bytes are the last. -/
def endsRequest (r : ReqRec) (x : Msg) : Bool :=
  if isCpl x.h.kind then !(x.h.kind == .cplD && decide (x.h.data.length < x.h.len))
  else if r.msg.h.kind == .memRd || r.msg.h.kind == .memRdData then r.half else x.h.kind != .memData

/-- R309: responses that the requester records of host and member ports check. -/
def checkedResponse (m : Mach) (p : Nat) (x : Msg) : Bool :=
  (role m p == 1 || role m p == 2) && (isS2MRsp x.h.kind || isCpl x.h.kind)

/-- R134: the reported level of the FLD at position `k` of port `p`; 0 where none is bound there. -/
def devLoadAt (m : Mach) (p k : Nat) : Nat :=
  match fldAt m p k with
  | some f => if gfb m F.TEN_FLD_STATUS_BOUND [f] then bitsOf (gf m F.SOF_DEVLOAD_STATUS_LEVELS [p]) (2 * k + 1) (2 * k) else 0
  | none => 0

/-- R293: the address field of the message's header section on a Courier link holds a pool address. -/
def poolAddressed (h : Hdr) : Bool :=
  isMem h.kind || h.kind == .lineRd || h.kind == .lineWr || h.kind == .lineAtomic || h.kind == .mirrorWr || (isIo h.kind && h.ioTo == .pool)

/-- The message as the port sends it: at a host port the level of the FLD that its record names in the DevLoad field, which a response for no
FLD keeps as it came (R132; DESIGN CHOICE: log entry 171); on a Courier link the pool address (R293) and the hop count (R67). -/
def asSent (m : Mach) (p : Nat) (x : Msg) : Msg :=
  let h := x.h
  let h := if role m p == 1 && isS2MRsp h.kind then
      { h with devLoad := match (recordFor m p x).bind (fun r => r.msg.fld) with
          | some f => devLoadAt m p (gf m F.TEN_FLD_CFG_POS [f])
          | none => h.devLoad }
    else h
  let h := if role m p == 3 then
      { h with src := x.src, dst := x.dst, mc := x.mc, sc := x.sc, sentPm := pmWord x.pm,
               addr := if poolAddressed h then x.pool else h.addr,
               hop := if x.att < 128 && role m x.att == 3 && x.credit then h.hop + 1 else 0 }
    else h
  let h := if role m p == 1 && isCache h.kind then { h with cacheId := cacheIdOf m p x.src } else h
  -- the copy of a multicast snoop that leaves at a host port is for that host (R71)
  if role m p == 1 && isBiSnp h.kind then { x with h := h, dst := portPostcode m p } else { x with h := h }

/-- R226: complete a snoop that the port's host cannot address as if by BIRspI, and log it with cause 5. -/
def noReverse (now p : Nat) (m : Mach) (e : QEntry) (f : Option Nat) : Mach :=
  let m := releaseEntry m p e
  let m := xlateFault m now e.msg.pm e.msg.src 5 f 0 e.msg.pool
  let y : Msg := { replyTo m e.msg p .biRspI false false .ok [] e.msg.pm e.msg.sc with mc := 1, src := portPostcode m p }
  if e.msg.src == ownPostcode m then slicePost m (e.msg.h.tag % 64) y else sendOut now m y

/-- A message begins to leave port `p` (R257): its charges, its records and the wire. -/
def beginLeave (now p : Nat) (m : Mach) (e : QEntry) : Mach :=
  let x := e.msg
  let b := countedLen m p x.h
  let y := asSent m p x
  let m := unqueue m p e
  let m := { m with sof := { m.sof with shapers := tmod {} m.sof.shapers (qno p x.mc x.sc) (fun k =>
    if k.en && x.mc != 7 then { k with lvl := k.lvl - b } else k) } }
  let m := modEg m p (fun g => { g with leaving := some { e := e, began := now, closes := runEnd m p x now } })
  let m := if checkedResponse m p x then (match recordFor m p x with
      | none => m
      | some r =>
        let rest (r' : Option ReqRec) : Mach := { m with sof := { m.sof with
          recs := tmod [] m.sof.recs p (fun rs => rs.erase r ++ r'.toList) } }
        if !endsRequest r x then (if isCpl x.h.kind then m else rest (some { r with half := true }))
        else if r.ur then
          -- R246: the allowed parts are answered, and a completion with UR ends the request
          let y : Msg := { x with h := { x.h with kind := .cpl, status := .ur, data := [], len := 0 }, n := 1, att := 148 }
          enter now (rest (some { r with ur := false })) y (.egress p)
        else rest none)
    else m
  let m := if isNonPosted x.h.kind || isM2SReq x.h.kind || isRwD x.h.kind || x.h.kind == .mwr then
      (if role m p == 3 then
        { m with sof := { m.sof with
            recs := m.sof.recs.map (fun y => (y.1, y.2.map (fun r => if r.msg.pm == x.pm then { r with via := some p } else r)))
            unreceipted := m.sof.unreceipted.map (fun u => if u.pm == x.pm then { u with via := some p } else u) } }
      else m)
    else m
  let m := if role m p == 3 && (x.h.kind == .lineRd || x.h.kind == .lineWr || x.h.kind == .lineAtomic) then
      { m with eng := { m.eng with parcels := m.eng.parcels.map (fun (k : Parcel) => { k with
          flying := k.flying.map (fun o => if o.tag == x.h.etag then { o with via := some p } else o) }) } }
    else m
  let m := if isBiSnp x.h.kind then
      { m with sof := { m.sof with snoopSeen := m.sof.snoopSeen ++ [⟨p, x.h.tag, x.src⟩] } } else m
  let y := if role m p == 3 then { y with h := { y.h with group := e.group } } else y
  let m := if role m p == 3 then
      { m with courier := tmod {} m.courier p (fun c =>
          { c with
            creds := lmod (fun k => k - x.n) c.creds x.mc
            txSeq := (c.txSeq + flitsOf m p x) % 4096
            retry := c.retry ++ [((c.txSeq + flitsOf m p x + 4095) % 4096, [y])] }) } else m
  let y := match isBiSnp x.h.kind && role m p == 1, reverseMap m p x.pool with
    | true, some (f, dpa) => { y with h := { y.h with addr := (hdmHpa m f dpa).getD 0 } }
    | _, _ => y
  let m := { m with sof := { m.sof with wire := m.sof.wire ++ [(p, y)] } }
  onBegin m now p { x with pm := x.root.getD x.pm }

/-- R257, R309, R226: the chosen class begins its next message; a response with no live record is discarded instead, and
a snoop the host cannot address is completed at the egress. -/
def beginClass (now p : Nat) (m : Mach) (c : Nat) : Mach :=
  match (egOf m p).next.find? (fun x => x.1 == c) with
  | none => m
  | some (_, e, _) =>
    if checkedResponse m p e.msg && !((recordFor m p e.msg).any (fun r => r.live)) then
      deadLetter (releaseEntry m p e) now e.msg 7 .discarded (some p)
    else if isBiSnp e.msg.h.kind && role m p == 1 then
      match reverseMap m p e.msg.pool with
      | none => noReverse now p m e none
      | some (f, dpa) => if (hdmHpa m f dpa).isNone then noReverse now p m e (some f) else beginLeave now p m e
    else beginLeave now p m e

/-- R125, R257: EGRESS_BEGIN at port `p`; `held` are the classes for which the partner of a host or member link gives no
credits, which is what runs the timer of R118. -/
def egressBegin (p : Nat) (held : List Nat) (now : Nat) (m : Mach) : Mach :=
  if p ≥ 128 || (egOf m p).leaving.isSome || contained m p then m
  else
    let m := (List.range 8).foldl (chooseNext now p) m
    let may := eligible now m p
    let el := may.filter (fun c => role m p == 3 || !held.contains c)
    let n7 := match (egOf m p).next.find? (fun x => x.1 == 7) with | some (_, e, _) => e.msg.n | none => 1
    let g := noteEligible el (egOf m p)
    let (c, g) := selectClass m p el n7 g
    let g := noteStall now may c g
    match c with
    | none => modEg m p (fun _ => g)
    | some c =>
      let n := match (egOf m p).next.find? (fun x => x.1 == c) with | some (_, e, _) => e.msg.n | none => 0
      beginClass now p (modEg m p (fun _ => noteBegun c n g)) c

/-- The meaning of EGRESS_BEGIN. -/
def execEgressBegin (p : Nat) (held : List Nat) (s : State) := onMachW (egressBegin p held) s

/-- R101: the port needs a letter of the leaving message `x` that has not been received. -/
def underrun (now p : Nat) (x : Msg) (m : Mach) : Mach := count (ackEvent m F.SOF_PORT_STATUS_UNDERRUN [p]) now 0x22 1 (msgInfo x [p])

/-- R103: a message is nullified or voided as it leaves at port `p`. -/
def nullify (now p : Nat) (x : Msg) (m : Mach) : Mach :=
  count { m with sof := { m.sof with nullified := m.sof.nullified ++ [(p, x)] } } now 0x23 1 (msgInfo x [p])

/-- R262: the leaving message outlasts its open run. -/
def overruns (now : Nat) (l : Leaving) : Bool := l.closes.any (fun t => decide (t < now))

/-- R93: the letters held of a message that streams on the guarantee have left, and its ingress sends the next two. -/
def streamOn (now p : Nat) (m : Mach) (l : Leaving) : Mach :=
  match l.e.path, transitOf m l.e.key with
  | .guaranteed, some t =>
    if m.sof.letters.any (fun k => k.key == l.e.key) then m
    else
      let got := t.got.length
      sendLetters now t (markOf now m t.msg.att) got (min 2 (t.msg.n - got)) (modEg m p (fun g => { g with leaving := some { l with left := got } }))
  | _, _ => m

/-- R93, R101, R108, R262: MESSAGE_LEAVE_DONE at port `p`: the last letter leaves. While letters are still to come the port
underruns instead. -/
def messageLeaveDone (p : Nat) (now : Nat) (m : Mach) : Mach :=
  match (egOf m p).leaving with
  | none => m
  | some l =>
    if !allReceived m l.e.key l.e.msg.n then streamOn now p (underrun now p l.e.msg m) l
    else
      let m := if overruns now l then ackEvent m F.SCH_GATE_INFO_OVERRUN [p] else m
      let m := modEg m p (fun g => { g with leaving := none })
      dropRef (leaveQueue m p l.e) l.e.key

/-- The meaning of MESSAGE_LEAVE_DONE. -/
def execMessageLeaveDone (p : Nat) (s : State) := onMachW (messageLeaveDone p) s

/-- R89: arrival-mode messages of the sorting section with no earlier-postmarked message of their source left there take their places in the
settled section. -/
def settleArrivals (x : Queue) : Queue :=
  x.sorting.foldl (fun x e =>
    let rest := x.sorting.filter (fun f => f.key != e.key)
    if bypasses { x with sorting := rest } e.msg then { x with sorting := rest, settled := insertPm e x.settled } else x) x

/-- R87: the head of the sorting section, once the horizon has passed its TICK, moves to the tail of the settled section. -/
def settleHead (past : Nat → Bool) (x : Queue) : Queue :=
  match x.sorting with
  | e :: rest => if past e.msg.pm.tick then { x with sorting := rest, settled := x.settled ++ [e] } else x
  | [] => x

/-- R87, R89: SETTLE_MESSAGE on queue `q`: the head of its sorting section settles, with the arrival-mode messages that wait for it. -/
def settleMessage (q : Nat) (now : Nat) (m : Mach) : Mach :=
  let x := queueOf m q
  let y := settleArrivals (settleHead (horizonPast m (8 * (q / 32) + q % 32 / 4)) x)
  if y == x then m
  else (y.settled.filter (fun e => !x.settled.contains e)).foldl (fun m e => stage m now (e.msg.root.getD e.msg.pm) 2 (q / 32) (tick48 now))
    (modQueue m q (fun _ => y))

/-- The meaning of SETTLE_MESSAGE. -/
def execSettleMessage (q : Nat) (s : State) := onMachW (settleMessage q) s

/-- Spilled messages of port `p` whose letters stand, in part or whole, in its refill letters. -/
def refilling (m : Mach) (p : Nat) : List QEntry :=
  ((List.range 8).map (fun c => (pairEntries m p c).filter (fun e => 0 < e.fetched))).flatten

/-- R97: the next letters of spilled message `e` are fetched into its port's 128 refill letters: as many as have been received, a block's at
most, while the port has room for the whole of each message that it has begun to fetch. -/
def fetchLetters (m : Mach) (q : Nat) (e : QEntry) : Mach :=
  let held := (((refilling m (q / 32)).filter (fun f => f.key != e.key)).map (fun f => f.msg.n)).sum
  if 128 < held + e.msg.n then m
  else
    let k := min 51 (receivedOf m e.key e.msg.n - e.fetched)
    modQueue m q (fun x => { x with settled := x.settled.map (fun f => if f.key == e.key then { f with fetched := f.fetched + k } else f) })

/-- R97, R99: MAILBAG_REFILL for queue `q`: letters of the first spilled message of its settled section that is not yet whole there are
fetched into the port's refill letters. A letter that cannot be corrected (`bad`) is delivered as poison on CXL.mem; on CXL.io or a
Courier link its message is ended as a nullified item and counted in the RAS log. -/
def mailbagRefill (q : Nat) (bad : Bool) (now : Nat) (m : Mach) : Mach :=
  match (queueOf m q).settled.find? (fun e => e.path == .spilled && decide (e.fetched < e.msg.n)) with
  | none => m
  | some e =>
    if !bad then fetchLetters m q e
    else
      let p := q / 32
      let m := rasLog m now 0x02 2 0 e.msg.pm e.msg.pool 0 0 e.msg.src 3
      if isIo e.msg.h.kind || role m p == 3 then
        nullify now p e.msg (releaseEntry m p e)
      else
        let m := fetchLetters m q e
        modQueue m q (fun x => { x with settled := x.settled.map (fun f => if f.key == e.key then
          { f with msg := { f.msg with h := { f.msg.h with poison := true } } } else f) })

/-- The meaning of MAILBAG_REFILL. -/
def execMailbagRefill (q : Nat) (bad : Bool) (s : State) := onMachW (mailbagRefill q bad) s

/-- R90: LOW_RESET: LOW is set to the current F. -/
def lowReset (_now : Nat) (m : Mach) : Mach := sf m F.SOF_FREE_LOW [] (freeLetters m.sof)

/-- The meaning of LOW_RESET. -/
def execLowReset (s : State) := onMach lowReset s

/-! ### Flush (R102-R106) -/

/-- R102: queues of a flush's scope. -/
def flushQueues (scope p mc sc : Nat) : List Nat :=
  match scope with
  | 0 => [qno p mc sc]
  | 1 => (List.range 4).map (qno p mc)
  | _ => (List.range 32).map (32 * p + ·)

/-- R39, R102, R105: a software flush request: ticket, scope, mode; refused requests end done-error at once. -/
def flushRequest (mode ticket scope p mc sc : Nat) (now : Nat) (m : Mach) : Mach :=
  if stBusy (rd m Reg.SOF_FLUSH_STATUS) then countDiscard m
  else
    let m := wr m Reg.SOF_FLUSH_RESULT [] 0
    if scope == 3 then
      let w := statusWord ticket 4 0x202 0
      opEnded (wr m Reg.SOF_FLUSH_STATUS [] w) now 2 w
    else if !portExists m p then
      let w := statusWord ticket 4 0x201 0
      opEnded (wr m Reg.SOF_FLUSH_STATUS [] w) now 2 w
    else
      let (pm, m) := internalPm m 144 (tick48 now)
      let m := wr m Reg.SOF_FLUSH_STATUS [] (statusWord ticket 2 0 0)
      { m with sof := { m.sof with flushes := m.sof.flushes ++ [⟨scope, p, mc, sc, mode, pm, 3, true, flushQueues scope p mc sc⟩] } }

/-- The meaning of FLUSH_DISCARD (MODE 0). -/
def execFlushDiscard (ticket scope p mc sc : Nat) (s : State) := onMach (flushRequest 0 ticket scope p mc sc) s

/-- The meaning of FLUSH_ERROR (MODE 1). -/
def execFlushError (ticket scope p mc sc : Nat) (s : State) := onMach (flushRequest 1 ticket scope p mc sc) s

/-- R104, R105: one item handled by a flush. -/
def flushItem (now : Nat) (f : Flush) (m : Mach) (x : Msg) (group : Option Nat) (nullify : Bool) : Mach :=
  let m := if f.mode == 1 then
      (if nullify then deadLetter m now x f.cause .nullified (some f.port) group false (if f.software then pmNone else f.pm)
       else endError now m x f.cause (some f.port) group false (if f.software then pmNone else f.pm))
    else m
  if !f.software then m
  else
    let m := if nullify then satInc m F.SOF_FLUSH_RESULT_NULLIFIED else satInc m F.SOF_FLUSH_RESULT_DISCARDED
    satInc m F.SOF_FLUSH_STATUS_DONE_UNITS

/-- R102: a refused message, waiting at its ingress, that a flush removes from queue `q`: it is of that queue, or has a copy for it. -/
def refusedHere (m : Mach) (f : Flush) (q : Nat) (t : Transit) : Bool :=
  t.phase == .pinned && t.msg.mc == q % 32 / 4 && t.msg.sc == q % 4 && pmBefore t.msg.pm f.pm && (match t.tgt with
    | .egress p => p == q / 32
    | .group g => (groupLive m t g).contains (q / 32)
    | _ => false)

/-- R102, R103, R106: a refused message is removed for queue `q`: its pin there is cleared. A multicast message keeps its other copies; when no
copy is left it ends, as any other, and its credit is returned. -/
def flushRefused (now : Nat) (f : Flush) (q : Nat) (m : Mach) (t : Transit) : Mach :=
  let p := q / 32
  let t' := { t with cut := t.cut ++ [p], pins := t.pins.filter (· != 8 * p + t.msg.mc) }
  let g? : Option Nat := match t.tgt with | .group g => some g | _ => none
  let gone := match t.tgt with | .group g => (groupLive m t' g).isEmpty | _ => true
  let m :=
    if !gone then { m with sof := { m.sof with transit := m.sof.transit.map (fun u => if u.key == t.key then t' else u) } }
    else
      let m := discardCredit (if t.got.length ≥ t.msg.n then dropTransit m t.key else setPhase m t.key .sink) t.msg
      match g? with | some g => freeGroup m g | none => m
  flushItem now f m t.msg g? false

/-- R102, R103, R106: the flush acts on one queue. -/
def flushQueue (now : Nat) (f : Flush) (m : Mach) (q : Nat) : Mach :=
  let p := q / 32
  let mc := q % 32 / 4
  let sc := q % 4
  let x := queueOf m q
  let m := ((x.settled ++ x.sorting).filter (fun e => pmBefore e.msg.pm f.pm)).foldl (fun m e =>
    flushItem now f (releaseEntry m p e) e.msg e.group false) m
  let m := match (egOf m p).leaving with
    | some l =>
      if l.e.msg.mc == mc && l.e.msg.sc == sc && pmBefore l.e.msg.pm f.pm && l.e.msg.n > 1 then
        let m := leaveQueue (modEg m p (fun g => { g with leaving := none })) p l.e
        let m := dropRef (sinkRest m l.e.key l.e.msg.n) l.e.key
        let m := nullify now p l.e.msg m
        flushItem now f m l.e.msg l.e.group true
      else m
    | none => m
  (m.sof.transit.filter (refusedHere m f q)).foldl (flushRefused now f q) m

/-- R102, R106: the horizon of queue `q` passes the flush postmark, not counting the pins of the messages that the flush removes there. -/
def flushPast (m : Mach) (f : Flush) (q : Nat) : Bool :=
  let pins (t : Transit) : List Nat := t.pins.filter (fun a => !(a == 8 * (q / 32) + q % 32 / 4 && f.todo.any (fun k => refusedHere m f k t)))
  let m := { m with sof := { m.sof with transit := m.sof.transit.map (fun t => { t with pins := pins t }) } }
  horizonPast m (8 * (q / 32) + q % 32 / 4) f.pm.tick

/-- R102, R105: FLUSH_ACT on queue `q`: the earliest flush still to act there acts once the queue's horizon has passed its
postmark; the last queue of a software flush ends it done-ok. -/
def flushAct (q : Nat) (now : Nat) (m : Mach) : Mach :=
  match m.sof.flushes.find? (fun f => f.todo.contains q && flushPast m f q) with
  | none => m
  | some f =>
    let m := flushQueue now f m q
    let f' := { f with todo := f.todo.filter (· != q) }
    let m := { m with sof := { m.sof with flushes :=
      (m.sof.flushes.map (fun g => if g == f then f' else g)).filter (fun g => !g.todo.isEmpty) } }
    if f'.todo.isEmpty && f.software then
      let m := sf m F.SOF_FLUSH_STATUS_STATE [] 3
      opEnded m now 2 (rd m Reg.SOF_FLUSH_STATUS)
    else m

/-- The meaning of FLUSH_ACT. -/
def execFlushAct (q : Nat) (s : State) := onMachW (flushAct q) s

/-! ### Buckets (R128, R258, R259, R264) -/

/-- R128: tokens of the MC7 policing bucket of port `p`, in letters times 1,000 (a rate in MB/s gives whole thousandths). -/
def policeLevel (m : Mach) (p : Nat) : Int := gf m F.SOF_MC7_POLICE_BURST [p] * 1000 + tget 0 m.sof.police p

/-- R128: MC7_BUCKET_REFILL: every 1,024 ticks each port's bucket takes RATE's letters, up to BURST. 1,024 ticks are
256 ns, in which RATE MB/s carries RATE × 256 / 1,000 bytes: RATE × 4 thousandths of a letter. -/
def mc7BucketRefill (now : Nat) (m : Mach) : Mach :=
  if now % 1024 != 0 then m
  else { m with sof := { m.sof with police := m.sof.police.foldl (fun t x =>
    tset 0 t x.1 (min 0 (x.2 + (gf m F.SOF_MC7_POLICE_RATE [x.1] * 4 : Nat)))) [] } }

/-- R258, R259: one refill of a bucket by the settings now in force; those that they replace are kept for notional time, which lags by no more
than the stale limit (R37). -/
def refillBucket (now : Nat) (en : Bool) (inc burst : Nat) (b : Bucket) : Bucket :=
  let inc := if en then inc else 0
  let burst := if en then burst else 0
  let past := if b.en == en && b.inc == inc && b.burst == burst then b.past
    else (b.past ++ [({ last := now / 1024 - 1, en := b.en, inc := b.inc, burst := b.burst } : Setting)]).filter (fun s => decide (now / 1024 ≤ s.last + 2 ^ 27))
  { b with en := en, inc := inc, burst := burst, past := past,
           lvl := if en && b.en then min (b.lvl + inc) burst else burst }

/-- R258, R259: SHAPER_REFILL: at a multiple of 1,024 ticks every shaper refills by INC up to BURST; its notional bucket
follows in notional time (`notionalLevel`). -/
def shaperRefill (now : Nat) (m : Mach) : Mach :=
  if now % 1024 != 0 then m
  else
    let qs := setEntries m 0x8010000 8 4096 63 ++ (m.sof.shapers.map (·.1)).filter (fun q => !gfb m F.SCH_SHAPE_EN [q])
    { m with sof := { m.sof with shapers := qs.foldl (fun t q => tmod {} t q
      (refillBucket now (gfb m F.SCH_SHAPE_EN [q]) (gf m F.SCH_SHAPE_INC [q]) (gf m F.SCH_SHAPE_BURST [q]))) m.sof.shapers } }

/-- The meaning of SHAPER_REFILL. -/
def execShaperRefill (s : State) := onMach shaperRefill s

/-- R264: PACER_REFILL: every pacer refills, and the credits it held are returned. -/
def pacerRefill (now : Nat) (m : Mach) : Mach :=
  if now % 1024 != 0 then m
  else
    let ps := setEntries m 0x8000400 8 128 63
    let fs := setEntries m 0x8008000 8 4096 63
    let off := (m.sof.pacer.map (·.1)).filter (fun k => if k < 128 then !gfb m F.SCH_PACE_PORT_EN [k]
      else !gfb m F.SCH_FLD_CFG_PACE_EN [k - 128])
    let t := ps.foldl (fun t p => tmod {} t p
      (refillBucket now true (gf m F.SCH_PACE_PORT_INC [p]) (gf m F.SCH_PACE_PORT_BURST [p]))) m.sof.pacer
    let t := fs.foldl (fun t f => tmod {} t (128 + f)
      (refillBucket now true (gf m F.SCH_FLD_CFG_INC [f]) (gf m F.SCH_FLD_CFG_BURST [f]))) t
    let t := off.foldl (fun t k => tmod {} t k (refillBucket now false 0 0)) t
    releasePaced { m with sof := { m.sof with pacer := t } }

/-- The meaning of PACER_REFILL. -/
def execPacerRefill (s : State) := onMach pacerRefill s

/-! ### Gate swaps (R263) -/

/-- R263: the tests of a pending list. -/
def gateListOk (m : Mach) (p b n : Nat) : Bool :=
  let l := gateList m p b n
  let reserved := (List.range n).any (fun k =>
    bitsOf (if k % 2 == 0 then gf m F.SCH_GATE_ENT_ENTRY_EVEN [p, b, k / 2] else gf m F.SCH_GATE_ENT_ENTRY_ODD [p, b, k / 2]) 7 4 != 0)
  l.all (fun e => e.1 != 0) && (n == 0 || (List.range 4).all (fun s => l.any (fun e => bitAt e.2 s))) && !reserved

/-- R263: a swap request at tick `n0`: refused, or accepted with its start tick. -/
def gateSwapRequest (p ticket plen : Nat) (n0 : Nat) (m : Mach) : Mach :=
  let m := if p ≥ 128 then m else sf m F.SCH_GATE_CTL_PLEN [p] plen
  if p ≥ 128 then m
  -- the waiting list is unchanged: its own status word stays; the refusal is shown by the event
  else if stState (rd m Reg.SCH_GATE_STATUS [p]) == 1 then opEnded m n0 8 (statusWord ticket 4 0x602 0)
  else
    let b := 1 - gf m F.SCH_GATE_INFO_ACTIVE [p]
    if plen > 256 || !gateListOk m p b plen then
      let w := statusWord ticket 4 0x601 0
      opEnded (wr m Reg.SCH_GATE_STATUS [p] w) n0 8 w
    else
      let base := gf m F.SCH_GATE_BASE_BASE [p, b]
      let c := gateCycle (gateList m p b plen)
      let late := !decide (base ≥ n0 + 8000)
      let n := if late && c != 0 then max 1 ((n0 + 8000 - base + c - 1) / c) else 0
      let s := if !late then base else if c == 0 then n0 + 8000 else base + n * c
      let m := if late then ackEvent m F.SCH_GATE_INFO_LATE [p] else m
      let m := wr m Reg.SCH_GATE_STATUS [p] (statusWord ticket 1 0 (if late then n else 0))
      { m with sof := { m.sof with gateNext := tset 0 m.sof.gateNext p (s + 1), gateLen := tset 0 m.sof.gateLen p plen } }

/-- The meaning of GATE_SWAP_REQUEST. -/
def execGateSwapRequest (p ticket plen : Nat) (s : State) := onMach (gateSwapRequest p ticket plen) s

/-- R263: GATE_SWAP: at the start tick the pending bank becomes active. -/
def gateSwap (p : Nat) (now : Nat) (m : Mach) : Mach :=
  let sw := tget 0 m.sof.gateNext p
  if p ≥ 128 || sw == 0 || now + 1 < sw then m
  else
    let m := sf m F.SCH_GATE_INFO_ACTIVE [p] (1 - gf m F.SCH_GATE_INFO_ACTIVE [p])
    let m := sf m F.SCH_GATE_INFO_ALEN [p] (tget 0 m.sof.gateLen p)
    let m := { m with sof := { m.sof with gateStart := tset 0 m.sof.gateStart p (sw - 1), gateNext := tset 0 m.sof.gateNext p 0 } }
    -- an open run in which a message is leaving goes on by the new list
    let m := match (egOf m p).leaving with
      | some l => if l.closes.all (fun t => decide (sw - 1 ≤ t)) then
          modEg m p (fun g => { g with leaving := some { l with closes := runEnd m p l.e.msg (sw - 1) } }) else m
      | none => m
    let m := sf m F.SCH_GATE_STATUS_STATE [p] 3
    opEnded m now 8 (rd m Reg.SCH_GATE_STATUS [p])

/-- The meaning of GATE_SWAP. -/
def execGateSwap (p : Nat) (s : State) := onMach (gateSwap p) s

/-! ### DevLoad (R131, R134) -/

/-- Order of the levels: Light, Optimal, Moderate, Severe by their encodings 0, 1, 2, 3 (R131). -/
def devLoadLevel (m : Mach) (f : Nat) (d : DevLoad) : Nat :=
  let win := gf m F.SOF_DEVLOAD_CFG_WIN * 64
  let p := gf m F.TEN_FLD_CFG_PORT [f]
  let (w, r) := portSpeed m p
  if d.refused * 100 ≥ gf m F.SOF_DEVLOAD_CFG_SEV_PCT * win && d.refused > 0 then 3
  else if d.refused > 0 || d.spill > 0 then 2
  -- raw rate in bytes per tick is w × r / 32 with r in GT/s (here in tenths)
  else if d.bytes * 100 * 320 < gf m F.SOF_DEVLOAD_CFG_LIGHT_PCT * w * r * win then 0
  else 1

/-- R131, R134: DEVLOAD_WINDOW_END for FLD `f`: the level is computed, the reported level follows, and the counts clear. -/
def devloadWindowEnd (f : Nat) (now : Nat) (m : Mach) : Mach :=
  let win := gf m F.SOF_DEVLOAD_CFG_WIN * 64
  if win == 0 || now % win != 0 || !(enabledFlds m).contains f || !holdsPos m f || !gfb m F.TEN_FLD_STATUS_BOUND [f] then m
  else
    let lvl := devLoadLevel m f (tget {} m.sof.devload f)
    let p := gf m F.TEN_FLD_CFG_PORT [f]
    let k := gf m F.TEN_FLD_CFG_POS [f]
    let w := rd m Reg.SOF_DEVLOAD_STATUS [p]
    let old := getBits w (2 * k + 1) (2 * k)
    let new := if lvl > old then lvl else old - 1
    let new := if lvl > new then lvl else new
    let m := wr m Reg.SOF_DEVLOAD_STATUS [p] (setBits w (2 * k + 1) (2 * k) new)
    let m := { m with sof := { m.sof with devload := tset {} m.sof.devload f {} } }
    if new == 3 && old != 3 then
      event (ackEvent (sf m F.SOF_DEVLOAD_EVT_LAST_PORT [] p) F.SOF_DEVLOAD_EVT_SEVERE) now 0x12 1 f
    else m

/-- The meaning of DEVLOAD_WINDOW_END. -/
def execDevloadWindowEnd (f : Nat) (s : State) := onMach (devloadWindowEnd f) s

end Sys2Proof.Machine
end

