-- ==== Sys2Proof/Machine/Home.lean ====
section
/-!
DEFINITION. What a home slice sends and installs (chapters 06 and 07): snoops and their fan-out, member accesses, victim
writes, poison, answers to requesters, and the installing of Carbon entries with folds and capacity evictions.
-/

namespace Sys2Proof.Machine
open Sys2Proof

/-- R153, R149, R162: a coherence protocol error. -/
def protoErr (now : Nat) (m : Mach) (q kind src host : Nat) (pm : Postmark) : Mach :=
  let m := sf (sf m F.HQ_PROTO_ERR_LAST_SOURCE [q] src) F.HQ_PROTO_ERR_LAST_KIND [q] kind
  rasLog (ackEvent m F.HQ_PROTO_ERR_ERR [q]) now 0x14 1 host pm 0 0 0 src kind

/-- A message that slice `s` produces: kind, destination, class, and the tag that names slice and response slot. -/
def sliceMsg (m : Mach) (s : Nat) (k : MsgKind) (line dst mc sc tag : Nat) (pm : Postmark) (root : Option Postmark)
    (arrival : Bool) : Msg :=
  { h := { kind := k, addr := line, tag := tag, src := ownPostcode m, dst := dst, mc := mc, sc := sc },
    pm := pm, mc := mc, sc := sc, src := ownPostcode m, dst := dst, pool := line, att := sliceAtt s, n := 1,
    arrival := arrival, root := root }

/-- Schedule a message of an internal source: due at the later of `since`, its trigger's confirmation, and its TICK (R39, R40). -/
def schedule (since : Nat) (m : Mach) (source tick : Nat) (x : Msg) (tgt : Target) : Mach :=
  { m with sched := m.sched ++ [⟨source, tick, max since (expandTick since tick), x, tgt⟩] }

/-- A slip of source `src` is counted (R40). -/
def countSlip (now : Nat) (m : Mach) (src : Nat) : Mach :=
  let m := ackEvent (sf m F.FTM_SLIP_LAST_SOURCE [] src) F.FTM_SLIP_SLIPPED
  count (event m now 0x10 1 src) now 0x061 1

/-- A due tick plus 1, as a slice holds it, moved `d` ticks on where it lies after `t`; 0 for none. -/
def slipDue (t d due : Nat) : Nat := if due != 0 && tickBefore t (due - 1) then tickAdd (due - 1) d + 1 else due

/-- R40: source 145 or 146 slips by `d` ticks at TICK `t`: what it has scheduled after `t` moves by as much. -/
def slipSource (m : Mach) (src t d : Nat) : Mach :=
  let later (u : Nat) : Nat := if tickBefore t u then tickAdd u d else u
  let agents (sl : Slice) : Slice :=
    if src == 146 then { sl with sweepDue := slipDue t d sl.sweepDue, sweepFrom := if slipDue t d sl.sweepDue == sl.sweepDue then sl.sweepFrom else sl.sweepFrom + d }
    else if src == 145 then { sl with cleanDue := slipDue t d sl.cleanDue, cleanFrom := if slipDue t d sl.cleanDue == sl.cleanDue then sl.cleanFrom else sl.cleanFrom + d
                                      heldWrites := sl.heldWrites.map (fun w => { w with due := w.due.map later }) }
    else sl
  let census (c : Census) : Census := if src == 146 then { c with tick := later c.tick } else c
  { m with
    sched := m.sched.map (fun y => if y.source == src && tickBefore t y.tick then { y with tick := tickAdd y.tick d, due := y.due + d } else y)
    home := { m.home with slices := m.home.slices.map (fun x => (x.1, agents x.2)), setCensus := m.home.setCensus.map census } }

/-- R40: the TICK that an item of source `src` takes as it is issued, scheduled at TICK `t` and due since Fabric Time `from_`: its own,
or the current one where it is 64 ticks overdue and its source slips. -/
def issueTick (now : Nat) (m : Mach) (src t from_ : Nat) : Nat × Mach :=
  if from_ + 64 ≤ now then
    (tick48 now, countSlip now (slipSource m src t ((tick48 now + 2 ^ 48 - t) % 2 ^ 48)) src)
  else (t, m)

/-! ### Snoops (R139, R148, R150) -/

/-- The BISnp of a snoop kind. -/
def snoopMsgKind (k : Nat) : MsgKind := if k == 0 then .biSnpCur else if k == 1 then .biSnpData else .biSnpInv

/-- Snoops outstanding at a slice. -/
def snoopsOut (sl : Slice) : Nat := (sl.snoops.filter (·.issued)).length

/-- R150: an item of the host for the line, confirmed before the item with confirmation number `before`, has not issued
its NDR. -/
def ndrOwed (m : Mach) (s : Nat) (sl : Slice) (line h before : Nat) : Bool :=
  sl.items.any (fun i => i.line == line && i.conf != 0 && i.conf < before && !i.ndrSent
    && isMem i.msg.h.kind && hostIndex m (s / 16) i.msg.src == some h)

/-- Confirmation number of an item; larger than any for a capacity snoop. -/
def confOf (sl : Slice) (item : Nat) : Nat :=
  match sl.items.find? (fun i => i.seq == item) with
  | some i => i.conf
  | none => sl.nextConf

/-- The local host port a host index names, if it is on this device (R148). -/
def localPort (m : Mach) (q h : Nat) : Option Nat :=
  let pc := gf m F.HQ_HOST_CFG_POSTCODE [q, h]
  if pc / 4096 != gf m F.RTE_SELF_DISTRICT then none
  else match route m (ownPostcode m) pc none 0 with
    | .port p => if role m p == 1 && portPostcode m p == pc then some p else none
    | _ => none

/-- Send the snoops `ns`, all of one kind, postmark and tag: local hosts by one multicast for each service class, through a
free device-managed group, the others by unicast (R71, R148). `due` schedules them instead as source 146's own, with their TICK
and their trigger's confirmation (R40, R146). -/
def sendSnoops (now s : Nat) (m : Mach) (ns : List Snoop) (root : Option Postmark) (arrival : Bool) (due : Option (Nat × Nat)) : Mach :=
  match ns with
  | [] => m
  | n0 :: _ =>
    let q := s / 16
    let m := ns.foldl (fun m _ => count m now 0x046 1 { pool := some n0.line, mc := some 3 }) m
    let loc := ns.filter (fun n => (localPort m q n.host).isSome)
    let rem := ns.filter (fun n => (localPort m q n.host).isNone)
    let one (m : Mach) (n : Snoop) : Mach :=
      let x := sliceMsg m s (snoopMsgKind n.kind) n.line (gf m F.HQ_HOST_CFG_POSTCODE [q, n.host]) 3 (hostSc m q n.host)
        (s + 64 * n.id) n.pm root arrival
      match due with
      | some t => schedule t.2 m 146 t.1 x (match localPort m q n.host with | some p => .egress p | none => .postmaster)
      | none => sendOut now m x
    let many (m : Mach) (sc : Nat) : Mach :=
      let ps := (loc.filter (fun n => hostSc m q n.host == sc)).filterMap (fun n => localPort m q n.host)
      if ps.isEmpty then m
      else
        let free := ((List.range 64).map (61440 + 64 * s + ·)).find? (fun g => !(sliceOf m s).groups.contains g)
        match free with
        | none => (loc.filter (fun n => hostSc m q n.host == sc)).foldl one m
        | some g =>
          let m := modSlice (setGroup m g ps) s (fun sl => { sl with groups := sl.groups ++ [g] })
          let x := sliceMsg m s (snoopMsgKind n0.kind) n0.line g 3 sc (s + 64 * n0.id) n0.pm root arrival
          match due with
          | some t => schedule t.2 m 146 t.1 x (.group g)
          | none => enter now m x (.group g)
    rem.foldl one ((List.range 4).foldl many m)

/-- R139, R149: create the snoops of an item (or of source 146, item 0) for a line, skipping hosts already being snooped,
and issue as many as the limit allows behind those already held; the rest are held. -/
def newSnoops (now s : Nat) (m : Mach) (ck item line : Nat) (ts : List (Nat × Nat)) (pm : Postmark) (root : Option Postmark)
    (arrival evb capacity : Bool) (due : Option (Nat × Nat)) : Mach :=
  let sl := sliceOf m s
  let ts := ts.filter (fun t => (snoopTo sl line t.1).isNone)
  if ts.isEmpty then m
  else
    let id := sl.nextId
    let before := confOf sl item
    let mk (t : Nat × Nat) : Snoop := ⟨id, line, t.1, t.2, item, pm, evb, capacity, false⟩
    let room := if sl.snoops.any (fun n => !n.issued && !ndrOwed m s sl n.line n.host (confOf sl n.item)) then 0 else 1024 - snoopsOut sl
    let ok := ts.filter (fun t => !ndrOwed m s sl line t.1 before)
    let go := (ok.take room).map mk
    let held := (ts.filter (fun t => !(ok.take room).contains t)).map mk
    let m := modSlice m s (fun sl =>
      let sl := { sl with nextId := id + 1, snoops := sl.snoops ++ go.map (fun n => { n with issued := true }) ++ held }
      if evb then sl else notePend ck sl line)
    -- one multicast or unicast serves snoops of one kind
    (List.range 3).foldl (fun m k => sendSnoops now s m (go.filter (fun n => n.kind == k)) root arrival due) m

/-! ### Member accesses (R68, R70, R172-R174, R313) -/

/-- Where an item's line lives: as fixed at its postmark, else by the home ranges now in force (R70). -/
def memberFor (m : Mach) (line : Nat) (mem : Option (Nat × Nat)) : Option (Nat × Nat) :=
  match mem with
  | some x => some x
  | none => memberOf m line

/-- The message of a member access. -/
def memberMsg (m : Mach) (s id line p ma : Nat) (write : Bool) (data : Line) (mask : Nat) (poison : Bool) (pm : Postmark)
    (root : Option Postmark) (sc mc : Nat) (arrival : Bool) : Msg :=
  let k : MsgKind := if !write then .memRd else if mask == fullMask then .memWr else .memWrPtl
  let x := sliceMsg m s k line (portPostcode m p) mc sc (s + 64 * id) pm root arrival
  { x with h := { x.h with
      addr := ma, len := 64, mask := mask, poison := poison, data := if write then bytesOfLine data else [] } }

/-- Record a member access; its number is the answer. -/
def addAccess (now : Nat) (m : Mach) (s line port : Nat) (why : Purpose) (data : Line) (mask : Nat) (poison : Bool)
    (pm : Postmark) : Nat × Mach :=
  let id := (sliceOf m s).nextId
  (id, modSlice m s (fun sl => { sl with
    nextId := id + 1, accesses := sl.accesses ++ [⟨id, line, port, why, data, mask, poison, pm, now⟩] }))

/-- The access writes. -/
def isWriteAccess (a : Access) : Bool := match a.why with | .read _ => false | .spec _ => false | _ => true

/-- Bytes of a line that outstanding write records hold, later ones over earlier (R173): data, mask, poison. -/
def recordBytes (sl : Slice) (line : Nat) : Line × Nat × Bool :=
  (sl.accesses.filter (fun a => a.line == line && isWriteAccess a)).foldl
    (fun r a => (mergeLine r.1 a.data a.mask, r.2.1 ||| a.mask, if a.mask == fullMask then a.poison else r.2.2 || a.poison))
    ((0 : Line), 0, false)

/-- Issue a read of a line to its member; none when the member is contained (R313) or no home range holds the line (R68). -/
def memberRead (now s : Nat) (m : Mach) (line : Nat) (mem : Option (Nat × Nat)) (why : Purpose) (pm : Postmark)
    (root : Option Postmark) (sc : Nat) (arrival : Bool) : Option Nat × Mach :=
  match memberFor (cfgAt m pm) line mem with
  | none => (none, m)
  | some (p, ma) =>
    if contained m p then (none, m)
    else
      let (bytes, mk, po) := recordBytes (sliceOf m s) line
      let (id, m) := addAccess now m s line p why bytes mk po pm
      (some id, enter now m (memberMsg m s id line p ma false 0 0 false pm root sc 4 arrival) (.egress p))

/-- R173: an earlier write of a line that access `id` writes, at the same member, still awaits its completion. -/
def writeBehind (sl : Slice) (id : Nat) : Bool :=
  sl.accesses.any (fun a => isWriteAccess a && a.id == id &&
    sl.accesses.any (fun b => isWriteAccess b && b.line == a.line && b.port == a.port && decide (b.id < id)))

/-- Issue the message of a write record at once or at its due tick (R39). -/
def issueMember (now : Nat) (m : Mach) (w : HeldWrite) : Mach :=
  match w.due with
  | some t => schedule w.since m 145 t w.msg w.tgt
  | none => enter now m w.msg w.tgt

/-- R173: the message of a write record goes out, or waits in the record behind an earlier write of the line, so that the
member's writes of a line are applied in confirmation order (DEDUCED). -/
def sendWrite (now s : Nat) (m : Mach) (w : HeldWrite) : Mach :=
  if writeBehind (sliceOf m s) w.id then modSlice m s (fun sl => { sl with heldWrites := sl.heldWrites ++ [w] })
  else issueMember now m w

/-- R38, R173: a member's completion of TICK `tick` has come: the writes that waited for it go out with its TICK. -/
def releaseWrites (now s tick : Nat) (m : Mach) : Mach :=
  let sl := sliceOf m s
  let go := sl.heldWrites.filter (fun w => !writeBehind sl w.id)
  go.foldl (fun m w => issueMember now m { w with
      msg := { w.msg with pm := { w.msg.pm with tick := laterTick w.msg.pm.tick tick } }, due := w.due.map (fun t => laterTick t tick) })
    (modSlice m s (fun sl => { sl with heldWrites := sl.heldWrites.filter (fun w => writeBehind sl w.id) }))

/-- R173: an access that writes: its line buffer holds its own bytes over those of the record that it merges into. -/
def addRecordWrite (now : Nat) (m : Mach) (s line port : Nat) (why : Purpose) (data : Line) (mask : Nat) (poison : Bool)
    (pm : Postmark) : Nat × Mach :=
  let (b, mk, po) := recordBytes (sliceOf m s) line
  addAccess now m s line port why (mergeLine b data mask) (mk ||| mask) (if mask == fullMask then poison else po || poison) pm

/-- Write a line to its member; whether it was issued. A line in no home range, or on a contained member, is dead-lettered
and its write ends there (R68, R313). `due` schedules it, with its TICK and its trigger's confirmation (R39, R40). -/
def memberWrite (now s : Nat) (m : Mach) (line : Nat) (mem : Option (Nat × Nat)) (why : Purpose) (data : Line) (mask : Nat)
    (poison : Bool) (pm : Postmark) (root : Option Postmark) (sc mc : Nat) (arrival : Bool) (due : Option (Nat × Nat) := none) :
    Bool × Mach :=
  match memberFor (cfgAt m pm) line mem with
  | none =>
    let x := { sliceMsg m s .memWr line 0 mc sc 0 pm root arrival with pool := line }
    (false, deadLetter (countUnrouted m 0 6) now x 1 .logged)
  | some (p, ma) =>
    if contained m p then
      (false, deadLetter m now (memberMsg m s 0 line p ma true data mask poison pm root sc mc arrival) 0x0A .logged (some p) none
        false (fenceOf m p))
    else
      let (id, m) := addRecordWrite now m s line p why data mask poison pm
      let x := memberMsg m s id line p ma true data mask poison pm root sc mc arrival
      (true, sendWrite now s m ⟨id, x, .egress p, due.map (·.1), (due.map (·.2)).getD now⟩)

/-- R178: budget and mirror bound. -/
def budgetOf (m : Mach) : Nat := gf m F.FCH_CFG_BUDGET

/-- FORCED (FCH_STATUS): the slice's dirty count has just reached BUDGET. -/
def noteForced (before : Nat) (m : Mach) (s : Nat) : Mach :=
  if before < budgetOf m && dirtyCount (sliceOf m s) ≥ budgetOf m then ackEvent m F.FCH_STATUS_FORCED else m

/-- R178: write data into way `w` of the line's set; whether the line is dirty now. -/
def putInWay (m : Mach) (s line w : Nat) (data : Line) (poison mayDirty : Bool) : Bool × Mach :=
  let sl := sliceOf m s
  let before := dirtyCount sl
  let may := mayDirty && !setLost m (fsetOf line) && !setLost m (partner (fsetOf line))
  let (sl', dirty) := writeWay sl (fsetOf line) w data poison may (budgetOf m) (gf m F.FCH_CFG_MIRROR_MAX)
  (dirty, noteForced before (modSlice m s (fun _ => sl')) s)

/-- R174: the member of a dirty way is contained. -/
def wayKept (m : Mach) (s : Nat) (w : Way) : Bool :=
  match memberOf m (lineOfWay s w.tag) with
  | some (p, _) => contained m p
  | none => false

/-- R174: take a way for a line that a confirmed item fills; a set on a lost stack has none to give (R435). The item's postmark
TICK gives a victim write's, and its confirmation, `since`, when that is due (R39, R40). -/
def takeWay (now s : Nat) (m : Mach) (ck line tick since : Nat) : Option Nat × Mach :=
  let sl := sliceOf m s
  let fs := fsetOf line
  match if setLost m fs then none else victimWay (ways sl fs) (wayKept m s) with
  | none => (none, m)
  | some w =>
    let old := (ways sl fs).getD w {}
    let m :=
      if old.st == .dirty then
        let vl := lineOfWay s old.tag
        let m := count m now 0x052 1 { pool := some vl }
        let t := tickAdd tick 16
        let (ok, m) := memberWrite now s m vl none (.victim fs w) old.data fullMask old.poison ⟨t, 145, 0⟩ none 2 2
          (attrOf m vl).arrival (some (t, since))
        if ok then m else modSlice m s (fun sl => freeMirror sl fs w old.tag)
      else m
    (some w, modSlice m s (fun sl => claimWay sl fs w line (heldA ck sl line)))

/-- R163, R183: write a line as poison to its data source. -/
def poisonLine (now s : Nat) (m : Mach) (line : Nat) (pm : Postmark) : Mach :=
  let mayDirty := (attrOf m line).mirror == 0
  match findWay (sliceOf m s) line with
  | some (w, _) =>
    let (dirty, m) := putInWay m s line w 0 true mayDirty
    if dirty then m else (memberWrite now s m line none .poisonWrite 0 fullMask true pm none 0 2 false).2
  | none => (memberWrite now s m line none .poisonWrite 0 fullMask true pm none 0 2 false).2

/-! ### Host removal within a slice (R163) -/

/-- R163: every entry of removed hosts in a Carbon set is met and freed, its line poisoned when it was in A. -/
def scrubSet (now s : Nat) (m : Mach) (ck k : Nat) (pm : Postmark) : Mach :=
  (sliceOf m s).removed.foldl (fun m h =>
    (slots (sliceOf m s) k).foldl (fun m e =>
      if freeEntry e || (sliceOf m s).snoops.any (fun n => n.host == h && snoopOf ck k e.tag n) then m
      else
        let line := lineOfCarbon ck s k e.tag
        if !e.wide && e.host == h then
          let m := if e.st == .a then poisonLine now s m line pm else m
          modSlice m s (fun sl => setHostState ck sl line h .i)
        else if e.wide && (tget 0 (sliceOf m s).wide e.vec).getLsbD h then
          modSlice m s (fun sl => unfold ck (setHostState ck sl line h .i) line)
        else m) m) m

/-! ### Installing entries (R144-R146) -/

/-- R146: slot `i` of set `k` is evicted for an item with TICK `tick`: its entry moves to the eviction buffer and source 146
back-invalidates its host, or every sharer; `since` is the item's confirmation (R40). -/
def evict (now s : Nat) (m : Mach) (ck k i tick since : Nat) : Mach :=
  let sl := sliceOf m s
  let e := (slots sl k).getD i {}
  let line := lineOfCarbon ck s k e.tag
  let hs := if e.wide then vecHosts (tget 0 sl.wide e.vec) else [e.host]
  let m := modSlice m s (fun sl =>
    { setSlots ck sl k (lmod (fun _ => ({} : CEntry)) (slots sl k) i) with evb := sl.evb ++ [⟨line, { e with pend := true }, hs⟩] })
  let m := hs.foldl (fun m h => count (ackEvent m F.HQ_HOST_STATUS_QUOTA_EVT [s / 16, h]) now 0x047 1 { pool := some line }) m
  let t := tickAdd tick 16
  newSnoops now s m ck 0 line (hs.map (fun h => (h, 2))) ⟨t, 146, 0⟩ none (attrOf m line).arrival true true (some (t, since))

/-- A slot for a new entry of `line`: a free one, or one made free by a capacity eviction; none when the item must wait
(R146). -/
def findSlot (now s : Nat) (m : Mach) (ck k line tick since : Nat) : Option Nat × Mach :=
  let sl := sliceOf m s
  match lfindIdx freeEntry (slots sl k) 0 with
  | some (i, _) => (some i, m)
  | none =>
    if sl.evb.length ≥ 64 then (none, m)
    else match chooseVictim m s sl k line with
      | some i => (some i, evict now s m ck k i tick since)
      | none => (none, m)

/-- Write an entry into a slot and touch it. -/
def putEntry (m : Mach) (s ck k i : Nat) (e : CEntry) (new : Bool) : Mach :=
  modSlice m s (fun sl => setSlots ck sl k (touchEntry (lmod (fun _ => e) (slots sl k) i) i new))

/-- Fold a line's narrow entries and one more sharer into a wide entry, into vector `v` (R144). -/
def fold (m : Mach) (s ck k line h v : Nat) : Mach :=
  modSlice m s (fun sl =>
    let own := lineSlots (slots sl k) line
    let hs := h :: (own.filter (fun x => x.2.st != .i)).map (fun x => x.2.host)
    let bits := hs.foldl (fun (b : BitVec 512) h => b ||| BitVec.ofNat 512 (2 ^ h)) 0
    let i := (own.map (·.1)).foldl min 8
    let pend := own.any (fun x => x.2.pend)
    let es := own.foldl (fun es x => lmod (fun _ => ({} : CEntry)) es x.1) (slots sl k)
    let head : CEntry := { tag := lineTag line, wide := true, pend := pend, st := .s, vec := v }
    { setSlots ck sl k (touchEntry (lmod (fun _ => head) es i) i true) with
      wide := tset 0 sl.wide v bits, wideUsed := sl.wideUsed ++ [v] })

/-- R144: a vector of the slice's wide store that is free. -/
def freeVector (m : Mach) (s : Nat) (sl : Slice) : Option Nat :=
  if sl.wideUsed.length < gf m F.HQ_CARBON_CFG_WIDE [s / 16] * 1024 then
    (List.range (sl.wideUsed.length + 1)).find? (fun v => !sl.wideUsed.contains v)
  else none

/-- R144: a grant of S to `h` would be the line's fifth narrow entry, or would have been before the wait of `waited`. -/
def fifthEntry (sl : Slice) (ck line h : Nat) (waited : Bool) : Bool :=
  let own := lineSlots (slots sl (carbonSet ck line)) line
  !own.any (fun x => x.2.wide || x.2.host == h) && (decide (4 ≤ own.length) || waited)

/-- R144-R146, R148: grant `st` of a line to host `h`, for an item with TICK `tick`, confirmed at `since`; false when the item must
wait. `waited`: it has been counted in WIDE_FULL and has waited for one of the line's entries. -/
def grant (now s : Nat) (m : Mach) (ck line h tick since : Nat) (waited : Bool) (st : CSt) : Bool × Mach :=
  let sl := sliceOf m s
  let k := carbonSet ck line
  let es := slots sl k
  let own := lineSlots es line
  let entry : CEntry := { tag := lineTag line, st := st, host := h }
  match own.find? (fun x => x.2.wide) with
  | some (i, e) =>
    if st == .s then
      (true, modSlice m s (fun sl =>
        let sl := { sl with wide := tset 0 sl.wide e.vec (tget 0 sl.wide e.vec ||| BitVec.ofNat 512 (2 ^ h)) }
        setSlots ck sl k (touchEntry (slots sl k) i false)))
    else (true, putEntry (modSlice m s (fun sl => freeVec sl e.vec)) s ck k i entry false)
  | none =>
    match own.find? (fun x => x.2.host == h) with
    | some (i, e) => (true, putEntry m s ck k i { e with st := st } false)
    | none =>
      let fifth := fifthEntry sl ck line h waited && st == .s && !own.isEmpty
      match if fifth then freeVector m s sl else none with
      | some v => (true, count (fold m s ck k line h v) now 0x048 1 { pool := some line })
      | none =>
        if own.length < 4 then
          match findSlot now s m ck k line tick since with
          | (some i, m) => (true, putEntry m s ck k i entry true)
          | (none, m) => (false, m)
        else
          let m := if waited then m else ackEvent m F.HQ_CARBON_STATUS_WIDE_FULL [s / 16]
          match lbest (fun (a b : Nat × CEntry) => decide (b.2.age < a.2.age)) (own.filter (fun x => !x.2.pend)) with
          | none => (false, m)
          | some (i, _) =>
            if (sliceOf m s).evb.length ≥ 64 then (false, m)
            else (true, putEntry (evict now s m ck k i tick since) s ck k i entry true)

/-! ### Answers to the requester (R63, R150) -/

/-- Service class of an answer: a host index's own, else the item's (R150, R253). -/
def answerSc (m : Mach) (s : Nat) (x : Msg) : Nat :=
  if isMem x.h.kind then match hostIndex m (s / 16) x.src with
    | some h => hostSc m (s / 16) h
    | none => x.sc
  else x.sc

/-- R112, R123, R190: a line of a CXL.io request is done: data (of a read) and its TICK; the last line's end answers the
whole request. -/
def splitDone (now : Nat) (m : Mach) (x : Msg) (line : Nat) (data : Line) (poison : Bool) (tick : Nat) : Mach :=
  match m.home.splits.find? (fun p => p.pm == x.pm) with
  | none => m
  | some p =>
    let p' := { p with
      todo := p.todo.filter (· != line), tick := laterTick p.tick tick,
      got := tset ((0 : Line), false) p.got line (data, poison) }
    if !p'.todo.isEmpty then
      { m with home := { m.home with splits := m.home.splits.map (fun q => if q.pm == x.pm then p' else q) } }
    else
      let m := { m with home := { m.home with splits := m.home.splits.filter (fun q => q.pm != x.pm) } }
      let pm := derivedPm x.pm p'.tick
      let att := sliceAtt (sliceNo line)
      let r := p'.msg
      if isAtomicOp r.h.kind then
        sendReply now m r (replyTo m r att .cplD poison false .ok ((bytesOfLine data).take r.h.len) pm r.sc)
      else if r.h.kind == .mrd then
        -- completions split at the 64-byte Read Completion Boundary (R273)
        (linesOf r.pool r.h.len).foldl (fun m a =>
          let (d, po) := tget ((0 : Line), false) p'.got a
          let lo := max r.pool a
          let hi := min (r.pool + r.h.len) (a + 64)
          let y := replyTo m r att .cplD po false .ok (((bytesOfLine d).drop (lo - a)).take (hi - lo)) pm r.sc
          let left := if r.pool + r.h.len ≤ a + 64 then y.h.data.length else y.h.data.length + 1
          sendReply now m r { y with h := { y.h with len := left, addr := lo } }) m
      else
        let y := replyTo m r att .receipt false false .ok [] pm r.sc
        let first : Postmark := if r.att < 128 && role m r.att == 3 then
            ⟨bitsOf r.h.sentPm.toNat 59 12, bitsOf r.h.sentPm.toNat 11 4, bitsOf r.h.sentPm.toNat 3 0⟩ else r.pm
        let y := { y with h := { y.h with firstPm := first } }
        if r.att < 128 && role m r.att != 3 then enter now m y (.ingress r.att) else sendReply now m r y

/-- Send an item's data to its requester (R148, R155). -/
def sendData (now s : Nat) (m : Mach) (i : Item) (v : Line × Bool) : Mach :=
  let x := i.msg
  let pm := derivedPm x.pm i.dtick
  if isIo x.h.kind then splitDone now m x i.line v.1 v.2 i.dtick
  else
    let k : MsgKind := if x.h.kind == .lineRd || x.h.kind == .lineAtomic then .lineData else .memData
    sendReply now m x (replyTo m x (sliceAtt s) k v.2 false .ok (bytesOfLine v.1) pm (answerSc m s x))

/-- Send an item's completion without data: an NDR, an acknowledgement, or its line of a CXL.io write. -/
def sendDone (now s : Nat) (m : Mach) (i : Item) (k : MsgKind) (tick : Nat) (err : Bool) : Mach :=
  let x := i.msg
  if isIo x.h.kind then splitDone now m x i.line 0 false tick
  else
    let k : MsgKind := if x.h.kind == .lineWr then .lineAck else if x.h.kind == .mirrorWr then .mirrorCmp else k
    sendReply now m x (replyTo m x (sliceAtt s) k false err .ok [] (derivedPm x.pm tick) (answerSc m s x))

end Sys2Proof.Machine
end

