-- ==== Sys2Proof/Machine/Coherence.lean ====
section
/-!
DEFINITION. Chapter 06 with the execution side of chapter 07: confirmed items in line order, their values, commits, grants
and answers; the inputs; and the commands of the home slices.
-/

namespace Sys2Proof.Machine
open Sys2Proof

/-! ### Items -/

/-- The item with a sequence number. -/
def itemOf (m : Mach) (s seq : Nat) : Option Item := (sliceOf m s).items.find? (fun i => i.seq == seq)

/-- The machine with an item changed. -/
def modItem (m : Mach) (s seq : Nat) (f : Item → Item) : Mach :=
  modSlice m s (fun sl => { sl with items := sl.items.map (fun i => if i.seq == seq then f i else i) })

/-- The later items of its line may begin (R48): it has answered its reads and its write is in place (R173). -/
def passed (i : Item) : Bool :=
  match i.work with
  | .caching _ data => i.ndrSent && (i.dataSent || !data)
  | .ncRead => i.ndrSent && i.dataSent
  | .ncWrite | .writeback _ | .mirror | .atomic => i.committed
  | .specRd | .clnEvct | .conflict => i.ndrSent

/-- Everything the item needed has come: its entry and record are free (R138). -/
def finished (i : Item) : Bool := passed i && i.ndrSent && i.writing == 0 && i.copiesDue.isEmpty

/-- The first item of a line, in confirmation order, that has not passed (R48). -/
def lineHead (sl : Slice) (line : Nat) : Option Item :=
  lbest (fun a b => decide (a.conf < b.conf)) (sl.items.filter (fun i => i.line == line && i.conf != 0 && !passed i))

/-- Drop the finished items of a slice; a message whose life here has ended writes its record (R406). -/
def sweepDone (now s : Nat) (m : Mach) : Mach :=
  let gone := (sliceOf m s).items.filter (fun i => i.conf != 0 && finished i)
  if gone.isEmpty then m
  else
    let m := modSlice m s (fun sl => { sl with items := sl.items.filter (fun i => !(i.conf != 0 && finished i)) })
    gone.foldl (fun m i => if lifeOpen m i.msg.pm then m else rdClose m now i.msg.pm) m

/-- K of a slice's quadrant. -/
def kOf (m : Mach) (s : Nat) : Nat := carbonK m s

/-- Host index of an item's requester, for CXL.mem. -/
def itemHost (m : Mach) (s : Nat) (i : Item) : Option Nat := if isMem i.msg.h.kind then hostIndex m (s / 16) i.msg.src else none

/-- No snoop of the item is outstanding or held; for one that waits for all, none of its line to another host (R149, R154). -/
def snoopsDone (m : Mach) (s : Nat) (sl : Slice) (i : Item) : Bool :=
  !sl.snoops.any (fun n => n.line == i.line && (if i.waitAll then some n.host != itemHost m s i else n.item == i.seq))

/-- R147, R180: an item with postmark TICK `tick`, confirmed at `since`, leaves a host over quota, or the dirty count at its start
level: sweep and cleaning items are then due at the multiples of 16 ticks after its TICK. -/
def startAgents (m : Mach) (s tick since : Nat) : Mach :=
  let sl := sliceOf m s
  let next := tickAdd (tick / 16 * 16) 16
  let from_ := max since (expandTick since next)
  let sl := if sl.sweepDue == 0 && !(overHosts m s sl).isEmpty then { sl with sweepDue := next + 1, sweepFrom := from_ } else sl
  let d := dirtyCount sl
  let sl := if sl.cleanDue == 0 && d != 0 && decide (d * 100 ≥ gf m F.FCH_CFG_CLEAN_START * budgetOf m) then
      { sl with cleanDue := next + 1, cleanFrom := from_ } else sl
  modSlice m s (fun _ => sl)

/-! ### Committing a write (R138, R172, R178, R186) -/

/-- R187: a copy of a mirror group fails. -/
def degrade (now : Nat) (m : Mach) (g : Nat) (pm : Postmark) : Mach :=
  let m := sf m F.FCH_MGRP_STATUS_DEGRADED [g] 1
  let m := ackEvent (sf m F.FCH_MIRROR_EVT_LAST_GROUP [] g) F.FCH_MIRROR_EVT_DEGRADE
  event { m with home := { m.home with degraded := if m.home.degraded.contains g then m.home.degraded else m.home.degraded ++ [g] } }
    now 0x15 2 g pm

/-- Offset of copy `k` of mirror group `g` (R185). -/
def copyOffset (m : Mach) (g k : Nat) : Nat := gf m F.FCH_MGRP_OFF_OFFSET [g, k] * 2 ^ 28

/-- The copies of a mirrored write, none where the attribute names no valid group (R185). -/
def copiesOf (m : Mach) (x : Msg) : List Nat :=
  let g := x.attr.mirror
  if g != 0 && gfb m F.FCH_MGRP_CTL_VALID [g] then (List.range (gf m F.FCH_MGRP_CTL_COPIES [g])).map (· + 1) else []

/-- R186, R187: send copy `k` of what the item wrote, when a tracker is free; whether it was sent. -/
def sendCopy (now s : Nat) (m : Mach) (i : Item) (k : Nat) : Bool × Mach :=
  if m.home.copies.length ≥ 16384 then (false, m)
  else
    let (data, mask, poison) := i.out
    let g := i.msg.attr.mirror
    let a := (i.line + copyOffset m g k) % 2 ^ 52
    let pm := derivedPm i.msg.pm (laterTick i.tick i.dtick)
    let fail (m : Mach) : Mach := degrade now m g i.msg.pm
    match homeOf m a with
    | none => (true, fail m)
    | some pc =>
      if pc == ownPostcode m then
        let id := (sliceOf m s).nextId
        let (ok, m) := memberWrite now s m a none (.copy g k i.msg.pm.tick) data mask poison pm (some i.msg.pm) i.msg.sc 2
          i.msg.arrival
        if ok then (true, { m with home := { m.home with copies := m.home.copies ++ [⟨s, g, k, i.msg.pm.tick, id, none⟩] } })
        else (true, fail m)
      else
        let id := (sliceOf m s).nextId
        let m := modSlice m s (fun sl => { sl with nextId := id + 1 })
        let x := sliceMsg m s .mirrorWr a pc 2 i.msg.sc (s + 64 * id) pm (some i.msg.pm) i.msg.arrival
        let x := { x with h := { x.h with
          data := bytesOfLine data, len := 64, mask := mask, poison := poison, mtick := i.msg.pm.tick, mgroup := g, mcopy := k } }
        let via := match routeOut m x with | .port p => some p | _ => none
        let m := { m with home := { m.home with copies := m.home.copies ++ [⟨s, g, k, i.msg.pm.tick, id, via⟩] } }
        (true, sendOut now m x)

/-- R186: local copies whose member address equals the primary's leave with the primary's member write in one multicast:
the ports of such copies. -/
def sameCopies (m : Mach) (i : Item) : List (Nat × Nat) :=
  match memberFor m i.line i.msg.member with
  | none => []
  | some (_, ma) => (copiesOf m i.msg).filterMap (fun k =>
      let a := (i.line + copyOffset m i.msg.attr.mirror k) % 2 ^ 52
      if homeOf m a == some (ownPostcode m) then match memberOf m a with
        | some (p, b) => if b == ma && !contained m p then some (k, p) else none
        | none => none
      else none)

/-- R186: the primary's member write and its same-address copies, in one multicast through a device-managed group; none
where no group is free or there is no such copy. -/
def multicastWrite (now s : Nat) (m : Mach) (i : Item) (data : Line) (mask : Nat) (poison : Bool) (mc : Nat) : Option Mach :=
  let cs := sameCopies m i
  match memberFor m i.line i.msg.member, ((List.range 64).map (61440 + 64 * s + ·)).find? (fun g => !(sliceOf m s).groups.contains g) with
  | some (p, ma), some g =>
    if cs.isEmpty || contained m p || m.home.copies.length + cs.length > 16384 then none
    else
      let pm := derivedPm i.msg.pm (laterTick i.tick i.dtick)
      let m := modSlice (setGroup m g (p :: cs.map (·.2))) s (fun sl => { sl with groups := sl.groups ++ [g] })
      let (id, m) := addRecordWrite now m s i.line p (.write i.seq) data mask poison pm
      let m := cs.foldl (fun m c =>
        let a := (i.line + copyOffset m i.msg.attr.mirror c.1) % 2 ^ 52
        -- the copies share the primary's tag and are told apart by the member that answers
        let m := modSlice m s (fun sl => { sl with accesses := sl.accesses ++
          [⟨id, a, c.2, .copy i.msg.attr.mirror c.1 i.msg.pm.tick, data, mask, poison, pm, now⟩] })
        { m with home := { m.home with copies := m.home.copies ++ [⟨s, i.msg.attr.mirror, c.1, i.msg.pm.tick, id, none⟩] } }) m
      let x := memberMsg m s id i.line p ma true data mask poison pm (some i.msg.pm) i.msg.sc mc i.msg.arrival
      some (sendWrite now s m ⟨id, { x with dst := g }, .group g, none, now⟩)
  | _, _ => none

/-- Class of a committed write to its member (R111). -/
def commitClass (x : Msg) : Nat := if x.attr.cache == 2 then 2 else 5

/-- R186, R187: a committed write sends the copies it owes, as trackers free. -/
def payItem (now s : Nat) (m : Mach) (seq : Nat) : Mach :=
  match itemOf m s seq with
  | none => m
  | some i =>
    if !i.committed || i.writing != 0 then m
    else i.copiesDue.foldl (fun m k =>
      let (ok, m) := sendCopy now s m i k
      if ok then modItem m s seq (fun j => { j with copiesDue := j.copiesDue.erase k }) else m) m

/-- Write an item's line, or some bytes of it, to the member: its same-address copies leave in the same multicast, and its others
are owed at the commit (R178, R186). -/
def itemToMember (now s : Nat) (m : Mach) (i : Item) (data : Line) (mask : Nat) (poison : Bool) : Mach :=
  let pm := derivedPm i.msg.pm (laterTick i.tick i.dtick)
  let ks := copiesOf m i.msg
  let m := count m now 0x052 1 (msgInfo i.msg)
  let m := stage m now i.msg.pm 4 (128 + s) (tick48 now)
  let (m, done) : Mach × List Nat := match multicastWrite now s m i data mask poison (commitClass i.msg) with
    | some m' => (modItem m' s i.seq (fun j => { j with writing := j.writing + 1 }), (sameCopies m i).map (·.1))
    | none =>
      let (ok, m) := memberWrite now s m i.line i.msg.member (.write i.seq) data mask poison pm (some i.msg.pm) i.msg.sc
        (commitClass i.msg) i.msg.arrival
      (if ok then modItem m s i.seq (fun j => { j with writing := j.writing + 1 }) else m, [])
  modItem m s i.seq (fun j => { j with out := (data, mask, poison), copiesDue := ks.filter (fun k => !done.contains k) })

/-- R68: an item's line lies in no home range at its postmark: its message is dead-lettered as unroutable. -/
def rangeGone (now : Nat) (m : Mach) (x : Msg) (ans : DlAnswer) : Mach := deadLetter (countUnrouted m 0 6) now x 1 ans

/-- R172, R178: put `data` (the bytes in `mask`) into the line's data source for item `i`; the item is then committed, and
its completion waits for the member writes it made. A full-line write into a HOLLOW way of its line takes that way, whatever the
allocate attribute (DESIGN CHOICE: log entry 164). -/
def commitWrite (now s : Nat) (m : Mach) (ck : Nat) (i : Item) (data : Line) (mask : Nat) (poison : Bool) : Mach :=
  let sl := sliceOf m s
  let fs := fsetOf i.line
  let mayDirty := (copiesOf m i.msg).isEmpty
  -- the line changes: speculation on it is no longer valid (R51)
  let m := modSlice m s (fun sl => { sl with items := sl.items.map (fun j =>
    if !j.started && j.specOn && j.line == i.line then { j with specOk := false } else j) })
  let m := modItem m s i.seq (fun j => { j with committed := true })
  if mask == 0 then m
  else if (memberFor m i.line i.msg.member).isNone then rangeGone now m i.msg .logged
  else
    let inWay (m : Mach) (w : Nat) (d : Line) (po : Bool) : Mach :=
      let (dirty, m) := putInWay m s i.line w d po mayDirty
      if dirty then m else itemToMember now s m i d fullMask po
    match findWay sl i.line with
    | some (w, x) =>
      if x.hollow && mask != fullMask then itemToMember now s m i data mask poison
      else
        let m := modSlice m s (fun sl => setWays sl fs (touch (ways sl fs) w false))
        inWay m w (mergeLine x.data data mask) (poison || (x.poison && !x.hollow && mask != fullMask))
    | none =>
      if mask == fullMask && i.msg.attr.alloc && !setLost m fs then
        match freeWay (ways sl fs) with
        | some w =>
          let m := modSlice m s (fun sl => claimWay sl fs w i.line (heldA ck sl i.line))
          inWay m w data poison
        | none => itemToMember now s m i data mask poison
      else itemToMember now s m i data mask poison

/-! ### The line's value (R170, R171, R173, R183) -/

/-- The data source's value for item `i`: at once from a way or a whole record, else a member read is begun (`atomic`
always allocates, R191); poison where no home range holds the line (R68). -/
def obtain (now s : Nat) (m : Mach) (ck : Nat) (i : Item) (allocate : Bool) : Mach :=
  let sl := sliceOf m s
  let fs := fsetOf i.line
  let give (m : Mach) (v : Line × Bool) : Mach := modItem m s i.seq (fun j => { j with val := some v })
  let valid := i.specOn && i.specOk
  let m := stage m now i.msg.pm 4 (128 + s) (tick48 now)
  let miss (m : Mach) (hollow : Option Nat) : Mach :=
    let m := count m now 0x051 1 (msgInfo i.msg)
    let (bytes, mk, po) := recordBytes sl i.line
    if mk == fullMask then give m (bytes, po)
    else
      let kept := if valid then sl.accesses.find? (fun a => a.id == i.specId) else none
      let claim (m : Mach) : Mach :=
        match hollow with
        | some w => modSlice m s (fun sl => setWays sl fs (touch (ways sl fs) w false))
        | none =>
          if !allocate then m
          else match i.specWay with
            | some w => if valid then modSlice m s (fun sl => claimWay sl fs w i.line (heldA ck sl i.line))
                else (takeWay now s m ck i.line i.msg.pm.tick i.confAt).2
            | none => match takeWay now s m ck i.line i.msg.pm.tick i.confAt with
              | (some _, m) => m
              | (none, m) => modItem m s i.seq (fun j => { j with around := true })
      match (if valid then i.specVal else none), kept with
      | some (d, po, t), _ =>
        -- the kept speculative read has answered: its data, or its failure, is the line's (R50)
        let m := modSlice (claim m) s (fun sl => match findWay sl i.line with
          | some (w, x) => if x.hollow then modWay sl fs w (fun y => { y with hollow := false, data := d, poison := po }) else sl
          | none => sl)
        give (modItem m s i.seq (fun j => { j with dtick := laterTick j.dtick t })) (d, po)
      | none, some a =>
        let m := claim m
        modItem (modSlice m s (fun sl => { sl with accesses := sl.accesses.map (fun b =>
          if b.id == a.id then { b with why := .read i.seq } else b) })) s i.seq (fun j => { j with reading := a.id })
      | none, none =>
        let pm := derivedPm i.msg.pm (laterTick i.tick i.dtick)
        match memberRead now s m i.line i.msg.member (.read i.seq) pm (some i.msg.pm) i.msg.sc i.msg.arrival with
        | (some id, m) => modItem (claim m) s i.seq (fun j => { j with reading := id })
        | (none, m) => give m (0, true)
  if (memberFor m i.line i.msg.member).isNone then give (rangeGone now m i.msg .poison) (0, true)
  else match findWay sl i.line with
  | some (w, x) =>
    if x.hollow then miss m (some w)
    else if x.st != .dirty && (memberFor m i.line i.msg.member).any (fun k => contained m k.1) then give m (0, true)
    else
      let m := count m now 0x050 1 (msgInfo i.msg)
      let m := modSlice m s (fun sl => setWays sl fs (touch (ways sl fs) w false))
      give m (x.data, x.poison)
  | none => miss m none

/-! ### Far atomics (R189-R193) -/

/-- R189: the value an operation writes: `n` operand bytes, the old value, the operand and the compare value. -/
def atomicResult (op n old operand compare : Nat) : Nat :=
  let top := 2 ^ (8 * n)
  let o := operand % top
  let sgn (v : Nat) : Int := if v < top / 2 then v else (v : Int) - top
  match op with
  | 0 => (old + o) % top
  | 1 => o
  | 2 => if old == compare % top then o else old
  | 3 => min old o
  | 4 => max old o
  | 5 => if sgn o < sgn old then o else old
  | 6 => if sgn old < sgn o then o else old
  | _ => old

/-- Operand bytes of a size code (R189). -/
def atomicBytes (code : Nat) : Nat := 4 * 2 ^ (code % 4)

/-- R191: the line of an atomic stands in a way: the one that holds it, or one that R174 yields; none for an atomic that goes
around the cache (R192). `v` is the line's value. -/
def atomicWay (now s : Nat) (m : Mach) (ck : Nat) (i : Item) (v : Line × Bool) : Bool × Mach :=
  let fs := fsetOf i.line
  let fill (w : Nat) (m : Mach) : Mach := modSlice m s (fun sl => modWay sl fs w (fun y => { y with hollow := false, data := v.1, poison := v.2 }))
  match findWay (sliceOf m s) i.line with
  | some (w, x) => (true, if x.hollow then fill w m else m)
  | none =>
    if i.around then (false, m)
    else match takeWay now s m ck i.line i.msg.pm.tick i.confAt with
      | (some w, m) => (true, fill w m)
      | (none, m) => (false, m)

/-- R191-R193: perform item `i`'s atomic on the line's value: the result is written, and the old value answered. -/
def performAtomic (now s : Nat) (m : Mach) (ck : Nat) (i : Item) (v : Line × Bool) : Mach :=
  let m := count m now 0x053 1 (msgInfo i.msg)
  let n := atomicBytes i.msg.h.asize
  let off := i.msg.pool % 64
  let bs := bytesOfLine v.1
  let old := leAt bs off n
  let new := atomicResult i.msg.h.aop n old i.msg.h.operand i.msg.h.compare
  let (cached, m) := atomicWay now s (modItem m s i.seq (fun j => { j with val := some v, old := old })) ck i v
  let m := if cached then m else ackEvent m F.FCH_AROUND_AROUND
  if v.2 || new == old then modItem m s i.seq (fun j => { j with committed := true })
  else
    let data : Line := BitVec.ofNat 512 (new * 2 ^ (8 * off))
    let mask := (2 ^ n - 1) * 2 ^ off
    if cached then commitWrite now s m ck i data mask false
    else itemToMember now s (modItem m s i.seq (fun j => { j with committed := true })) i data mask false

/-- The old value of an atomic as the 64 bytes its answer carries. -/
def oldLine (i : Item) : Line := BitVec.ofNat 512 (i.old)

/-! ### Beginning and advancing an item -/

/-- R241: the item's line is in a private range (HDM-H). -/
def isPrivate (i : Item) : Bool := i.msg.attr.cache == 1

/-- R148, R149, R154, R155: item `i` is at the head of its line: its snoops are issued, and what needs none is done. -/
def startItem (now s : Nat) (m : Mach) (i : Item) : Mach :=
  let ck := kOf m s
  let m := scrubSet now s m ck (carbonSet ck i.line) i.msg.pm
  let sl := sliceOf m s
  let h? := itemHost m s i
  -- a private line (HDM-H) has no entry and is never snooped (R241)
  let hs := if isPrivate i then [] else (holders ck sl i.line).filter (fun x => some x.1 != h?)
  let owners := hs.filter (fun x => x.2 == .a)
  let pm := derivedPm i.msg.pm (laterTick i.tick i.dtick)
  let m := modItem m s i.seq (fun j => { j with started := true })
  let touch (m : Mach) (l : List Nat) : Mach := if isPrivate i then m else modSlice m s (fun sl => touchHosts ck sl i.line l)
  let m := touch m h?.toList
  let snoop (m : Mach) (ts : List (Nat × Nat)) : Mach :=
    newSnoops now s (touch m (ts.map (·.1))) ck i.seq i.line ts pm (some i.msg.pm) i.msg.arrival false false none
  let inv (m : Mach) (l : List (Nat × CSt)) : Mach :=
    snoop (modItem m s i.seq (fun j => { j with ownerWait := !owners.isEmpty })) (l.map (fun x => (x.1, 2)))
  match i.work with
  | .caching want _ =>
    if want == .a then inv m hs
    else snoop (modItem m s i.seq (fun j => { j with ownerWait := !owners.isEmpty })) (owners.map (fun x => (x.1, 1)))
  | .ncRead => snoop (modItem m s i.seq (fun j => { j with ownerWait := !owners.isEmpty })) (owners.map (fun x => (x.1, 0)))
  | .atomic => inv m hs
  | .ncWrite => inv m hs
  | .writeback mv =>
    match (if isPrivate i then none else h?) with
    | some h =>
      match hostState ck sl i.line h with
      | .a => modSlice m s (fun sl => setHostState ck sl i.line h (match mv with | .i => .i | .s => .s | .a => .a))
      | .s => inv (modItem (modSlice m s (fun sl => unfold ck (setHostState ck sl i.line h .i) i.line)) s i.seq
          (fun j => { j with work := .ncWrite })) hs
      | .i => inv (modItem m s i.seq (fun j => { j with work := .ncWrite })) hs
    | none => inv (modItem m s i.seq (fun j => { j with work := .ncWrite })) hs
  | .clnEvct =>
    match (if isPrivate i then none else h?) with
    | some h => modSlice m s (fun sl => unfold ck (setHostState ck sl i.line h .i) i.line)
    | none => m
  | .mirror | .specRd | .conflict => m

/-- The NDR of a grant (R148). -/
def grantNdr (want : MetaVal) : MsgKind := match want with | .s => .cmpS | .a => .cmpE | .i => .cmp

/-- Completion of a write item once nothing is left to wait for (R154), and then its copies (R186, R187). -/
def finishWrite (now s : Nat) (m : Mach) (seq : Nat) : Mach :=
  match itemOf m s seq with
  | none => m
  | some i =>
    if i.committed && !i.ndrSent && i.writing == 0 then
      let t := laterTick i.tick i.dtick
      let m := modItem m s seq (fun j => { j with ndrSent := true })
      let m := if i.work == .atomic then sendData now s m { i with dtick := t } (oldLine i, (i.val.map (·.2)).getD false)
        else sendDone now s m i .cmp t false
      payItem now s m seq
    else payItem now s m seq

/-- R162, R437: a caching request of a shared line with no host index, or with no storage for its set. -/
def refusedItem (m : Mach) (s : Nat) (i : Item) : Bool :=
  match i.work with
  | .caching _ _ => !isPrivate i && ((cachingIndex m (s / 16) i.msg).isNone || m.home.noStorage.contains (carbonSet (kOf m s) i.line % 8))
  | _ => false

/-- What item `seq` at the head of its line, or one let in before its turn, can do now. -/
def workItem (now s seq : Nat) (m : Mach) : Mach :=
  let ck := kOf m s
  let m := match itemOf m s seq with
    | some i =>
      if i.started || (sliceOf m s).snoops.any (fun n => n.line == i.line) then m
      else if refusedItem m s i then modItem m s seq (fun j => { j with started := true })
      else startItem now s m i
    | none => m
  match itemOf m s seq with
  | none => m
  | some i =>
    if !i.started || i.stuck then m
    else
      let sl := sliceOf m s
      let ready := snoopsDone m s sl i
      if refusedItem m s i && !i.ndrSent then
        let m := if (cachingIndex m (s / 16) i.msg).isNone then protoErr now m (s / 16) 4 i.msg.src 0xFFFF i.msg.pm else m
        let m := match i.work with
          | .caching _ true => sendData now s m i (0, true)
          | _ => m
        sendDone now s (modItem m s seq (fun j => { j with ndrSent := true, dataSent := true })) i .cmp i.tick false
      else
        let wantsValue := match i.work with
          | .caching _ data => data && !i.dataSent
          | .ncRead => !i.dataSent
          | .atomic => ready && !i.committed
          | _ => false
        let canValue := i.wb.isSome || !i.ownerWait || ready
        -- the value: an owner's whole writeback, or the data source with a partial writeback merged over it (R152)
        let m :=
          if wantsValue && canValue && i.val.isNone && i.reading == 0 then
            match i.wb with
            | some (d, mk, po) => if mk == fullMask then modItem m s seq (fun j => { j with val := some (d, po) })
                else obtain now s m ck i (i.msg.attr.alloc || i.work == .atomic)
            | none =>
              let i := if i.ownerWait then { i with dtick := laterTick i.dtick i.tick } else i
              obtain now s (modItem m s seq (fun j => { j with dtick := i.dtick })) ck i (i.msg.attr.alloc || i.work == .atomic)
          else m
        match itemOf m s seq with
        | none => m
        | some i =>
          let value := i.val.map (fun v => match i.wb with
            | some (d, mk, po) => if mk == fullMask then (d, po) else (mergeLine v.1 d mk, v.2 || po)
            | none => v)
          match i.work with
          | .caching want data =>
            let m := match data && !i.dataSent, value with
              | true, some v => sendData now s (modItem m s seq (fun j => { j with dataSent := true })) i v
              | _, _ => m
            -- the NDR waits for the BIRsps alone (R148)
            if ready && !i.ndrSent then
              if isPrivate i then
                sendDone now s (modItem m s seq (fun j => { j with ndrSent := true })) i (grantNdr want) i.tick false
              else match cachingIndex m (s / 16) i.msg with
              | none => m
              | some h =>
                let behind := (sliceOf m s).items.any (fun j => j.stuck && decide (j.conf < i.conf))
                let fifth := want != .a && !behind && fifthEntry (sliceOf m s) ck i.line h i.wideWait
                match (if behind then (false, m)
                    else grant now s m ck i.line h i.msg.pm.tick i.confAt i.wideWait (if want == .a then .a else .s)) with
                | (false, m) => modItem m s seq (fun j => { j with stuck := true, wideWait := fifth })
                | (true, m) =>
                  let m := modSlice m s (fun sl => noteOwned ck (notePend ck sl i.line) i.line)
                  let m := stage m now i.msg.pm 3 (128 + s) (tick48 now)
                  sendDone now s (modItem m s seq (fun j => { j with ndrSent := true })) i (grantNdr want) i.tick false
            else m
          | .ncRead =>
            let m := match !i.dataSent, value with
              | true, some v => sendData now s (modItem m s seq (fun j => { j with dataSent := true })) i v
              | _, _ => m
            if ready && !i.ndrSent then
              let m := modItem m s seq (fun j => { j with ndrSent := true })
              if isMem i.msg.h.kind then sendDone now s m i .cmp i.tick false else m
            else m
          | .atomic =>
            match ready && !i.committed, value with
            | true, some v => finishWrite now s (performAtomic now s m ck i v) seq
            | _, _ => finishWrite now s m seq
          | .ncWrite =>
            let left := if i.waitAll then (holders ck sl i.line).filter (fun x => some x.1 != itemHost m s i) else []
            if ready && !i.committed && !left.isEmpty then
              -- a holder that another item's snoop has left in S or A is invalidated too (R149, R154)
              newSnoops now s m ck i.seq i.line (left.map (fun x => (x.1, 2))) (derivedPm i.msg.pm i.tick) (some i.msg.pm)
                i.msg.arrival false false none
            else if ready && !i.committed then
              let (d, mk, po) := match i.wb with
                | some (d, mk, po) => (mergeLine d i.data i.mask, i.mask ||| mk, i.poison || (po && i.mask != fullMask))
                | none => (i.data, i.mask, i.poison)
              finishWrite now s (commitWrite now s m ck i d mk po) seq
            else finishWrite now s m seq
          | .writeback _ =>
            if !i.committed then finishWrite now s (commitWrite now s m ck i i.data i.mask i.poison) seq
            else finishWrite now s m seq
          | .mirror =>
            if !i.committed then
              -- around the cache to the member; a cached copy is updated, at the AGE that it has (R186; DESIGN CHOICE: log entry 165)
              let m := match findWay (sliceOf m s) i.line with
                | some (w, x) =>
                  if x.hollow then m
                  else if x.st == .dirty then (putInWay m s i.line w (mergeLine x.data i.data i.mask) (i.poison || (x.poison && i.mask != fullMask)) true).2
                  else modSlice m s (fun sl => modWay sl (fsetOf i.line) w (fun y => { y with
                    data := mergeLine y.data i.data i.mask, poison := i.poison || (y.poison && i.mask != fullMask) }))
                | none => m
              let m := modItem m s seq (fun j => { j with committed := true })
              let i := { i with msg := { i.msg with attr := { i.msg.attr with mirror := 0, cache := 2 } } }
              finishWrite now s (itemToMember now s m i i.data i.mask i.poison) seq
            else finishWrite now s m seq
          | .clnEvct =>
            if !i.ndrSent then sendDone now s (modItem m s seq (fun j => { j with ndrSent := true })) i .cmp i.tick false else m
          | .specRd | .conflict => m

/-- One round of what item `seq` can do now, under the configuration at its postmark (R346); what it leaves may start a sweep or
cleaning (R147, R180). -/
def stepItem (now s : Nat) (m : Mach) (seq : Nat) : Mach :=
  match itemOf m s seq with
  | none => m
  | some i => withCfg i.msg.pm (fun m => startAgents (workItem now s seq m) s i.msg.pm.tick i.confAt) m

/-- R152, R154: dirty data of an owner that comes while item `j` waits: merged over what has come so far. -/
def offerData (j : Item) (data : Line) (mask : Nat) (poison : Bool) (tick : Nat) : Item :=
  { j with
    wb := some (match j.wb with
      | none => (data, mask, poison)
      | some (d, mk, po) => (mergeLine d data mask, mask ||| mk, if mask == fullMask then poison else po || poison))
    dtick := laterTick j.dtick tick }

/-- R149, R156: an eviction or writeback of `h` while a snoop to `h` for the line is outstanding is accepted at once,
wherever it stands in the line's order: dirty data is committed and offered to the item that waits for it (R152). -/
def acceptEviction (now s : Nat) (m : Mach) (i : Item) (h : Nat) : Mach :=
  let ck := kOf m s
  let sl := sliceOf m s
  let inEvb := sl.evb.any (fun v => v.line == i.line && v.hosts.contains h)
  let st := if inEvb then ((sl.evb.find? (fun v => v.line == i.line)).map (fun v => v.e.st)).getD .i else hostState ck sl i.line h
  let toI (m : Mach) : Mach := modSlice m s (fun sl =>
    if inEvb then noteOwned ck
      { sl with evb := sl.evb.map (fun v => if v.line == i.line && !v.e.wide then { v with e := { v.e with st := .i } } else v) } i.line
    else setHostState ck sl i.line h .i)
  let waiting := sl.items.find? (fun j => j.seq != i.seq && j.started && !passed j && j.line == i.line &&
    sl.snoops.any (fun n => n.item == j.seq && n.host == h && n.line == i.line))
  let m := modItem m s i.seq (fun j => { j with started := true })
  match i.work with
  | .clnEvct => sendDone now s (modItem (toI m) s i.seq (fun j => { j with ndrSent := true })) i .cmp i.tick false
  | .writeback mv =>
    if st == .s && mv != .i then
      -- accepted as a non-caching write; the snoop outstanding to h completes the entry
      let m := toI m
      let hs := (holders ck (sliceOf m s) i.line).filter (fun x => x.1 != h)
      newSnoops now s (modItem m s i.seq (fun j => { j with work := .ncWrite, waitAll := true })) ck i.seq i.line (hs.map (fun x => (x.1, 2)))
        (derivedPm i.msg.pm i.tick) (some i.msg.pm) i.msg.arrival false false none
    else
      let m := if mv == .i then toI m else m
      let merged : Bool := match waiting with | some j => j.work == .ncWrite && j.mask != 0 | none => false
      let m := match waiting with
        | some j => if j.dataSent || j.committed then m
            else modItem m s j.seq (fun k => offerData k i.data i.mask i.poison i.msg.pm.tick)
        | none => m
      if merged then finishWrite now s (modItem m s i.seq (fun j => { j with committed := true })) i.seq
      else finishWrite now s (commitWrite now s m ck i i.data i.mask i.poison) i.seq
  | _ => m

/-- The next eviction or writeback of a line that a snoop outstanding to its host lets in (R149, R156). -/
def nextEviction (m : Mach) (s line : Nat) : Option (Item × Nat) :=
  let sl := sliceOf m s
  (sl.items.filter (fun i => i.line == line && i.conf != 0 && !i.started &&
    (match i.work with | .clnEvct | .writeback _ => true | _ => false))).findSome? (fun i =>
      match hostIndex m (s / 16) i.msg.src with
      | some h => if (snoopTo sl line h).isSome then some (i, h) else none
      | none => none)

/-- R38: what an item waited for, the items that waited behind it in line order waited for too. -/
def inherit (s : Nat) (m : Mach) (i : Item) : Mach :=
  let t := laterTick i.tick i.dtick
  modSlice m s (fun sl => { sl with items := sl.items.map (fun j =>
    if j.line == i.line && j.conf != 0 && !j.started then { j with tick := laterTick j.tick t, dtick := laterTick j.dtick t } else j) })

/-- Run a line until its head can do no more. -/
def runLine (now s line : Nat) : Nat → Mach → Mach
  | 0, m => m
  | fuel + 1, m =>
    match nextEviction m s line with
    | some (i, h) => runLine now s line fuel (acceptEviction now s m i h)
    | none =>
      match lineHead (sliceOf m s) line with
      | none => sweepDone now s m
      | some i =>
        let m := stepItem now s m i.seq
        match itemOf m s i.seq with
        | some j => if passed j then runLine now s line fuel (inherit s m j)
            else match nextEviction m s line with
              | some _ => runLine now s line fuel m
              | none => sweepDone now s m
        | none => runLine now s line fuel m

/-- Run a line, with room for every item it can hold. -/
def advance (now s line : Nat) (m : Mach) : Mach :=
  -- items that accepted evictions out of order, or that wait only for member writes, finish by themselves
  let later := ((sliceOf m s).items.filter (fun i => i.line == line && i.started && i.conf != 0)).map (·.seq)
  let m := later.foldl (fun m q => match itemOf m s q with
    | some i => (match i.work with
      | .ncWrite => if !i.committed then stepItem now s m q else finishWrite now s m q
      | _ => finishWrite now s m q)
    | none => m) m
  runLine now s line (3 * (sliceOf m s).items.length + 3) m

/-! ### Snoop answers (R149) -/

/-- R144, R146: an item waits for a slot or for room in the eviction buffer, and there is none for the first that waits. -/
def slotWaits (now s : Nat) (m : Mach) : Bool :=
  match lbest (fun (a b : Item) => decide (a.conf < b.conf)) ((sliceOf m s).items.filter (·.stuck)) with
  | none => false
  | some i => match cachingIndex m (s / 16) i.msg, i.work with
    | some h, .caching want _ =>
      !(grant now s m (kOf m s) i.line h i.msg.pm.tick i.confAt i.wideWait (if want == .a then .a else .s)).1
    | _, _ => false

/-- R38, R146: the items that wait for a slot, and the items of the slice that wait with them, take the TICK of the answer that
frees it. -/
def slotTick (s tick : Nat) (m : Mach) : Mach :=
  modSlice m s (fun sl => { sl with items := sl.items.map (fun j =>
    if j.stuck || j.conf == 0 then { j with tick := laterTick j.tick tick, dtick := laterTick j.dtick tick } else j) })

/-- R149: snoop `n` completes with its host reporting `st`: the entry's new state, the item's TICK, and the eviction buffer. -/
def completeSnoop (now s : Nat) (m : Mach) (n : Snoop) (st : CSt) (tick : Nat) : Mach :=
  let ck := kOf m s
  let m := if slotWaits now s m then slotTick s tick m else m
  let m := modSlice m s (fun sl => { sl with snoops := sl.snoops.filter (fun k => !(k.id == n.id && k.host == n.host && k.line == n.line)) })
  let m :=
    if n.evb then
      modSlice m s (fun sl =>
        let left := sl.snoops.any (fun k => k.evb && k.line == n.line)
        let v := sl.evb.find? (fun v => v.line == n.line)
        let sl := if left then sl else { sl with evb := sl.evb.filter (fun v => v.line != n.line) }
        let sl := match left, v with
          | false, some v => if v.e.wide then freeVec sl v.e.vec else sl
          | _, _ => sl
        noteOwned ck sl n.line)
    else modSlice m s (fun sl => unfold ck (setHostState ck sl n.line n.host st) n.line)
  -- an item that waits in line order behind the snoops of a sweep takes the answer's TICK (R38, R148)
  let m := if n.item == 0 then modSlice m s (fun sl => { sl with items := sl.items.map (fun i =>
      if i.line == n.line && i.conf != 0 && !i.started then { i with tick := laterTick i.tick tick, dtick := laterTick i.dtick tick } else i) })
    else modItem m s n.item (fun i => { i with tick := laterTick i.tick tick })
  advance now s n.line m

/-- R163: removals known to slice `s` whose postmark is not after `pm` take effect: outstanding snoops to the host complete
as if by BIRspI, with the poison rule, and its entries are freed as they are met. -/
def applyRemovals (now s : Nat) (m : Mach) (pm : Postmark) : Mach :=
  (m.home.removals.filter (fun r => r.quad == s / 16 && !r.applied.contains s && !pmBefore pm r.pm)).foldl (fun m r =>
    let m := { m with home := { m.home with removals := m.home.removals.map (fun x =>
      if x == r then { x with applied := x.applied ++ [s] } else x) } }
    let m := modSlice m s (fun sl => { sl with removed := sl.removed ++ [r.host] })
    ((sliceOf m s).snoops.filter (fun n => n.host == r.host)).foldl (fun m n =>
      let ck := kOf m s
      let sl := sliceOf m s
      let a := if n.evb then (sl.evb.find? (fun v => v.line == n.line)).any (fun v => v.e.st == .a)
        else hostState ck sl n.line n.host == .a
      let m := if a then poisonLine now s m n.line r.pm else m
      completeSnoop now s m n .i r.pm.tick) m) m

/-! ### Choosing what a slice does next (R48, R140) -/

/-- The slice is serving (R434). -/
def serving (m : Mach) (s : Nat) : Bool :=
  bitAt (gf m F.HQ_SLICE_MAP_ACTIVE [s / 16]) (s % 16) && !bitAt (gf m F.HQ_SLICE_MAP_PAUSED [s / 16]) (s % 16)

/-- An eviction or writeback from a host that is being snooped for its line: it is accepted at once (R149, R156). -/
def answersSnoop (m : Mach) (s : Nat) (i : Item) : Bool :=
  (i.msg.h.kind == .memClnEvct || isRwD i.msg.h.kind) &&
    (match hostIndex m (s / 16) i.msg.src with | some h => (snoopTo (sliceOf m s) i.line h).isSome | none => false)

/-- The earliest open item of a slice that may be confirmed: while an item waits for a slot, the others wait with it (R146), but for
what the snoops that free one wait for, and BIConflict, which waits for no open work (R151). -/
def earliestItem (m : Mach) (s : Nat) : Option Item :=
  let sl := sliceOf m s
  let held := sl.items.any (·.stuck)
  lbest (fun a b => pmBefore a.msg.pm b.msg.pm || (a.msg.pm == b.msg.pm && decide (a.line < b.line)))
    (sl.items.filter (fun i => i.conf == 0 && (!held || answersSnoop m s i || i.work == .conflict)))

/-- R140: the input of a slice to apply next: an arrival-mode line's at once, else the earliest by postmark, once the
horizon has passed it and no open item is earlier. -/
def nextInput (m : Mach) (s : Nat) : Option Msg :=
  let sl := sliceOf m s
  match sl.inputs.find? (fun i => (attrOf m (inputLine sl i.msg)).arrival) with
  | some i => some i.msg
  | none =>
    match lbest (fun (a b : Input) => pmBefore a.msg.pm b.msg.pm) sl.inputs with
    | none => none
    | some i =>
      let early := match earliestItem m s with | some e => pmBefore e.msg.pm i.msg.pm | none => false
      if !early && horizonPast m (1024 + s) i.msg.pm.tick then some i.msg else none

/-- R44, R48: the item of a slice to confirm next. -/
def nextItem (m : Mach) (s : Nat) : Option Item :=
  let sl := sliceOf m s
  match earliestItem m s with
  | none => none
  | some e =>
    let early := sl.inputs.any (fun i => pmBefore i.msg.pm e.msg.pm)
    if !early && horizonPast m (1024 + s) e.msg.pm.tick then some e else none

/-- Drop an input. -/
def dropInput (m : Mach) (s : Nat) (x : Msg) : Mach :=
  modSlice m s (fun sl => { sl with inputs := sl.inputs.erase ⟨x⟩ })

/-! ### Confirming (R48-R52) -/

/-- R183: an uncorrectable error in way `w` of set `fs`, and in its mirror too where `mirror`: a clean way is lost, a dirty one is
restored from its mirror, and the line is poison where both fail. -/
def wayError (now s : Nat) (m : Mach) (fs w : Nat) (mirror : Bool) (pm : Postmark) : Mach :=
  let x := (ways (sliceOf m s) fs).getD w {}
  if x.st != .clean && x.st != .dirty then m
  else
    let line := lineOfWay s x.tag
    let m := rasLog m now 0x02 2 (fs % 8) pm line 0 0 0 (b2n mirror * 256)
    if x.st == .clean then modSlice m s (fun sl => modWay sl fs w (fun _ => {}))
    else if mirror then
      let m := modSlice m s (fun sl => freeMirror sl fs w x.tag)
      let m := modSlice m s (fun sl => modWay sl fs w (fun y => { y with st := .clean }))
      poisonLine now s m line pm
    else m

/-- R183, R431, R432: what the slice found in HBM as it confirmed item `i`. -/
def hbmErrors (now s : Nat) (m : Mach) (i : Item) (e : HbmErr) : Mach :=
  let ck := kOf m s
  let k := carbonSet ck i.line
  let fs := fsetOf i.line
  let m := wrapAdd (wrapAdd m F.RAS_ECC_CORR_HBM e.fixed) F.RAS_ECC_CORR_SRAM e.fixedSram
  let m := match e.way, findWay (sliceOf m s) i.line with
    | true, some (w, _) => wayError now s m fs w e.mirror i.msg.pm
    | _, _ => m
  let m := e.ways.foldl (fun m z => wayError now s m fs z.1 z.2 i.msg.pm) m
  if e.carbon == 0 then m
  else
    let m := rasLog m now 0x02 2 (k % 8) i.msg.pm i.line 0 0 0 (2 + b2n (e.carbon == 3) * 256)
    if e.carbon == 2 then
      -- the merged set holds the higher state of the two copies
      e.other.foldl (fun m o =>
        let line := lineOfCarbon ck s k o.1
        let cur := hostState ck (sliceOf m s) line o.2.1
        if o.2.2 == 0 || cur == .a || (cur == .s && o.2.2 == 1) || carbonSet ck line != k then m
        else (grant now s m ck line o.2.1 i.msg.pm.tick now false (if o.2.2 == 1 then .s else .a)).2) m
    else if e.carbon == 3 then
      let m := modSlice m s (fun sl => setSlots ck sl k [])
      let m := if m.home.setCensus.isEmpty && m.home.pairCensus.isEmpty then wr m Reg.RAS_CENSUS_STATUS [] (statusWord 0 2 0 0) else m
      { m with home := { m.home with setCensus := m.home.setCensus ++ [⟨s, k, 0, 0, tickAdd i.msg.pm.tick 16, now⟩] } }
    else m

/-- The set of an item's line is being censused (R433): the item waits behind the census. -/
def inCensus (m : Mach) (s line : Nat) : Bool :=
  let k := carbonSet (kOf m s) line
  m.home.setCensus.any (fun c => c.slice == s && c.set == k && decide (c.tag ≤ lineTag line))
    || m.home.pairCensus.any (fun c => c.slice == s && k % 4 == c.set % 4 && decide (c.set ≤ k))

/-- The item's confirmation changes its line (R51). -/
def changesLine (i : Item) : Bool :=
  match i.work with
  | .ncWrite | .writeback _ | .atomic | .mirror => true
  | _ => false

/-- R48: confirm item `i` of slice `s` and run its line, under the configuration at its postmark (R346). -/
def confirmItem (now s : Nat) (m : Mach) (i : Item) (e : HbmErr) : Mach := withCfg i.msg.pm (m := m) fun m =>
  let m := applyRemovals now s m i.msg.pm
  let m := hbmErrors now s m i e
  let wait := (expandTick now (tick48 now)) - (expandTick now i.msg.pm.tick)
  let m := count (count m now 0x040 1 (msgInfo i.msg)) now 0x041 wait (msgInfo i.msg)
  let m := stage m now i.msg.pm 2 (128 + s) (tick48 now)
  let n := (sliceOf m s).nextConf
  let m := modSlice m s (fun sl => { sl with nextConf := n + 1 })
  let m := modItem m s i.seq (fun j => { j with conf := n, confAt := now })
  let m := if changesLine i then modSlice m s (fun sl => { sl with items := sl.items.map (fun j =>
      if j.conf == 0 && j.specOn && j.line == i.line then { j with specOk := false } else j) }) else m
  let m := if i.specOn && !((itemOf m s i.seq).any (·.specOk)) then
      count (count m now 0x043 1 (msgInfo i.msg)) now 0x045 (if i.specId == 0 then 0 else 1) (msgInfo i.msg)
    else m
  match i.work with
  | .specRd => sweepDone now s (modItem m s i.seq (fun j => { j with ndrSent := true }))
  | .conflict =>
    sweepDone now s (sendDone now s (modItem m s i.seq (fun j => { j with ndrSent := true })) i .biConflictAck i.msg.pm.tick false)
  | _ =>
    startAgents (advance now s i.line m) s i.msg.pm.tick now

/-! ### The commands -/

/-- What CONFIRM command confirms an item. -/
inductive ConfirmKind where
  | memRd | memInv | memSpecRd | memClnEvct | biConflict | writeback | ncWrite | ncRead | farAtomic | ioPool | mirrorWrite
  deriving DecidableEq, Repr

/-- The command for an item: RwD from a host that holds the line in A, or that is being snooped for it, is a writeback. -/
def confirmKind (m : Mach) (s : Nat) (i : Item) : ConfirmKind :=
  match i.msg.h.kind with
  | .memRd | .memRdData => .memRd
  | .memInv | .memInvNT => .memInv
  | .memSpecRd => .memSpecRd
  | .memClnEvct => .memClnEvct
  | .biConflict => .biConflict
  | .memWr | .memWrPtl =>
    match hostIndex m (s / 16) i.msg.src with
    | some h => if (hostState (kOf m s) (sliceOf m s) i.line h == .a && !isPrivate i) || (snoopTo (sliceOf m s) i.line h).isSome then .writeback
        else .ncWrite
    | none => .ncWrite
  | .lineRd => .ncRead
  | .lineAtomic | .fetchAdd | .swap | .cas => .farAtomic
  | .mirrorWr => .mirrorWrite
  | .lineWr => .ncWrite
  | _ => .ioPool

/-- R48: the confirmation of slice `s`, where the item to confirm next is of kind `k`. -/
def confirm (k : ConfirmKind) (s : Nat) (e : HbmErr) (now : Nat) (m : Mach) : Mach :=
  if s ≥ 64 || !serving m s then m
  else match nextItem m s with
    | some i => if confirmKind m s i == k && !inCensus m s i.line then confirmItem now s m i e else m
    | none => m

/-- The meaning of CONFIRM_MEMRD. -/
def execConfirmMemRd (s : Nat) (e : HbmErr) (st : State) := onMachW (confirm .memRd s e) st

/-- The meaning of CONFIRM_MEMINV. -/
def execConfirmMemInv (s : Nat) (e : HbmErr) (st : State) := onMachW (confirm .memInv s e) st

/-- The meaning of CONFIRM_MEMSPECRD. -/
def execConfirmMemSpecRd (s : Nat) (st : State) := onMachW (confirm .memSpecRd s {}) st

/-- The meaning of CONFIRM_MEMCLNEVCT. -/
def execConfirmMemClnEvct (s : Nat) (e : HbmErr) (st : State) := onMachW (confirm .memClnEvct s e) st

/-- The meaning of CONFIRM_BICONFLICT. -/
def execConfirmBiConflict (s : Nat) (st : State) := onMachW (confirm .biConflict s {}) st

/-- The meaning of CONFIRM_WRITEBACK. -/
def execConfirmWriteback (s : Nat) (e : HbmErr) (st : State) := onMachW (confirm .writeback s e) st

/-- The meaning of CONFIRM_NONCACHING_WRITE. -/
def execConfirmNoncachingWrite (s : Nat) (e : HbmErr) (st : State) := onMachW (confirm .ncWrite s e) st

/-- The meaning of CONFIRM_NONCACHING_READ. -/
def execConfirmNoncachingRead (s : Nat) (e : HbmErr) (st : State) := onMachW (confirm .ncRead s e) st

/-- The meaning of CONFIRM_FAR_ATOMIC. -/
def execConfirmFarAtomic (s : Nat) (e : HbmErr) (st : State) := onMachW (confirm .farAtomic s e) st

/-- The meaning of CONFIRM_CXL_IO_POOL. -/
def execConfirmCxlIoPool (s : Nat) (e : HbmErr) (st : State) := onMachW (confirm .ioPool s e) st

/-- The meaning of CONFIRM_MIRROR_WRITE. -/
def execConfirmMirrorWrite (v : HbmVisit) (st : State) := onMachW (confirm .mirrorWrite v.n v.e) st

/-- Work of an item by its message (R148, R154, R155); an uncached line is served as MetaValue I (R241). -/
def workOf (x : Msg) : Work :=
  let mv : MetaVal := if x.attr.cache == 0 then .i else if x.h.kind == .memRdData then .s else x.h.mv
  match x.h.kind with
  | .memRd | .memRdData => if mv == .i then .ncRead else .caching mv true
  | .memInv | .memInvNT => if mv == .i then .ncWrite else .caching mv false
  | .memSpecRd => .specRd
  | .memClnEvct => .clnEvct
  | .biConflict => .conflict
  | .memWr | .memWrPtl => .writeback mv
  | .lineRd | .mrd => .ncRead
  | .lineAtomic | .fetchAdd | .swap | .cas => .atomic
  | .mirrorWr => .mirror
  | _ => .ncWrite

/-- The line, data and byte mask of an item: a CXL.io write brings the bytes of this line (R112). -/
def itemData (x : Msg) : Line × Nat :=
  match x.h.kind with
  | .memWr => (lineOf x.h.data, fullMask)
  | .mirrorWr | .lineWr => (lineOf x.h.data, if x.h.mask == 0 then fullMask else x.h.mask % 2 ^ 64)
  | .memWrPtl => (lineOf x.h.data, x.h.mask % 2 ^ 64)
  | .mwr =>
    let off := x.pool % 64
    (BitVec.ofNat 512 (leNat x.h.data * 2 ^ (8 * off)), (2 ^ x.h.data.length - 1) * 2 ^ off % 2 ^ 64)
  | _ => (0, 0)

/-- R137, R138, R46: does the slice admit the message: with a shared or a reserved intake entry, and a record for MC2, MC5
and MC6; the answer tells which are reserved. -/
def intakeRoom (m : Mach) (s : Nat) (t : Transit) : Option (Bool × Bool) :=
  let sl := sliceOf m s
  let rec? := t.msg.mc == 2 || t.msg.mc == 5 || t.msg.mc == 6
  let holdsEntry (i : Item) : Bool := i.conf == 0 || !(i.msg.mc == 2 || i.msg.mc == 5 || i.msg.mc == 6)
  let isRec (i : Item) : Bool := i.msg.mc == 2 || i.msg.mc == 5 || i.msg.mc == 6
  let shared := (sl.items.filter (fun i => holdsEntry i && !i.reservedEntry)).length < 256
  let sharedRec := (sl.items.filter (fun i => isRec i && !i.reservedRec)).length < 512
  let same (i : Item) : Bool := i.msg.pm.source == t.msg.pm.source && i.msg.mc == t.msg.mc
  let old := oldestAt m t
  let resv := old && !sl.items.any (fun i => holdsEntry i && i.reservedEntry && same i)
  let resvRec := old && !sl.items.any (fun i => i.reservedRec && same i)
  if (shared || resv) && (!rec? || sharedRec || resvRec) then some (!shared, rec? && !sharedRec) else none

/-- R49, R50: the slice begins a speculative member read for an item that just arrived. -/
def speculate (now s : Nat) (m : Mach) (seq : Nat) : Mach :=
  match itemOf m s seq with
  | none => m
  | some i =>
    let reads := match i.work with | .caching _ d => d | .ncRead | .atomic | .specRd => true | _ => false
    if !gfb m F.FTM_CTL_SPEC_EN || i.conf != 0 then m
    else
      let m := count (modItem m s seq (fun j => { j with specOn := true, specOk := true })) now 0x042 1 (msgInfo i.msg)
      let hit := match findWay (sliceOf m s) i.line with | some (_, x) => !x.hollow | none => false
      if !reads || !i.msg.attr.specAllowed || hit || (recordBytes (sliceOf m s) i.line).2.1 != 0 then m
      else match memberRead now s m i.line i.msg.member (.spec seq) i.msg.pm (some i.msg.pm) i.msg.sc i.msg.arrival with
        | (some id, m) => count (modItem m s seq (fun j => { j with specId := id })) now 0x044 1 (msgInfo i.msg)
        | (none, m) => m

/-- R137-R140, R49, R52: ITEM_ARRIVAL: transit `n`, whole at its slice, takes its entry and record and begins speculation;
an arrival-mode item is confirmed at once. Without room it is refused, as at an egress. -/
def itemArrival (n : Nat) (e : HbmErr) (now : Nat) (m : Mach) : Mach :=
  match m.sof.transit[n]? with
  | none => m
  | some t =>
    match t.tgt with
    | .slice s =>
      if s ≥ 64 || !atDoor t || t.got.length < t.msg.n || isInput t.msg.h.kind || bitAt (gf m F.HQ_SLICE_MAP_PAUSED [s / 16]) (s % 16) then m
      else match intakeRoom m s t with
        | none => if t.phase == .pinned then m else refuse now m t [1024 + s]
        | some (re, rr) =>
          let line := t.msg.pool / 64 * 64
          let seq := (sliceOf m s).nextSeq
          let (d, mk) := itemData t.msg
          let i : Item := { seq := seq, msg := t.msg, work := workOf t.msg, line := line, data := d, mask := mk, poison := t.msg.h.poison,
                            reservedEntry := re, reservedRec := rr, tick := t.msg.pm.tick, dtick := t.msg.pm.tick }
          let m := onAdmitted (dropTransit m t.key) t.msg
          let m := stage m now t.msg.pm 1 (128 + s) (tick48 now)
          -- an earlier-postmarked arrival for a line ends the speculation of later ones (R51)
          let m := modSlice m s (fun sl => { sl with
            nextSeq := seq + 1
            items := sl.items.map (fun j => if j.conf == 0 && j.line == line && pmBefore t.msg.pm j.msg.pm then
              { j with specOk := false } else j) ++ [i] })
          if t.msg.arrival then confirmItem now s m i e else speculate now s m seq
    | _ => m

/-- The meaning of ITEM_ARRIVAL. -/
def execItemArrival (v : HbmVisit) (st : State) := onMachW (itemArrival v.n v.e) st

/-- R149, R153: APPLY_BIRSP at slice `s`: the next input is a BIRsp. -/
def applyBirsp (s : Nat) (now : Nat) (m : Mach) : Mach :=
  if s ≥ 64 || !serving m s then m
  else match nextInput m s with
    | none => m
    | some x =>
      if !isBiRsp x.h.kind then m
      else
        let m := dropInput m s x
        let q := s / 16
        let sl := sliceOf m s
        let h? := hostIndex m q x.src
        match sl.snoops.find? (fun n => n.issued && x.h.tag == s + 64 * n.id && some n.host == h?), x.h.kind with
        | some _, .biRspBlk => protoErr now m q 2 x.src (h?.getD 0xFFFF) x.pm
        | none, .biRspBlk => protoErr now m q 2 x.src (h?.getD 0xFFFF) x.pm
        | none, _ => protoErr now m q 1 x.src (h?.getD 0xFFFF) x.pm
        | some n, k =>
          let ck := kOf m s
          let cur := if n.evb then ((sl.evb.find? (fun v => v.line == n.line)).map (fun v => v.e.st)).getD .i
            else hostState ck sl n.line n.host
          let want : CSt := match k with | .biRspS => .s | .biRspE => .a | _ => .i
          let allowed : Bool := match want with
            | .i => true
            | .s => n.kind ≤ 1 && cur != .i
            | .a => n.kind == 0 && cur == .a
          let m := if allowed then m else protoErr now m q 3 x.src n.host x.pm
          completeSnoop now s m n (if allowed then want else .i) x.pm.tick

/-- The meaning of APPLY_BIRSP. -/
def execApplyBirsp (s : Nat) (st : State) := onMachW (applyBirsp s) st

/-- R181: the whole-device clean ends once every slice has had its turn and every cleaning completion has arrived. -/
def cleanEnd (now : Nat) (m : Mach) : Mach :=
  if m.home.cleanLeft == 0 && m.home.cleanTodo.isEmpty && m.home.slices.all (fun x => x.2.toClean.isEmpty) && m.home.cleanPm.isSome then
    let m := if m.home.cleanFailed then sf (sf m F.FCH_CLEAN_STATUS_REASON [] 0x401) F.FCH_CLEAN_STATUS_STATE [] 4
      else sf m F.FCH_CLEAN_STATUS_STATE [] 3
    let m := { m with home := { m.home with cleanPm := none } }
    opEnded m now 4 (rd m Reg.FCH_CLEAN_STATUS)
  else m

/-- R181: a cleaning completion of the whole-device clean has arrived. -/
def cleanStep (now : Nat) (m : Mach) (err : Bool) : Mach :=
  let m := { m with home := { m.home with cleanLeft := m.home.cleanLeft - 1, cleanFailed := m.home.cleanFailed || err } }
  cleanEnd now (satInc m F.FCH_CLEAN_STATUS_DONE_UNITS)

/-- R140, R171, R179, R187: an access of slice `s` is answered: data, or a completion that may carry an error. -/
def accessDone (now s : Nat) (m : Mach) (a : Access) (x : Msg) : Mach :=
  let m := modSlice m s (fun sl => { sl with accesses := sl.accesses.filter (fun b => !(b.id == a.id && b.port == a.port && b.line == a.line)) })
  let m := if isWriteAccess a then releaseWrites now s x.pm.tick m else m
  match a.why with
  | .read seq =>
    match itemOf m s seq with
    | none => m
    | some i =>
      let v : Line × Bool := (mergeLine (lineOf x.h.data) a.data a.mask, x.h.poison || (a.mask != 0 && a.poison))
      let fs := fsetOf a.line
      let (v, m) := match findWay (sliceOf m s) a.line with
        | some (w, y) =>
          if y.hollow then (v, modSlice m s (fun sl => modWay sl fs w (fun z => { z with hollow := false, data := v.1, poison := v.2 })))
          else ((y.data, y.poison), modSlice m s (fun sl => setWays sl fs (touch (ways sl fs) w false)))
        | none => (v, m)
      let m := stage m now i.msg.pm 5 (128 + s) (tick48 now)
      let m := modItem m s seq (fun j => { j with val := some v, reading := 0, dtick := laterTick j.dtick x.pm.tick })
      advance now s a.line m
  | .spec seq =>
    -- kept, data or failure, where the item has still to begin and its speculation is valid so far (R50, R51)
    modItem m s seq (fun i => if i.started || !i.specOn || !i.specOk then i
      else { i with specVal := some (mergeLine (lineOf x.h.data) a.data a.mask, x.h.poison || (a.mask != 0 && a.poison), x.pm.tick) })
  | .write seq =>
    let m := modItem m s seq (fun j => { j with writing := j.writing - 1, dtick := laterTick j.dtick x.pm.tick })
    let m := match itemOf m s seq with
      | some i =>
        let m := stage m now i.msg.pm 5 (128 + s) (tick48 now)
        -- a mirror write whose member write failed answers with ERROR (R186)
        if i.work == .mirror && x.h.err && !i.ndrSent then
          sendDone now s (modItem m s seq (fun j => { j with ndrSent := true })) i .cmp (laterTick i.tick x.pm.tick) true
        else finishWrite now s m seq
      | none => m
    advance now s a.line m
  | .victim fs w => modSlice m s (fun sl => freeMirror sl fs w (wayTag a.line))
  | .clean fs w swept =>
    let m := modSlice m s (fun sl =>
      let y := (ways sl fs).getD w {}
      if y.cleaning != a.id then sl
      else if y.st != .dirty || x.h.err || y.rewritten then modWay sl fs w (fun z => { z with cleaning := 0, rewritten := false })
      else if setLost m fs then modWay (freeMirror sl fs w y.tag) fs w (fun _ => {})
      else modWay (freeMirror sl fs w y.tag) fs w (fun z => { z with st := .clean, cleaning := 0, rewritten := false }))
    if swept then cleanStep now m x.h.err else m
  | .copy g k tick =>
    let m := { m with home := { m.home with copies := m.home.copies.filter (fun c =>
      !(c.slice == s && c.id == a.id && c.k == k && c.tick == tick)) } }
    if x.h.err then degrade now m g x.pm else m
  | .poisonWrite => m

/-- R187: a held write sends the copies it owes as trackers free. -/
def payCopies (now s : Nat) (m : Mach) : Mach :=
  ((sliceOf m s).items.filter (fun i => !i.copiesDue.isEmpty)).foldl (fun m i => payItem now s m i.seq) m

/-- The same in every slice: the trackers are the device's. -/
def payAll (now s : Nat) (m : Mach) : Mach := m.home.slices.foldl (fun m x => payCopies now x.1 m) (payCopies now s m)

/-- R140: the access that a member response answers: a read takes data, a write a completion. -/
def accessFor (m : Mach) (s : Nat) (x : Msg) : Option Access :=
  (sliceOf m s).accesses.find? (fun a => a.id == x.h.tag / 64 && (isWriteAccess a == (x.h.kind != .memData))
    && (x.src == portPostcode m a.port || x.src == ownPostcode m))

/-- R140: APPLY_MEMBER_RESPONSE at slice `s`: the next input is a member's NDR or DRS; one that matches no access is
dead-lettered. A remote home's answer to a mirror write ends its copy. -/
def applyMemberResponse (s : Nat) (now : Nat) (m : Mach) : Mach :=
  if s ≥ 64 || !serving m s then m
  else match nextInput m s with
    | none => m
    | some x =>
      if !isS2MRsp x.h.kind then m
      else
        let m := dropInput m s x
        match accessFor m s x with
        | some a => sweepDone now s (payAll now s (accessDone now s m a x))
        | none =>
          match m.home.copies.find? (fun c => c.slice == s && c.id == x.h.tag / 64 && x.h.kind != .memData) with
          | some c =>
            let m := { m with home := { m.home with copies := m.home.copies.erase c } }
            let m := if x.h.err then degrade now m c.group x.pm else m
            sweepDone now s (payAll now s m)
          | none => deadLetter m now x 7 .discarded

/-- The meaning of APPLY_MEMBER_RESPONSE. -/
def execApplyMemberResponse (s : Nat) (st : State) := onMachW (applyMemberResponse s) st

/-- R164: APPLY_HOST_REMOVED: transit `n` is a HOST_REMOVED notice; the host index that its postcode has in each quadrant
is removed at the notice's postmark. -/
def applyHostRemoved (n : Nat) (now : Nat) (m : Mach) : Mach :=
  match m.sof.transit[n]? with
  | none => m
  | some t =>
    if t.msg.h.kind == .hostRemoved && t.tgt == .postmaster && t.got.contains 0 then
      removePostcode now (onAdmitted (dropTransit m t.key) t.msg) t.msg.h.hostPc t.msg.pm
    else m

/-- The meaning of APPLY_HOST_REMOVED. -/
def execApplyHostRemoved (n : Nat) (st : State) := onMachW (applyHostRemoved n) st

/-- R139, R150: HELD_SNOOP_ISSUE at slice `s`: of the held snoops that the limit and the order of their hosts allow, the first in
confirmation order. -/
def heldSnoopIssue (s : Nat) (now : Nat) (m : Mach) : Mach :=
  if s ≥ 64 || !serving m s then m
  else
    let sl := sliceOf m s
    if snoopsOut sl ≥ 1024 then m
    else match lbest (fun a b => decide (confOf sl a.item < confOf sl b.item))
        (sl.snoops.filter (fun n => !n.issued && !ndrOwed m s sl n.line n.host (confOf sl n.item))) with
      | none => m
      | some n =>
        let m := modSlice m s (fun sl => { sl with snoops := sl.snoops.map (fun k => if k == n then { k with issued := true } else k) })
        let root := (itemOf m s n.item).map (fun i => i.msg.pm)
        sendSnoops now s m [n] root (if n.item == 0 then (attrOf m n.line).arrival else (itemOf m s n.item).any (fun i => i.msg.arrival))
          (if n.evb then some (n.pm.tick, now) else none)

/-- The meaning of HELD_SNOOP_ISSUE. -/
def execHeldSnoopIssue (s : Nat) (st : State) := onMach (heldSnoopIssue s) st

/-- R144, R146: EVICTION_WAIT_RESUME at slice `s`: the first item that waits for a slot or buffer room chooses again. -/
def evictionWaitResume (s : Nat) (now : Nat) (m : Mach) : Mach :=
  if s ≥ 64 || !serving m s then m
  else match lbest (fun (a b : Item) => decide (a.conf < b.conf)) ((sliceOf m s).items.filter (·.stuck)) with
    | none => m
    | some i => advance now s i.line (modItem m s i.seq (fun j => { j with stuck := false }))

/-- The meaning of EVICTION_WAIT_RESUME. -/
def execEvictionWaitResume (s : Nat) (st : State) := onMachW (evictionWaitResume s) st

/-- No open item, input or message toward the slice precedes an internal source's item, the horizon has passed its TICK, and no
item waits for a slot or for buffer room (R146). -/
def agentTurn (m : Mach) (s : Nat) (pm : Postmark) : Bool :=
  let sl := sliceOf m s
  serving m s && !sl.items.any (·.stuck) && horizonPast m (1024 + s) pm.tick && !sl.items.any (fun i => i.conf == 0 && pmBefore i.msg.pm pm)
    && !sl.inputs.any (fun i => pmBefore i.msg.pm pm)

/-- R39, R40, R147: the sweep item of slice `s` is issued once its multiple of 16 ticks is reached, and the next becomes due. -/
def sweepIssue (now : Nat) (m : Mach) (s : Nat) : Mach :=
  let sl := sliceOf m s
  if sl.sweepDue == 0 || now < sl.sweepFrom then m
  else
    let (t, m) := issueTick now m 146 (sl.sweepDue - 1) sl.sweepFrom
    let (pm, m) := internalPm m 146 t
    modSlice m s (fun sl => { sl with sweepPm := sl.sweepPm ++ [pm], sweepDue := tickAdd t 16 + 1, sweepFrom := expandTick now (tickAdd t 16) })

/-- R147: a sweep item with postmark `pm` examines set `k` for host `h`: its entries there that no snoop is out for are
back-invalidated, no further than to its quota. -/
def sweepHost (now s : Nat) (m : Mach) (k h : Nat) (pm : Postmark) : Mach :=
  let ck := kOf m s
  let es := slots (sliceOf m s) k
  let lines := (es.filter (fun e => !freeEntry e && e.st != .i && (if e.wide then
      (tget 0 (sliceOf m s).wide e.vec).getLsbD h && (snoopTo (sliceOf m s) (lineOfCarbon ck s k e.tag) h).isNone
    else e.host == h && !e.pend))).map (fun e => lineOfCarbon ck s k e.tag)
  (lines.take (excess m s (sliceOf m s) h)).foldl (fun m line =>
    let m := count (ackEvent m F.HQ_HOST_STATUS_QUOTA_EVT [s / 16, h]) now 0x047 1 { pool := some line }
    let m := newSnoops now s m ck 0 line [(h, 2)] pm none (attrOf m line).arrival false true none
    modSlice m s (fun sl => setSlots ck sl k ((slots sl k).map (fun e =>
      if !freeEntry e && !e.wide && e.host == h && e.tag == lineTag line then { e with leaving := true } else e)))) m

/-- R147, R163: the sweep item with postmark `pm` is confirmed: it examines the set at the sweep pointer, or, with no host over
quota, ends the sweep. -/
def sweepConfirm (now s : Nat) (m : Mach) (pm : Postmark) : Mach := withCfg pm (m := m) fun m =>
  let m := applyRemovals now s m pm
  let m := modSlice m s (fun sl => { sl with sweepPm := sl.sweepPm.erase pm })
  let overrun := overHosts m s (sliceOf m s)
  if overrun.isEmpty then modSlice m s (fun sl => { sl with sweepDue := 0, sweepPm := [] })
  else
    let k := (sliceOf m s).sweepPtr
    let m := scrubSet now s m (kOf m s) k pm
    let m := overrun.foldl (fun m h => sweepHost now s m k h pm) m
    modSlice m s (fun sl => { sl with sweepPtr := (k + 1) % (64 * kOf m s) })

/-- R39, R147: SWEEP_ITEM at slice `s`: the sweep items of this TICK are issued, those of lower slices first, and the first of the
slice's that awaits its confirmation is confirmed in its turn. -/
def sweepItem (s : Nat) (now : Nat) (m : Mach) : Mach :=
  if s ≥ 64 || !serving m s then m
  else
    let due := (sliceOf m s).sweepDue
    let m := if due == 0 then m else
      ((List.range (s + 1)).filter (fun r => serving m r && (sliceOf m r).sweepDue == due)).foldl (sweepIssue now) m
    match (sliceOf m s).sweepPm with
    | pm :: _ => if agentTurn m s pm then sweepConfirm now s m pm else m
    | [] => m

/-- The meaning of SWEEP_ITEM. -/
def execSweepItem (s : Nat) (st : State) := onMachW (sweepItem s) st

/-- R435: the sets whose dirty lines a lost stack leaves with one copy, in ascending order: dirty lines of the set, or mirrors of
its partner, lay there. -/
def strandedSets (m : Mach) (s : Nat) : List Nat :=
  if gf m F.RAS_AVAIL_HBM_LOST == 0 then []
  else
    let sl := sliceOf m s
    (sl.cache.filter (fun x => (setLost m x.1 || setLost m (partner x.1))
      && x.2.any (fun w => w.st == .dirty && w.cleaning == 0 && !wayKept m s w))).map (·.1)

/-- R173, R179, R180: a cleaning write of way `w` of a set, for the item with postmark `pm`; `swept` says that it belongs to the clean of
the whole device. A line in no home range is dead-lettered, and the way and its mirror are invalidated (R68). -/
def cleanWay (now s : Nat) (m : Mach) (fs w : Nat) (pm : Postmark) (swept : Bool) : Mach :=
  let y := (ways (sliceOf m s) fs).getD w {}
  let line := lineOfWay s y.tag
  let m := count m now 0x052 1 { pool := some line }
  let id := (sliceOf m s).nextId
  let (ok, m) := memberWrite now s m line none (.clean fs w swept) y.data fullMask y.poison pm (some pm) 2 2 (attrOf m line).arrival
  if ok then
    let m := modSlice m s (fun sl => putWays sl fs (lmod (fun z => { z with cleaning := id, rewritten := false }) (ways sl fs) w))
    if swept then { m with home := { m.home with cleanLeft := m.home.cleanLeft + 1 } } else m
  else modSlice m s (fun sl => modWay (freeMirror sl fs w y.tag) fs w (fun _ => {}))

/-- R180, R435: cleaning writes for the dirty ways of a set that may be cleaned. -/
def cleanSet (now s : Nat) (m : Mach) (fs : Nat) (pm : Postmark) (owned : Bool) : Mach :=
  (List.range 16).foldl (fun m w =>
    let y := (ways (sliceOf m s) fs).getD w {}
    if y.st != .dirty || (y.owned && !owned) || y.cleaning != 0 || wayKept m s y then m else cleanWay now s m fs w pm false) m

/-- What a cleaning item does before its writes: removals take effect (R163), and HBM errors of the set that it reads (R183). -/
def cleanBegin (now s : Nat) (m : Mach) (fs : Nat) (pm : Postmark) (e : HbmErr) : Mach :=
  e.ways.foldl (fun m z => wayError now s m fs z.1 z.2 pm) (applyRemovals now s m pm)

/-- R39, R40, R180: the cleaning item of slice `s` is issued once its multiple of 16 ticks is reached, and the next becomes due. -/
def cleanIssue (now : Nat) (m : Mach) (s : Nat) : Mach :=
  let sl := sliceOf m s
  if sl.cleanDue == 0 || now < sl.cleanFrom then m
  else
    let (t, m) := issueTick now m 145 (sl.cleanDue - 1) sl.cleanFrom
    let (pm, m) := internalPm m 145 t
    modSlice m s (fun sl => { sl with cleanPm := sl.cleanPm ++ [pm], cleanDue := tickAdd t 16 + 1, cleanFrom := expandTick now (tickAdd t 16) })

/-- R180, R435: the periodic cleaning item with postmark `pm` is confirmed: the first set that a lost stack leaves with one copy, else the
set at the clean pointer, or the end of the cleaning. -/
def cleanConfirm (now s : Nat) (m : Mach) (pm : Postmark) (e : HbmErr) : Mach := withCfg pm (m := m) fun m =>
  let m := modSlice m s (fun sl => { sl with cleanPm := sl.cleanPm.erase pm })
  match strandedSets m s with
  | fs :: _ => cleanSet now s (cleanBegin now s m fs pm e) fs pm true
  | [] =>
    let d := dirtyCount (sliceOf m s)
    if d == 0 || d * 100 < gf m F.FCH_CFG_CLEAN_STOP * budgetOf m then modSlice m s (fun sl => { sl with cleanDue := 0, cleanPm := [] })
    else
      let fs := (sliceOf m s).cleanPtr
      let m := cleanSet now s (cleanBegin now s m fs pm e) fs pm false
      modSlice m s (fun sl => { sl with cleanPtr := (fs + 1) % 2 ^ 21 })

/-- R181: slice `s` takes its turn in the clean of the whole device: the ways that are dirty at its postmark are noted, set by set, but
those whose cleaning write is out with the way's present data: the clean waits for that write. -/
def cleanNote (m : Mach) (s : Nat) : Mach :=
  let sl := sliceOf m s
  let dirty (p : Way → Bool) (ws : List Way) : List Nat :=
    ((List.range 16).zip ws).filterMap (fun x => if x.2.st == .dirty && !x.2.owned && !wayKept m s x.2 && p x.2 then some x.1 else none)
  let todo := (sl.cache.map (fun x => (x.1, dirty (fun y => y.cleaning == 0 || y.rewritten) x.2))).filter (fun x => !x.2.isEmpty)
  let out := (sl.cache.map (fun x => (dirty (fun y => y.cleaning != 0 && !y.rewritten) x.2).map (fun w => (x.1, w)))).flatten
  let join (a : Access) : Access := match a.why with
    | .clean fs w false => if out.contains (fs, w) && ((ways sl fs).getD w {}).cleaning == a.id then { a with why := .clean fs w true } else a
    | _ => a
  let m := modSlice m s (fun sl => { sl with toClean := todo, accesses := sl.accesses.map join })
  { m with home := { m.home with cleanTodo := m.home.cleanTodo.filter (· != s), cleanLeft := m.home.cleanLeft + out.length } }

/-- R181: the next cleaning item of the clean of the whole device at slice `s`: the first set still to write. Its TICK is the clean's own
from which it takes source 145's SLOTs (DESIGN CHOICE: log entry 166). -/
def cleanNext (now s : Nat) (m : Mach) (tick : Nat) (e : HbmErr) : Mach :=
  match (sliceOf m s).toClean with
  | [] => m
  | (fs, ws) :: _ =>
    let (pm, m') := internalPm m 145 tick
    if !agentTurn m s pm then m
    else
      let m := cleanBegin now s (modSlice m' s (fun sl => { sl with toClean := sl.toClean.drop 1 })) fs pm e
      ws.foldl (fun m w => if ((ways (sliceOf m s) fs).getD w {}).st == .dirty then cleanWay now s m fs w pm true else m) m

/-- R39, R180, R181: CLEANING_ITEM at slice `s`: the clean of the whole device takes the slice's next set, slices in ascending order; else
the periodic cleaning items of this TICK are issued, those of lower slices first, and the first of the slice's is confirmed in
its turn. `e` is what HBM shows of the ways that the item examines. -/
def cleaningItem (s : Nat) (e : HbmErr) (now : Nat) (m : Mach) : Mach :=
  if s ≥ 64 || !serving m s then m
  else
    let m := match m.home.cleanPm with
      | some pm => if m.home.cleanTodo.contains s && agentTurn m s pm then cleanNote m s else m
      | none => m
    let lower := (List.range s).any (fun r => m.home.cleanTodo.contains r || !(sliceOf m r).toClean.isEmpty)
    match m.home.cleanPm, (sliceOf m s).toClean with
    | some pm, _ :: _ => if lower then m else cleanEnd now (cleanNext now s m pm.tick e)
    | _, _ =>
      let m := cleanEnd now m
      let due := (sliceOf m s).cleanDue
      let m := if due == 0 then m else
        ((List.range (s + 1)).filter (fun r => serving m r && (sliceOf m r).cleanDue == due)).foldl (cleanIssue now) m
      match (sliceOf m s).cleanPm with
      | pm :: _ => if agentTurn m s pm then cleanConfirm now s m pm e else m
      | [] => m

/-- The meaning of CLEANING_ITEM. -/
def execCleaningItem (v : HbmVisit) (st : State) := onMachW (cleaningItem v.n v.e) st

/-- R163: HOST_CENSUS in quadrant `q`: the first removal under way there, once every slice's horizon has passed its
postmark: every set of every slice is visited, the host's remaining entries freed and its A lines poisoned, and SCRUB
clears. -/
def hostCensus (q : Nat) (now : Nat) (m : Mach) : Mach :=
  if q ≥ 4 then m
  else match m.home.removals.find? (fun r => r.quad == q) with
    | none => m
    | some r =>
      let ss := (List.range 16).map (16 * q + ·)
      if !ss.all (fun s => serving m s && (r.applied.contains s || horizonPast m (1024 + s) r.pm.tick)) then m
      else
        let m := ss.foldl (fun m s =>
          let m := applyRemovals now s m r.pm
          let ck := kOf m s
          let m := ((sliceOf m s).carbon.map (·.1)).foldl (fun m k => scrubSet now s m ck k r.pm) m
          modSlice m s (fun sl => { sl with removed := sl.removed.erase r.host })) m
        let m := { m with home := { m.home with removals := m.home.removals.filter (fun x => !(x.quad == q && x.pm == r.pm && x.host == r.host)) } }
        let m := sf m F.HQ_HOST_STATUS_SCRUB [q, r.host] 0
        let w := statusWord r.ticket 3 0 (16 * 64 * gf m F.HQ_CARBON_CFG_K [q] / 4096)
        let m := wr m Reg.HQ_REMOVE_STATUS [q] w
        opEnded (event m now 0x17 1 r.host r.pm (q + 4)) now 3 w

/-- The meaning of HOST_CENSUS. -/
def execHostCensus (q : Nat) (st : State) := onMachW (hostCensus q) st

/-- R433: the next tag at or after `t` whose line is in set `k` and in a valid home range homed here. -/
def censusTag (m : Mach) (ck k t : Nat) : Option Nat :=
  let r0 := k % ck
  ((validRanges m).filter (fun r => gf m F.RTE_HR_CFG_HOME [r] == ownPostcode m)).foldl (fun acc r =>
    let b := max t (gf m F.RTE_HR_BASE_BASE [r] * 2 ^ 10)
    let e := (gf m F.RTE_HR_BASE_BASE [r] + gf m F.RTE_HR_CFG_SIZE [r]) * 2 ^ 10
    let c := b + (r0 + ck - b % ck) % ck
    if c < e then (match acc with | some a => some (min a c) | none => some c) else acc) none

/-- R437: the census of slice `s` goes on with the next set of a lost pair. -/
def nextPairSet (m : Mach) (s : Nat) : Mach :=
  match m.home.pairCensus.find? (fun c => c.slice == s) with
  | none => m
  | some c =>
    let rest := if c.set + 4 < 64 * carbonK m s then [{ c with set := c.set + 4 }] else []
    { m with home := { m.home with setCensus := m.home.setCensus ++ [c], pairCensus := m.home.pairCensus.erase c ++ rest } }

/-- R39, R40: the census item of census `c` is issued once its TICK is reached. -/
def censusIssue (now s : Nat) (m : Mach) (c : Census) : Mach :=
  let from_ := max c.since (expandTick now c.tick)
  if (sliceOf m s).censusPm.isSome || now < from_ then m
  else
    let (t, m) := issueTick now m 146 c.tick from_
    let (pm, m) := internalPm m 146 t
    let m := modSlice m s (fun sl => { sl with censusPm := some pm })
    { m with home := { m.home with setCensus := m.home.setCensus.map (fun d =>
      if d.slice == s && d.set == c.set then { d with tick := pm.tick, since := now } else d) } }

/-- R433: CARBON_CENSUS at slice `s`: the census item of the next line of the set is issued, and confirmed in its turn: the line is
back-invalidated at every valid host index; after the last, once its snoops are answered, the set is empty and the census
ends. -/
def carbonCensus (s : Nat) (now : Nat) (m : Mach) : Mach :=
  if s ≥ 64 || !serving m s then m
  else
  let m := if m.home.setCensus.any (fun c => c.slice == s) then m else nextPairSet m s
  match m.home.setCensus.find? (fun c => c.slice == s) with
  | none => m
  | some c =>
    let ck := kOf m s
    let lines := gf m F.RAS_CENSUS_STATUS_DONE_UNITS
    match censusTag m ck c.set c.tag with
    | some tag =>
      let m := censusIssue now s m c
      match (sliceOf m s).censusPm with
      | none => m
      | some pm =>
        if !agentTurn m s pm then m
        else
          let line := lineOfCarbon ck s c.set tag
          let m := applyRemovals now s (modSlice m s (fun sl => { sl with censusPm := none })) pm
          let m := newSnoops now s m ck 0 line ((validHosts m (s / 16)).map (fun h => (h, 2))) pm none (attrOf m line).arrival false true none
          let m := wr m Reg.RAS_CENSUS_STATUS [] (statusWord 0 2 0 (lines + 1))
          { m with home := { m.home with setCensus := m.home.setCensus.map (fun d =>
            if d.slice == s && d.set == c.set then { d with tag := tag + 1, lines := d.lines + 1 } else d) } }
    | none =>
      if (sliceOf m s).snoops.any (fun x => x.capacity && !x.evb && carbonSet ck x.line == c.set) then m
      else
        let m := modSlice m s (fun sl => setSlots ck sl c.set [])
        let m := { m with home := { m.home with setCensus := m.home.setCensus.filter (fun d => !(d.slice == s && d.set == c.set)) } }
        if m.home.setCensus.isEmpty && m.home.pairCensus.isEmpty then wr m Reg.RAS_CENSUS_STATUS [] (statusWord 0 3 0 lines) else m

/-- The meaning of CARBON_CENSUS. -/
def execCarbonCensus (s : Nat) (st : State) := onMachW (carbonCensus s) st

/-- R164: HQ_REMOVE: a write to HQn_REMOVE of quadrant `q` removes a host index there at the Postmaster's tick of issue. -/
def hqRemove (q ticket h : Nat) (now : Nat) (m : Mach) : Mach :=
  if q ≥ 4 then m
  else if stBusy (rd m Reg.HQ_REMOVE_STATUS [q]) then countDiscard m
  else if h ≥ 512 || !gfb m F.HQ_HOST_CFG_VALID [q, h] then
    let w := statusWord ticket 4 0x301 0
    opEnded (wr m Reg.HQ_REMOVE_STATUS [q] w) now 3 w
  else
    let (pm, m) := internalPm m 144 (tick48 now)
    addRemoval now m h pm ticket [q]

/-- The meaning of HQ_REMOVE. -/
def execHqRemove (q ticket h : Nat) (st : State) := onMach (hqRemove q ticket h) st

/-- R181: FCH_CLEAN: a clean of every line dirty at the Postmaster's tick of issue. -/
def fchClean (ticket : Nat) (now : Nat) (m : Mach) : Mach :=
  if stBusy (rd m Reg.FCH_CLEAN_STATUS) then countDiscard m
  else
    let (pm, m) := internalPm m 144 (tick48 now)
    let m := wr m Reg.FCH_CLEAN_STATUS [] (statusWord ticket 2 0 0)
    let active := (List.range 64).filter (fun s => bitAt (gf m F.HQ_SLICE_MAP_ACTIVE [s / 16]) (s % 16))
    { m with home := { m.home with cleanPm := some pm, cleanTodo := active, cleanLeft := 0, cleanFailed := false } }

/-- The meaning of FCH_CLEAN. -/
def execFchClean (ticket : Nat) (st : State) := onMach (fchClean ticket) st

/-- R187: FCH_MIRROR_CLR clears DEGRADED of a group; group 0 is ignored. -/
def fchMirrorClr (g : Nat) (_now : Nat) (m : Mach) : Mach :=
  if g == 0 || g ≥ 256 then m
  else
    let m := sf m F.FCH_MGRP_STATUS_DEGRADED [g] 0
    { m with home := { m.home with degraded := m.home.degraded.filter (· != g) } }

/-- The meaning of FCH_MIRROR_CLR. -/
def execFchMirrorClr (g : Nat) (st : State) := onMach (fchMirrorClr g) st

end Sys2Proof.Machine
end

