-- ==== Sys2Proof/Machine/Parcels.lean ====
section
/-!
DEFINITION. Chapter 08: parcel slots, descriptors, the engines' schedule, line operations, results, and the commands of the
family.
-/

namespace Sys2Proof.Machine
open Sys2Proof

/-! ### Descriptors (R198-R203) -/

/-- OP of a descriptor: 1 COPY, 2 FILL, 3 SANITIZE, 4 CHECK, 5 SIEVE, 6 ATOMIC. -/
def dOp (d : List Byte) : Nat := leAt d 0 1

/-- CONTROL. -/
def dCtl (d : List Byte) : Nat := leAt d 0 8

/-- SRC, DST and COUNT. -/
def dSrc (d : List Byte) : Nat := leAt d 8 8
def dDst (d : List Byte) : Nat := leAt d 0x10 8
def dCount (d : List Byte) : Nat := leAt d 0x18 8

/-- SIEVE: STRIDE, FORM and CAP (R200). -/
def dStride (d : List Byte) : Nat := leAt d 0x20 4
def dForm (d : List Byte) : Nat := leAt d 0x24 4
def dCap (d : List Byte) : Nat := leAt d 0x28 8

/-- SIEVE: element size in bytes. -/
def dSize (d : List Byte) : Nat := 2 ^ bitsOf (dForm d) 1 0

/-- SIEVE: the output is an index list; its entries take 8 bytes. -/
def dList (d : List Byte) : Bool := bitAt (dForm d) 6
def dIdx64 (d : List Byte) : Bool := bitAt (dForm d) 7

/-- ATOMIC: operation and size codes (R202). -/
def dAop (d : List Byte) : Nat := leAt d 0x20 1 % 16
def dAsize (d : List Byte) : Nat := bitsOf (leAt d 0x20 1) 5 4

/-- R189: the sizes an operation allows. -/
def atomicSizeOk (op size : Nat) : Bool := if op ≤ 2 then decide (size ≤ 2) else decide (op ≤ 6) && size == 1

/-- R203: the checks on a copied descriptor. -/
def descriptorOk (d : List Byte) : Bool :=
  let n := dCount d
  let lines := decide (1 ≤ n) && decide (n < 2 ^ 32)
  match dOp d with
  | 1 => lines && dSrc d % 64 == 0 && dDst d % 64 == 0
  | 2 | 3 => lines && dDst d % 64 == 0
  | 4 => lines && dSrc d % 64 == 0
  | 5 => decide (1 ≤ n) && decide (n ≤ 2 ^ 40) && dSrc d % dSize d == 0 && dStride d != 0 && dStride d % dSize d == 0
      && (!dList d || dCap d != 0) && (dIdx64 d || decide (n ≤ 2 ^ 32))
  | 6 => dDst d % atomicBytes (dAsize d) == 0 && atomicSizeOk (dAop d) (dAsize d)
  | _ => false

/-- Some byte from `a` up to `b` is not zero. -/
def someByte (d : List Byte) (a b : Nat) : Bool := leAt d a (b - a) != 0

/-- R203, R7: a reserved field or encoding of the descriptor is not zero. The bits of CONTROL that serve one operation are
ignored by the others. -/
def descriptorReserved (d : List Byte) : Bool :=
  bitsOf (dCtl d) 63 10 != 0 ||
    (match dOp d with
    | 1 => someByte d 0x20 0x80
    | 2 => someByte d 8 0x10 || someByte d 0x28 0x80
    | 3 => someByte d 8 0x10 || someByte d 0x20 0x80
    | 4 => someByte d 0x10 0x18 || someByte d 0x28 0x80
    | 5 => bitsOf (dForm d) 31 8 != 0 || someByte d 0x74 0x80
        || (List.range (bitsOf (dForm d) 5 4 + 1)).any (fun k => leAt d (0x70 + k) 1 == 0 || decide (8 < leAt d (0x70 + k) 1))
    | 6 => someByte d 8 0x10 || someByte d 0x18 0x20 || bitsOf (leAt d 0x20 4) 31 6 != 0 || someByte d 0x24 0x28
        || decide (6 < dAop d) || dAsize d == 3 || someByte d (0x28 + min 16 (atomicBytes (dAsize d))) 0x38
        || someByte d (if dAop d == 2 then 0x38 + min 16 (atomicBytes (dAsize d)) else 0x38) 0x80
    | _ => true)

/-- Index of the distinct input line that holds element `i` of a SIEVE (R206). -/
def sieveLine (d : List Byte) (i : Nat) : Nat := if dStride d ≤ 64 then (dSrc d % 64 + i * dStride d) / 64 else i

/-- DPA of the j-th input line (R207). -/
def inputAddr (d : List Byte) (j : Nat) : Nat :=
  if dOp d == 5 then
    (if dStride d ≤ 64 then dSrc d / 64 * 64 + 64 * j else (dSrc d + j * dStride d) / 64 * 64)
  else dSrc d + 64 * j

/-- Input lines of a parcel. -/
def inputLines (d : List Byte) : Nat :=
  match dOp d with
  | 1 | 4 => dCount d
  | 5 => sieveLine d (dCount d - 1) + 1
  | _ => 0

/-- R206: parcel slots. -/
def parcelSlots (d : List Byte) (lag : Nat) : Nat :=
  match dOp d with
  | 1 | 3 => dCount d + lag
  | 5 => inputLines d + lag
  | 6 => 1
  | _ => dCount d

/-! ### CRC-64/XZ and predicates (R199, R201) -/

/-- CRC-64/XZ, one bit. -/
def crc64Bit (c : Word) : Word := if c.getLsbD 0 then (c >>> 1) ^^^ 0xC96C5795D7870F42#64 else c >>> 1

/-- CRC-64/XZ, one byte. -/
def crc64Byte (c : Word) (b : Byte) : Word :=
  (List.range 8).foldl (fun c _ => crc64Bit c) (c ^^^ b.setWidth 64)

/-- CRC-64/XZ register after some bytes. -/
def crc64 (c : Word) (bs : List Byte) : Word := bs.foldl crc64Byte c

/-- An n-byte value widened to 64 bits as a signed or unsigned number (R201). -/
def widen (signed : Bool) (bytes v : Nat) : Int :=
  if signed && v ≥ 2 ^ (8 * bytes - 1) then (v : Int) - 2 ^ (8 * bytes) else v

/-- A 64-bit operand under SIGNED. -/
def operand64 (signed : Bool) (v : Nat) : Int := widen signed 8 v

/-- R201: predicate `k` of a SIEVE on element value `z` (zero-extended). -/
def predicate (d : List Byte) (k z : Nat) : Bool :=
  let signed := bitAt (dForm d) 2
  let x := widen signed (dSize d) z
  let an := leAt d (0x30 + 8 * k) 8
  let bn := leAt d (0x50 + 8 * k) 8
  let a := operand64 signed an
  let b := operand64 signed bn
  match leAt d (0x70 + k) 1 with
  | 1 => x == a
  | 2 => x != a
  | 3 => decide (x < a)
  | 4 => decide (x ≤ a)
  | 5 => decide (a < x)
  | 6 => decide (a ≤ x)
  | 7 => decide (a ≤ x) && decide (x ≤ b)
  | 8 => (z &&& bn) == an
  | _ => false

/-- R201: does the element match? -/
def elementMatches (d : List Byte) (z : Nat) : Bool :=
  let ps := (List.range (bitsOf (dForm d) 5 4 + 1)).map (fun k => predicate d k z)
  if bitAt (dForm d) 3 then ps.any id else ps.all id

/-! ### Result areas (R212-R214) -/

/-- The 64 bytes of a result area. -/
def resultBytes (r : ResultArea) : List Byte :=
  natLe 8 (statusWord r.ticket r.state r.reason (min r.progress (2 ^ 32 - 1))).toNat ++ natLe 8 r.progress ++ natLe 8 r.matched
    ++ natLe 8 r.checksum ++ natLe 8 r.errAddr ++ natLe 8 r.oldHi ++ natLe 8 r.start ++ natLe 8 r.slips

/-- The machine with a parcel slot changed. -/
def modPSlot (m : Mach) (k : Nat) (f : PSlot → PSlot) : Mach :=
  { m with eng := { m.eng with slots := tmod {} m.eng.slots k f } }

/-- R214: a change with postmark `pm` among the changes of a result area: `old` is the area before it, and every state after it shows the
change, as `f` gives it at that state's postmark. -/
def insertChange (pm : Postmark) (f : Postmark → ResultArea → ResultArea) (old : ResultArea) : List (Postmark × ResultArea) → List (Postmark × ResultArea)
  | [] => [(pm, f pm old)]
  | x :: l => if pmBefore pm x.1 then (pm, f pm old) :: (x :: l).map (fun y => (y.1, f y.1 y.2)) else x :: insertChange pm f x.2 l

/-- A result area changes with postmark `pm` (R214). -/
def setResultAt (m : Mach) (k : Nat) (pm : Postmark) (f : Postmark → ResultArea → ResultArea) : Mach :=
  modPSlot m k (fun s => { s with log := insertChange pm f {} s.log })

/-- The same, for a change that is alike at every later postmark. -/
def setResult (m : Mach) (k : Nat) (pm : Postmark) (f : ResultArea → ResultArea) : Mach := setResultAt m k pm (fun _ => f)

/-- R214: the result area after every change whose postmark precedes `pm`. -/
def resultAt (s : PSlot) (pm : Postmark) : ResultArea :=
  match (s.log.takeWhile (fun x => pmBefore x.1 pm)).getLast? with
  | some x => x.2
  | none => {}

/-- R213: length of the settled prefix of line numbers. -/
def prefixLen (l : List Nat) : Nat → Nat → Nat
  | 0, k => k
  | fuel + 1, k => if l.contains k then prefixLen l fuel (k + 1) else k

/-- R213: a SIEVE's first element whose output is not all written, and the matches before it: of the first output line not written, else of
the open one, else the elements evaluated. -/
def sieveProgress (p : Parcel) : Nat × Nat :=
  match p.outs[prefixLen p.wrote p.wrote.length 0]? with
  | some o => (o.first, o.before)
  | none => if p.open_.isEmpty then (p.elems, p.hits) else (p.openFirst, p.openBefore)

/-- R213: PROGRESS of a parcel. -/
def progressOf (p : Parcel) : Nat :=
  match dOp p.desc with
  | 1 | 2 => prefixLen p.wrote p.wrote.length 0
  | 3 => prefixLen p.verified p.verified.length 0
  | 4 => p.crcLines
  | 5 => (sieveProgress p).1
  | _ => p.wrote.length

/-- R212: the fields of a running parcel's result area that follow its operations. -/
def refreshResult (p : Parcel) (r : ResultArea) : ResultArea :=
  { r with
    progress := progressOf p
    matched := if dOp p.desc == 5 then (sieveProgress p).2 else 0
    checksum := if dOp p.desc == 4 then (~~~p.crc).toNat else if dOp p.desc == 6 then p.old % 2 ^ 64 else 0
    oldHi := if dOp p.desc == 6 then p.old / 2 ^ 64 else 0 }

/-! ### Ends (R211, R213, R215, R230) -/

/-- R215: the index list is full and stops the scan. -/
def capStops (p : Parcel) : Bool := p.capElem.isSome && bitAt (dCtl p.desc) 9

/-- The parcel has nothing more to issue. -/
def issuedAll (p : Parcel) : Bool :=
  p.stopped || (decide (p.slots ≤ p.j) && p.due.isEmpty)
    || (capStops p && p.due.isEmpty && decide (p.outs.length ≤ p.wrote.length + (p.flying.filter (fun o => o.kind == 1)).length))

/-- R230: a sanitize on release has ended. -/
def sanitizeDone (now : Nat) (m : Mach) (p : Parcel) (ok : Bool) (reason : Nat) : Mach :=
  let m := if ok then sf m F.TEN_EXT_KEEP [p.entry] 0
    else event m now 0x16 2 p.fld pmNone (p.entry + reason * 2 ^ 32)
  if m.eng.parcels.any (fun q => q.postmaster && q.fld == p.fld && q.num != p.num) || m.eng.toSanitize.any (fun t => t.1 == p.fld) then m
  else sf m F.TEN_FLD_STATUS_SANITIZING [p.fld] 0

/-- R211, R212, R215: how a parcel whose last operation has settled ends: STATE, REASON, ERR_ADDR. -/
def endingOf (p : Parcel) : Nat × Nat × Nat :=
  if p.endState == 5 then (5, p.reason, 0)
  else if p.endState == 4 then (4, p.reason, if p.reason == 0x50B then 0 else p.errAddr)
  else match p.poison with
    | some a => (4, 0x506, a)
    | none => (3, if p.capElem.isSome && (capStops p || dCap p.desc < p.hits) then 0x503 else 0, 0)

/-- R213, R215: end a parcel whose last operation has settled. -/
def endIfDone (now : Nat) (m : Mach) (num : Nat) (pm : Postmark) : Mach :=
  match m.eng.parcels.find? (fun p => p.num == num) with
  | none => m
  | some p =>
    if !(issuedAll p && p.flying.isEmpty) then m
    else
      let m := { m with eng := { m.eng with
        parcels := m.eng.parcels.filter (fun q => q.num != num)
        rotation := tmod [] m.eng.rotation p.engine (fun r => r.filter (· != num)) } }
      let m := sf m F.PCL_ENG_STATUS_ADMITTED [p.engine] (gf m F.PCL_ENG_STATUS_ADMITTED [p.engine] - 1)
      let (st, reason, addr) := endingOf p
      if p.postmaster then sanitizeDone now m p (st == 3) reason
      else setResult m (16 * p.fld + p.slot) pm (fun r =>
        let r := match capStops p && st == 3, p.capElem with
          | true, some e => { r with progress := e + 1, matched := dCap p.desc }
          | _, _ => r
        { r with state := st, reason := reason, errAddr := addr })

/-- The machine with a parcel changed. -/
def modParcel (m : Mach) (num : Nat) (f : Parcel → Parcel) : Mach :=
  { m with eng := { m.eng with parcels := m.eng.parcels.map (fun q => if q.num == num then f q else q) } }

/-- The first end given to a parcel stands: it issues no further operation. -/
def stopped (state reason addr : Nat) (p : Parcel) : Parcel :=
  if p.stopped then p else { p with stopped := true, endState := state, reason := reason, errAddr := addr, due := [] }

/-- R204, R211: no further operation of the parcel is issued; it ends in `state` with `reason` once those issued settle. -/
def stopParcel (now : Nat) (m : Mach) (num : Nat) (pm : Postmark) (state reason addr : Nat) : Mach :=
  endIfDone now (modParcel m num (stopped state reason addr)) num pm

/-- R211: end the parcels of FLDs that `p` holds of, with REASON 0x50A. -/
def stopFlds (now : Nat) (m : Mach) (p : Nat → Bool) (pm : Postmark) : Mach :=
  ((m.eng.parcels.filter (fun q => !q.postmaster && p q.fld)).map (·.num)).foldl (fun m n => stopParcel now m n pm 5 0x50A 0) m

/-- R211, R434: end the parcels of lost engines with REASON 0x50B. -/
def stopEngines (now : Nat) (m : Mach) (p : Nat → Bool) (pm : Postmark) : Mach :=
  ((m.eng.parcels.filter (fun q => p q.engine)).map (·.num)).foldl (fun m n => stopParcel now m n pm 4 0x50B 0) m

/-! ### Line operations (R207-R210) -/

/-- Issue a line operation of parcel `p` at `tick`: translated and guard-checked by the tables in force at that TICK (R210); a failure stops
the parcel. -/
def lineOp (now : Nat) (m : Mach) (p : Parcel) (tick : Nat) (kind idx dpa : Nat) (data : List Byte) (poison : Bool) (mask : Nat) : Mach :=
  let e := p.engine
  let (pm, m) := internalPm m (128 + e) tick
  let k : MsgKind := if kind == 0 || kind == 2 then .lineRd else if kind == 1 then .lineWr else .lineAtomic
  let tag := m.eng.nextTag
  let d := p.desc
  let c := cfgAt m pm
  let fail (m : Mach) (reason : Nat) : Mach := stopParcel now m p.num pm 4 reason dpa
  match (if p.postmaster then (.inl dpa : Sum Nat Nat) else translate c p.fld dpa) with
  | .inr _ => fail m 0x504
  | .inl pool =>
    let h : Hdr := { kind := k, addr := pool, len := 64, data := data, poison := poison, mask := mask, engine := e, etag := tag,
                     aop := dAop d, asize := dAsize d, operand := leAt d 0x28 16, compare := leAt d 0x38 16 }
    let sg := if p.postmaster then gf c F.GRD_MGMT_SG_POSTMASTER else gf c F.TEN_FLD_CFG_SGROUP [p.fld]
    let sc := if p.postmaster then 1 else gf c F.SCH_FLD_CFG_PARCEL_SC [p.fld]
    let need := (needOf h).getD ⟨true, true⟩
    match guardCheck c 0 pool p.world sg need with
    | .deny cause rule => fail (count (guardFault m now pm (ownPostcode m) p.world sg pool cause rule) now 0x070 1
        { src := some (ownPostcode m), world := some p.world, mc := some 4, sc := some sc, pool := some pool }) 0x505
    | .allow =>
      let x : Msg := { h := h, pm := pm, mc := 4, sc := sc, src := ownPostcode m, dst := (homeOf c pool).getD 0, pool := pool,
                       fld := if p.postmaster then none else some p.fld, world := p.world, sg := sg, att := 132 + e, n := lettersOf h false,
                       attr := attrOf c pool, member := memberOf c pool, arrival := (attrOf c pool).arrival }
      let m := onPostmark (count m now 0x060 1 (msgInfo x)) now x (if homeOf c pool == some (ownPostcode m) then [] else sentPorts m x)
      let m := { m with eng := { m.eng with nextTag := (tag + 1) % 65536 } }
      let m := modParcel m p.num (fun q => { q with begun := true, flying := q.flying ++ [⟨tag, idx, kind, none⟩] })
      let m := if p.begun || p.postmaster then m else setResult m (16 * p.fld + p.slot) pm (fun r => { r with state := 2 })
      match homeOf c pool with
      | none => endUnroutable now m x 6
      | some pc => if pc == ownPostcode m then enter now m x (.slice (sliceNo pool)) else sendOut now m x

/-- The parcel with a number. -/
def parcelOf (m : Mach) (num : Nat) : Option Parcel := m.eng.parcels.find? (fun p => p.num == num)

/-- R207: every element of input line `k` of a SIEVE has been evaluated, or none further is. -/
def sieveDone (p : Parcel) (k : Nat) : Bool :=
  decide (dCount p.desc ≤ p.elems) || capStops p || decide (k < sieveLine p.desc p.elems)

/-- R208: the data has come of what slot item `i` writes: the line that a COPY copies, the input line that completes outputs of a SIEVE. -/
def writeReady (p : Parcel) (i : Nat) : Bool :=
  match dOp p.desc with
  | 1 => p.reads.any (fun x => x.1 == i)
  | 5 => sieveDone p i
  | _ => true

/-- R207: the writes that slot item `i` stands for: of a SIEVE every output line that input line `i` completes. -/
def writesOf (p : Parcel) (i : Nat) : List Nat :=
  if dOp p.desc == 5 then (List.range p.outs.length).filter (fun k => (p.outs[k]?).any (fun o => o.input == i)) else [i]

/-- Bytes of the output region of a COPY or SIEVE (R199, R201). -/
def outputBytes (d : List Byte) : Nat :=
  if dOp d == 1 then 64 * dCount d else if dList d then dCap d * (if dIdx64 d then 8 else 4) else (dCount d + 7) / 8

/-- R203: the output region overlaps the input: the lines of a COPY's source, or an element of a SIEVE's column. What it then
writes is free (R446; DEDUCED: log entry 187). -/
def selfOverlap (d : List Byte) : Bool :=
  let meets (i size step n : Nat) : Bool := decide (i < n) && decide (dSrc d + i * step < dDst d + outputBytes d)
    && decide (dDst d < dSrc d + i * step + size)
  let first (size step : Nat) : Nat := if dDst d < dSrc d + size then 0 else (dDst d - dSrc d - size) / step + 1
  match dOp d with
  | 1 => meets (first 64 64) 64 64 (dCount d)
  | 5 => meets (first (dSize d) (dStride d)) (dSize d) (dStride d) (dCount d)
  | _ => false

/-- R446: the bytes that an overlapping output writes into a line: any values. -/
def freeLine (m : Mach) : List Byte × Mach :=
  (((List.range 8).map (fun k => natLe 8 (Config.freeValue (m.free + k)).toNat)).flatten, { m with free := m.free + 8 })

/-- The bytes that a write of parcel `d` carries, and the machine. -/
def writtenBytes (m : Mach) (d bs : List Byte) : List Byte × Mach := if selfOverlap d then freeLine m else (bs, m)

/-- Issue write `i` of a parcel at `tick`. -/
def issueWrite (now : Nat) (m : Mach) (num i tick : Nat) : Mach :=
  match parcelOf m num with
  | none => m
  | some p =>
    let d := p.desc
    if p.stopped then m
    else match dOp d with
    | 1 => let v := tget ((0 : Line), false) p.reads i
           let (bs, m) := writtenBytes m d (bytesOfLine v.1)
           lineOp now m p tick 1 i (dDst d + 64 * i) bs v.2 fullMask
    | 2 => lineOp now m p tick 1 i (dDst d + 64 * i) ((List.replicate 8 (bytesAt d 0x20 8)).flatten) false fullMask
    | 3 => lineOp now m p tick 1 i (dDst d + 64 * i) (List.replicate 64 0) false fullMask
    | 5 => match p.outs[i]? with
      | some o =>
        let (bs, m) := writtenBytes m d (bytesOfLine o.data)
        lineOp now m p tick 1 i o.addr bs false o.mask
      | none => m
    | _ => m

/-- R207: the item that parcel slot `j` writes: for COPY line j − LAG, for FILL and SANITIZE line j, for a SIEVE the outputs that input
line j − LAG completes. -/
def slotItem (p : Parcel) (j : Nat) : Option Nat :=
  match dOp p.desc with
  | 1 => if p.lag ≤ j && j - p.lag < dCount p.desc then some (j - p.lag) else none
  | 5 => if p.lag ≤ j && j - p.lag < inputLines p.desc then some (j - p.lag) else none
  | 2 | 3 => if j < dCount p.desc then some j else none
  | _ => none

/-- R207: the writes of slot item `i`, in ascending order, at `tick`. -/
def issueItem (now : Nat) (m : Mach) (num i tick : Nat) : Mach :=
  match parcelOf m num with
  | none => m
  | some p => (writesOf p i).foldl (fun m k => issueWrite now m num k tick) m

/-- R207, R208: the writes of parcel slot `j`, or its item on the parcel's list where its data has still to come. -/
def slotWrite (now : Nat) (m : Mach) (num j t : Nat) : Mach :=
  match parcelOf m num with
  | none => m
  | some p =>
    match slotItem p j with
    | none => m
    | some i => if p.stopped then m else if writeReady p i then issueItem now m num i t
        else modParcel m num (fun p => { p with due := p.due ++ [⟨i, t, 0⟩] })

/-- R207: the operations of parcel slot `j`, at TICK `t`: reads first, then writes in ascending order. -/
def parcelSlot (now : Nat) (m : Mach) (num t : Nat) : Mach :=
  match parcelOf m num with
  | none => m
  | some p =>
    let d := p.desc
    let j := p.j
    -- START (R212)
    let m := if j == 0 && !p.postmaster then
        setResult m (16 * p.fld + p.slot) ⟨t, 128 + p.engine, 0⟩ (fun r => { r with start := t }) else m
    let m := if j < inputLines d && !capStops p then lineOp now m p t 0 j (inputAddr d j) [] false 0 else m
    let m := if dOp d == 3 && p.lag ≤ j && j - p.lag < dCount d then lineOp now m p t 2 (j - p.lag) (dDst d + 64 * (j - p.lag)) [] false 0 else m
    let m := if dOp d == 6 && j == 0 then
        lineOp now m p t 3 0 (dDst d) (natLe 16 (leAt d 0x28 16) ++ natLe 16 (leAt d 0x38 16)) false 0 else m
    slotWrite now m num j t

/-! ### The engine's schedule (R205, R206, R208) -/

/-- R40, R208: engine `e` slips by `d` ticks at TICK `t`: its later slots, and its later due writes, move by as much, and each parcel with an
operation still to come counts it. -/
def engineSlip (now : Nat) (m : Mach) (e t d : Nat) : Mach :=
  let m := ackEvent (countSlip now m (128 + e)) F.PCL_ENG_STATUS_SLIP [e]
  let later (w : DueWrite) : DueWrite := if tickBefore t w.tick then { w with tick := tickAdd w.tick d } else w
  let moved : Engines := { m.eng with
    shift := tmod 0 m.eng.shift e (· + d)
    last := tmod 0 m.eng.last e (fun x => if x == 0 then 0 else x + d)
    parcels := m.eng.parcels.map (fun p => if p.engine == e then { p with due := p.due.map later } else p) }
  (moved.parcels.filter (fun p => p.engine == e && !p.postmaster && !issuedAll p)).foldl (fun (m : Mach) p =>
    setResult m (16 * p.fld + p.slot) ⟨tick48 now, 128 + e, 15⟩ (fun r => { r with slips := r.slips + 1 })) { m with eng := moved }

/-- R206: a slot of engine `e` at Fabric Time `t`: parcels that are ready join the rotation, and those that issue nothing more leave it. -/
def joinRotation (m : Mach) (e t : Nat) : Mach :=
  let fresh := (m.eng.parcels.filter (fun p => p.engine == e && p.ready.isNone && decide (p.doorbellTick + 256 ≤ t))).map (·.num)
  let live (n : Nat) : Bool := (m.eng.parcels.find? (fun p => p.num == n)).any (fun p => !p.stopped && decide (p.j < p.slots))
  { m with eng := { m.eng with
    parcels := m.eng.parcels.map (fun p => if fresh.contains p.num then { p with ready := some t } else p)
    rotation := tmod [] m.eng.rotation e (fun r => (r ++ fresh).filter live) } }

/-- R206: the head of the rotation has used a slot: it leaves after its last, and goes to the tail after QUANTUM. -/
def useSlot (m : Mach) (e : Nat) (p : Parcel) : Mach :=
  let m := modParcel m p.num (fun q => { q with j := q.j + 1, turn := if q.turn + 1 == q.quantum then 0 else q.turn + 1 })
  { m with eng := { m.eng with rotation := tmod [] m.eng.rotation e (fun r =>
    if p.j + 1 ≥ p.slots then r.filter (· != p.num)
    else if p.turn + 1 == p.quantum then r.filter (· != p.num) ++ [p.num] else r) } }

/-- Lines that engine `e` has in flight (R208). -/
def linesInFlight (m : Mach) (e : Nat) : Nat := ((m.eng.parcels.filter (fun q => q.engine == e)).map (fun q => q.flying.length)).sum

/-- R206, R208: ENGINE_SLOT of engine `e`: its next slot, once reached: ready parcels join the rotation, and its head issues its next slot's
operations at the slot's TICK. A slot that is 64 ticks overdue slips; with 4,096 lines in flight it waits. -/
def engineSlot (e : Nat) (now : Nat) (m : Mach) : Mach :=
  match engineNext m.eng e with
  | none => m
  | some t =>
    if e ≥ 16 || m.eng.lost.contains e || now < t then m
    else
      let m := joinRotation m e t
      match (tget [] m.eng.rotation e).head?.bind (fun n => m.eng.parcels.find? (fun p => p.num == n)) with
      | none => { m with eng := { m.eng with last := tset 0 m.eng.last e (t + 1) } }
      | some p =>
        let late := max t p.accAt + 64 ≤ now
        -- the slot's place, moved to the present tick where the engine slips
        let m := { m with eng := { m.eng with last := tset 0 m.eng.last e (t - 3) } }
        let m := if late then engineSlip now m e (tick48 t) (now - t) else m
        let t := if late then now else t
        if linesInFlight m e ≥ 4096 then m
        else
          let m := { m with eng := { m.eng with last := tset 0 m.eng.last e (t + 1) } }
          endIfDone now (useSlot (parcelSlot now m p.num (tick48 t)) e p) p.num ⟨tick48 t, 128 + e, 15⟩

/-- The meaning of ENGINE_SLOT. -/
def execEngineSlot (e : Nat) (s : State) := onMachW (engineSlot e) s

/-- R208: the first write of engine `e` whose data has come, with its parcel. -/
def writeDue (m : Mach) (e : Nat) : Option (Nat × DueWrite) :=
  (m.eng.parcels.filter (fun p => p.engine == e && !p.stopped)).findSome? (fun p => (p.due.find? (fun w => w.since != 0)).map (fun w => (p.num, w)))

/-- R40, R208: PARCEL_WRITE_ISSUE: the first write of engine `e` whose data has come is issued at its slot's TICK; 64 ticks overdue, at the
present one, and the engine slips. -/
def parcelWriteIssue (e : Nat) (now : Nat) (m : Mach) : Mach :=
  match writeDue m e with
  | none => m
  | some (num, w) =>
    let late := decide (w.since + 63 ≤ now)
    let m := modParcel m num (fun p => { p with due := p.due.erase w })
    let m := if late then engineSlip now m e w.tick ((tick48 now + 2 ^ 48 - w.tick) % 2 ^ 48) else m
    endIfDone now (issueItem now m num w.idx (if late then tick48 now else w.tick)) num ⟨tick48 now, 128 + e, 15⟩

/-- The meaning of PARCEL_WRITE_ISSUE. -/
def execParcelWriteIssue (e : Nat) (s : State) := onMachW (parcelWriteIssue e) s

/-! ### Settling (R211-R215) -/

/-- R199: fold the lines of a CHECK that have arrived in order. -/
def foldCheck : Nat → Parcel → Parcel
  | 0, p => p
  | fuel + 1, p =>
    match p.reads.find? (fun x => x.1 == p.crcLines) with
    | none => p
    | some (_, v) => foldCheck fuel { p with crc := crc64 p.crc (bytesOfLine v.1), crcLines := p.crcLines + 1 }

/-- Close the open output line of a SIEVE, completed by input line `input`. -/
def closeOut (input : Nat) (p : Parcel) : Parcel :=
  if p.open_.isEmpty then p
  else
    let off := p.openAt % 64
    let o : OutLine := ⟨p.openAt / 64 * 64, BitVec.ofNat 512 (leNat p.open_ * 2 ^ (8 * off)), (2 ^ p.open_.length - 1) * 2 ^ off,
      p.openFirst, p.openBefore, input⟩
    { p with outs := p.outs ++ [o], open_ := [], openAt := p.openAt + p.open_.length }

/-- One byte more of output, that element `i` begins or goes on with, after `before` matches; each line closes as it fills. -/
def appendByte (input i before : Nat) (p : Parcel) (b : Byte) : Parcel :=
  let p := if p.open_.isEmpty then { p with openFirst := i, openBefore := before } else p
  let p := { p with open_ := p.open_ ++ [b] }
  if (p.openAt + p.open_.length) % 64 == 0 then closeOut input p else p

/-- R201: a matching element's entry in an index list, which takes no more than CAP. -/
def listEntry (j i before : Nat) (p : Parcel) : Parcel :=
  if dCap p.desc ≤ p.listed then p
  else
    let p := (natLe (if dIdx64 p.desc then 8 else 4) i).foldl (appendByte j i before) { p with listed := p.listed + 1 }
    if p.listed == dCap p.desc then closeOut j { p with capElem := some i } else p

/-- R201: element `i`'s bit of a bitmap. A byte is put out with its last bit, or with the last element. -/
def bitmapBit (j i before : Nat) (hit : Bool) (p : Parcel) : Parcel :=
  let p := if i % 8 == 0 && p.open_.isEmpty then { p with openFirst := i, openBefore := before } else p
  let p := if i % 8 == 0 then { p with open_ := p.open_ ++ [0] } else p
  let p := { p with open_ := lmod (fun b => if hit then b ||| BitVec.ofNat 8 (2 ^ (i % 8)) else b) p.open_ (p.open_.length - 1) }
  if i % 8 == 7 && (p.openAt + p.open_.length) % 64 == 0 then closeOut j p else p

/-- R201, R215: evaluate the elements of a SIEVE whose input lines have arrived, in order. -/
def evalSieve : Nat → Parcel → Parcel
  | 0, p => p
  | fuel + 1, p =>
    let d := p.desc
    let i := p.elems
    let j := sieveLine d i
    if i ≥ dCount d || capStops p then p
    else match p.reads.find? (fun x => x.1 == j) with
      | none => p
      | some (_, v) =>
        let hit := elementMatches d (leAt (bytesOfLine v.1) ((dSrc d + i * dStride d) % 64) (dSize d))
        let before := p.hits
        let p := { p with elems := i + 1, hits := before + b2n hit }
        let p := if !dList d then bitmapBit j i before hit p else if hit then listEntry j i before p else p
        evalSieve fuel (if p.elems == dCount d then closeOut j p else p)

/-- Writes that waited for this input are due now (R208). -/
def wake (now : Nat) (p : Parcel) : Parcel :=
  { p with due := p.due.map (fun w => if w.since == 0 && writeReady p w.idx then { w with since := now + 1 } else w) }

/-- R211, R212: operation `o` of a parcel settles with its answer. -/
def settleOp (now : Nat) (p : Parcel) (o : LineOp) (h : Hdr) : Parcel :=
  let p := { p with flying := p.flying.erase o }
  let stop (p : Parcel) (reason addr : Nat) : Parcel := stopped 4 reason addr p
  let d := p.desc
  let out := dDst d + 64 * o.idx
  if h.status == .ca then stop p 0x50C (if o.kind == 0 then inputAddr d o.idx else out)
  else match o.kind with
  | 0 =>
    let a := inputAddr d o.idx
    let p := { p with reads := tput p.reads o.idx (lineOf h.data, h.poison) }
    match dOp d with
    | 1 => wake now (if h.err then stop p 0x506 a else if h.poison then { p with poison := some (match p.poison with | some b => min a b | none => a) } else p)
    | 4 => if h.poison then stop p 0x506 a else foldCheck (dCount d + 1) p
    | _ => if h.poison then stop p 0x506 a else wake now (evalSieve (64 * (p.reads.length + 1)) p)
  | 1 =>
    if h.err then stop p 0x508 (if dOp d == 5 then ((p.outs[o.idx]?).map (·.addr)).getD 0 else out) else { p with wrote := p.wrote ++ [o.idx] }
  | 2 => if h.poison || lineOf h.data != 0 then stop p 0x507 out else { p with verified := p.verified ++ [o.idx] }
  | _ =>
    if h.poison then stop p 0x506 (dDst d) else if h.err then stop p 0x508 (dDst d)
    else { p with wrote := [0], old := leAt h.data 0 16 % 2 ^ (8 * atomicBytes (dAsize d)) }

/-- Insert an answer by postmark. -/
def insertAnswer (x : Postmark × LineOp × Hdr) : List (Postmark × LineOp × Hdr) → List (Postmark × LineOp × Hdr)
  | [] => [x]
  | y :: l => if pmBefore x.1 y.1 then x :: y :: l else y :: insertAnswer x l

/-- A CHECK's CRC register at its start (R199). -/
def crcStart (desc : List Byte) : Word := if bitAt (dCtl desc) 8 then ~~~(BitVec.ofNat 64 (leAt desc 0x20 8)) else ~~~0

/-- R214: the parcel as the answers whose postmark is not after `pm` leave it. -/
def parcelAt (p : Parcel) (pm : Postmark) : Parcel :=
  let p0 := { p with reads := [], wrote := [], verified := [], crcLines := 0, crc := crcStart p.desc, elems := 0, hits := 0, listed := 0, open_ := [],
                     openAt := dDst p.desc, openFirst := 0, openBefore := 0, outs := [], capElem := none, stopped := false, due := [], old := 0 }
  ((p.answers.filter (fun x => !pmBefore pm x.1)).foldl (fun l x => insertAnswer x l) []).foldl (fun q x => settleOp 0 q x.2.1 x.2.2) p0

/-- R212, R214: an answer settles operation `o` of parcel `num`, and its result area shows it from the answer's postmark on. -/
def settleAnswer (now : Nat) (m : Mach) (num : Nat) (pm : Postmark) (o : LineOp) (h : Hdr) : Mach :=
  let m := modParcel m num (fun p => { settleOp now p o h with answers := p.answers ++ [(pm, o, h)] })
  let m := match m.eng.parcels.find? (fun p => p.num == num) with
    | none => m
    | some p => if p.postmaster then m else setResultAt m (16 * p.fld + p.slot) pm (fun at_ r => refreshResult (parcelAt p at_) r)
  endIfDone now m num pm

/-- R212: LINE_OP_SETTLE: transit `n`, an answer that has reached its engine, settles its operation. -/
def lineOpSettle (n : Nat) (now : Nat) (m : Mach) : Mach :=
  match m.sof.transit[n]? with
  | none => m
  | some t =>
    match t.tgt with
    | .engine e =>
      if t.got.length < t.msg.n then m
      else
        let m := onAdmitted (dropTransit m t.key) t.msg
        match m.eng.parcels.findSome? (fun p => if p.engine == e then (p.flying.find? (fun o => o.tag == t.msg.h.etag)).map (fun o => (p.num, o)) else none) with
        | none => deadLetter m now t.msg 7 .discarded
        | some (num, o) => settleAnswer now m num t.msg.pm o t.msg.h
    | _ => m

/-- The meaning of LINE_OP_SETTLE. -/
def execLineOpSettle (n : Nat) (s : State) := onMachW (lineOpSettle n) s

/-! ### The dispatcher (R195-R197, R203-R205, R214) -/

/-- R44, R89, R197: a message of class `mc` at the dispatcher is settled: the horizons of the classes that it serves have passed it, or it is in
arrival mode with no earlier message of its source before it. -/
def dispatchSettled (m : Mach) (mc : Nat) (x : Msg) : Bool :=
  let past (y : Msg) : Bool := horizonPast m 1093 y.pm.tick && horizonPast m 1094 y.pm.tick
  past x || (x.arrival && !(tget [] m.eng.intake mc).any (fun y => y.pm.source == x.pm.source && pmBefore y.pm x.pm && !past y))

/-- R197: the message of class `mc` that the dispatcher handles next: the first that is settled, in its turn among the classes. -/
def dispatchNext (m : Mach) (mc : Nat) : Option Msg :=
  match (tget [] m.eng.intake mc).find? (dispatchSettled m mc) with
  | some x => if !x.arrival && m.eng.intake.any (fun c => c.1 != mc && c.2.any (fun y => pmBefore y.pm x.pm)) then none else some x
  | none => none

/-- Take a message off its class's intake queue. -/
def dispatchTake (m : Mach) (mc : Nat) (x : Msg) : Mach :=
  { m with eng := { m.eng with intake := tmod [] m.eng.intake mc (fun l => l.erase x) } }

/-- FLD, slot and byte offset within the slot of a message to the parcel region (R219). -/
def slotOf (x : Msg) : Option (Nat × Nat × Nat) :=
  match x.h.ioTo with
  | .fldBar f off => if 0x12000 ≤ off && off < 0x13000 then some (f, (off - 0x12000) / 256, (off - 0x12000) % 256) else none
  | _ => none

/-- R196, R204: a doorbell is discarded and counted. -/
def dbErr (m : Mach) (cause f s : Nat) : Mach :=
  let m := sf (sf (sf m F.PCL_DB_ERR_LAST_CAUSE [] cause) F.PCL_DB_ERR_LAST_FLD [] f) F.PCL_DB_ERR_LAST_SLOT [] s
  ackEvent m F.PCL_DB_ERR_DB_ERR

/-- The write is a doorbell as R196 asks. -/
def isDoorbell (x : Msg) (off : Nat) : Bool := off == 0x80 && x.h.data.length == 8

/-- The slots that `len` bytes from slot `s`, offset `off`, reach, each with the offset in it and the bytes before it. -/
def slotSpans (s off len : Nat) : List (Nat × Nat × Nat) :=
  ((List.range 16).filter (fun k => s ≤ k && decide (256 * (k - s) < off + len))).map (fun k => if k == s then (k, off, 0) else (k, 0, 256 * (k - s) - off))

/-- The write touches the doorbell's bytes of a slot: which. -/
def touchesDoorbell (s off len : Nat) : Option Nat :=
  ((slotSpans s off len).find? (fun x => decide (x.2.1 < 0x88) && decide (0x80 < x.2.1 + (len - x.2.2)))).map (·.1)

/-- Descriptor bytes after a write at `off` (R195): bytes above 0x7F are untouched here. -/
def writeDesc (desc bs : List Byte) (off : Nat) : List Byte :=
  (List.range 128).map (fun i => if off ≤ i && i < off + bs.length then bs.getD (i - off) 0 else desc.getD i 0)

/-- R195-R197: DESCRIPTOR_WRITE: the dispatcher's next MC5 message is a write to parcel slots that is no doorbell: descriptor bytes are
written, reserved and result bytes are left; a write that reaches doorbell bytes is discarded whole and counted (R196; DESIGN CHOICE: log
entry 175). -/
def descriptorWrite (now : Nat) (m : Mach) : Mach :=
  match dispatchNext m 5 with
  | none => m
  | some x =>
    match slotOf x with
    | none => m
    | some (f, s, off) =>
      if x.h.kind != .mwr || isDoorbell x off then m
      else
        let m := dispatchTake m 5 x
        let m := match touchesDoorbell s off x.h.data.length with
          | some k => dbErr m 5 f k
          | none => (slotSpans s off x.h.data.length).foldl (fun m k =>
              modPSlot m (16 * f + k.1) (fun p => { p with desc := writeDesc p.desc (x.h.data.drop k.2.2) k.2.1 })) m
        rdClose m now x.pm

/-- The meaning of DESCRIPTOR_WRITE. -/
def execDescriptorWrite (s : State) := onMach descriptorWrite s

/-- R205: the engine with the fewest admitted parcels, lower numbers first, lost engines left out. -/
def chooseEngine (m : Mach) : Nat :=
  let load (e : Nat) : Nat := (m.eng.parcels.filter (fun p => p.engine == e)).length
  (lbest (fun a b => decide (load a < load b)) ((List.range 16).filter (fun e => !m.eng.lost.contains e))).getD 0

/-- Admit a parcel (R205, R206). -/
def admitParcel (now : Nat) (m : Mach) (f s : Nat) (desc : List Byte) (tick world : Nat) (postmaster : Bool) (entry : Nat) : Mach :=
  let e := chooseEngine m
  let lag := gf m F.PCL_CFG_LAG
  let p : Parcel := { num := m.eng.accepted, fld := f, slot := s, postmaster := postmaster, entry := entry, desc := desc,
                      doorbellTick := tick, world := world, engine := e, quantum := max 1 (gf m F.PCL_CFG_QUANTUM), lag := lag,
                      slots := parcelSlots desc lag, crc := crcStart desc, openAt := dDst desc, accAt := now }
  let m := sf m F.PCL_ENG_STATUS_ADMITTED [e] (gf m F.PCL_ENG_STATUS_ADMITTED [e] + 1)
  { m with eng := { m.eng with parcels := m.eng.parcels ++ [p], accepted := m.eng.accepted + 1 } }

/-- The settled doorbell with command `cmd` at the head of the MC5 queue: message, FLD, slot, ticket. -/
def nextDoorbell (m : Mach) (cmd : Nat) : Option (Msg × Nat × Nat × Nat) :=
  match dispatchNext m 5 with
  | none => none
  | some x => match slotOf x with
    | some (f, s, off) =>
      if x.h.kind == .mwr && isDoorbell x off && bitsOf (leNat x.h.data) 17 16 == cmd then some (x, f, s, leNat x.h.data % 65536) else none
    | none => none

/-- R196, R7: the doorbell at the head of the MC5 queue carries a reserved command or non-zero reserved bits. -/
def reservedDoorbell (m : Mach) : Option (Nat × Nat) :=
  match dispatchNext m 5 with
  | none => none
  | some x => match slotOf x with
    | some (f, s, off) => if x.h.kind == .mwr && isDoorbell x off && decide (3 ≤ leNat x.h.data / 2 ^ 16) then some (f, s) else none
    | none => none

/-- STATE 1 or 2 (R204). -/
def busyState (st : Nat) : Bool := st == 1 || st == 2

/-- A doorbell's common part: taken off its queue; a slot not granted is counted (R204). -/
def doorbell (cmd : Nat) (act : Nat → Mach → Msg → Nat → Nat → Nat → Mach) (now : Nat) (m : Mach) : Mach :=
  match nextDoorbell m cmd with
  | none => m
  | some (x, f, s, ticket) =>
    let m := rdClose (dispatchTake m 5 x) now x.pm
    if s ≥ gf m F.TEN_FLD_CFG_SLOTS [f] then dbErr m 4 f s else act now m x f s ticket

/-- R203, R204: SUBMIT on a slot. -/
def submit (now : Nat) (m : Mach) (x : Msg) (f s ticket : Nat) : Mach :=
  let k := 16 * f + s
  let sl := tget ({} : PSlot) m.eng.slots k
  if busyState sl.cur.state then dbErr m 1 f s
  else
    let r : ResultArea := { ticket := ticket, state := 1 }
    if descriptorOk sl.desc then
      -- trusted for a TEE doorbell over an IDE-protected port, and normal otherwise (R210)
      admitParcel now (setResult m k x.pm (fun _ => r)) f s sl.desc (expandTick now x.pm.tick) (if x.world == 3 then 0 else x.world) false 0
    else setResult m k x.pm (fun _ => { r with state := 4, reason := 0x501 })

/-- DOORBELL_SUBMIT (R204). -/
def doorbellSubmit : Nat → Mach → Mach := doorbell 0 submit

/-- R203, R7: the settled SUBMIT would admit a descriptor with a reserved field or encoding that is not zero. -/
def reservedSubmit (m : Mach) : Option (Nat × Nat) :=
  match nextDoorbell m 0 with
  | none => none
  | some (_, f, s, _) =>
    let sl := tget ({} : PSlot) m.eng.slots (16 * f + s)
    if decide (s < gf m F.TEN_FLD_CFG_SLOTS [f]) && !busyState sl.cur.state && descriptorReserved sl.desc then some (f, s) else none

/-- A doorbell's effect, unless it is reserved. -/
def ring (act : Nat → Mach → Mach) (s : State) : Host.Outcome State Fault Refusal :=
  match reservedDoorbell s.m with
  | some k => .fault (.reservedParcel k.1 k.2)
  | none => onMach act s

/-- The meaning of DOORBELL_SUBMIT. -/
def execDoorbellSubmit (s : State) : Host.Outcome State Fault Refusal :=
  match reservedSubmit s.m with
  | some k => .fault (.reservedParcel k.1 k.2)
  | none => ring doorbellSubmit s

/-- R204: RELEASE on a slot. -/
def release (_now : Nat) (m : Mach) (x : Msg) (f s ticket : Nat) : Mach :=
  if busyState (tget ({} : PSlot) m.eng.slots (16 * f + s)).cur.state then dbErr m 2 f s
  else setResult m (16 * f + s) x.pm (fun _ => { ticket := ticket })

/-- DOORBELL_RELEASE (R204). -/
def doorbellRelease : Nat → Mach → Mach := doorbell 1 release

/-- The meaning of DOORBELL_RELEASE. -/
def execDoorbellRelease (s : State) := ring doorbellRelease s

/-- R204: ABORT on a slot. -/
def abort (now : Nat) (m : Mach) (x : Msg) (f s ticket : Nat) : Mach :=
  let r := (tget ({} : PSlot) m.eng.slots (16 * f + s)).cur
  if !busyState r.state || r.ticket != ticket then dbErr m 3 f s
  else match m.eng.parcels.find? (fun p => !p.postmaster && p.fld == f && p.slot == s) with
    | some p => stopParcel now m p.num x.pm 5 0x509 0
    | none => m

/-- DOORBELL_ABORT (R204). -/
def doorbellAbort : Nat → Mach → Mach := doorbell 2 abort

/-- The meaning of DOORBELL_ABORT. -/
def execDoorbellAbort (s : State) := ring doorbellAbort s

/-- The 256 bytes of a slot as a read postmarked `pm` finds them (R195, R214); a slot not granted whose result area holds
nothing reads zero there. -/
def slotBytes (s : PSlot) (pm : Postmark) : List Byte :=
  s.desc.take 128 ++ List.replicate 64 0 ++ resultBytes (resultAt s pm)

/-- R214: RESULT_AREA_READ: the settled read at the head of the dispatcher's MC6 queue is served with one snapshot. -/
def resultAreaRead (now : Nat) (m : Mach) : Mach :=
  match dispatchNext m 6 with
  | none => m
  | some x =>
    match slotOf x with
    | none => m
    | some (f, s, off) =>
      let m := dispatchTake m 6 x
      let all := ((List.range (16 - s)).map (fun k => slotBytes (tget {} m.eng.slots (16 * f + s + k)) x.pm)).flatten
      let bs := bytesAt all off x.h.len
      sendReply now m x (replyTo m x 132 .cplD false false .ok bs x.pm x.sc)

/-- The meaning of RESULT_AREA_READ. -/
def execResultAreaRead (s : State) := onMach resultAreaRead s

end Sys2Proof.Machine
end

