-- ==== Sys2Proof/Machine/Containment.lean ====
section
/-!
DEFINITION. Chapter 14: containment fences: placing one, settling what it touches, its completion, and the release of a
contained port; and the commands of the family.
-/

namespace Sys2Proof.Machine
open Sys2Proof

/-- Per-port link state. -/
def portOf (m : Mach) (p : Nat) : PortSt := tget {} m.ports p

/-- The machine with a port's link state changed. -/
def modPort (m : Mach) (p : Nat) (f : PortSt → PortSt) : Mach := { m with ports := tmod {} m.ports p f }

/-- Set a field of STNss_LINK_STATUS; a change of DL_UP, READY, CONTAINED or PRSNT raises LINK_EVT (R277). -/
def setLink (now : Nat) (m : Mach) (p : Nat) (f : FieldRef) (v : Nat) : Mach :=
  if gf m f (st p) == v then m else linkEvt (sf m f (st p) v) now p

/-- R307, causes 1, 2, 10 and 11: F lies beyond this tick and every TICK that the ports have assigned. -/
def lossFence (now : Nat) (m : Mach) (p : Nat) (ports : List Nat) : Postmark :=
  fencePm p (1 + (ports.map (fun k => (portOf m k).lastTick)).foldl max now)

/-! ### Settling (R310, R311, R320) -/

/-- The message of a member access is still on its way to port `p`: scheduled, in flight, or queued. -/
def accessUnsent (m : Mach) (s p : Nat) (a : Access) : Bool :=
  let mine (x : Msg) : Bool := 128 ≤ x.att && x.att < 132 && x.h.tag == s + 64 * a.id
  (sliceOf m s).heldWrites.any (fun w => w.id == a.id) || m.sched.any (fun x => mine x.msg) || m.sof.transit.any (fun t => mine t.msg && t.phase != .admitted)
    || (List.range 32).any (fun i => let q := queueOf m (32 * p + i); (q.sorting ++ q.settled).any (fun e => mine e.msg))

/-- R311: the answer that settles a member access lost at `fence`: poison for a read, an error completion for a write,
which is dead-lettered with cause 0x0A. -/
def settleAccess (now s p : Nat) (fence : Postmark) (m : Mach) (a : Access) : Mach :=
  let k : MsgKind := if isWriteAccess a then .cmp else .memData
  let x := memberMsg m s a.id a.line p ((memberFor m a.line none).getD (p, 0)).2 (isWriteAccess a) a.data a.mask a.poison a.pm none 0 4 false
  let m := if isWriteAccess a then deadLetter m now x 0x0A .logged (some p) none true fence else m
  slicePost m s { x with
    h := { x.h with kind := k, poison := !isWriteAccess a, err := true, data := List.replicate 64 0, src := x.dst, dst := x.src }
    pm := fence, mc := 0, src := x.dst, dst := x.src, att := p }

/-- R311: every member access toward `p` whose request has left is settled at the fence. -/
def settleMember (now p : Nat) (fence : Postmark) (m : Mach) : Mach :=
  m.home.slices.foldl (fun m x =>
    (x.2.accesses.filter (fun a => a.port == p && !accessUnsent m x.1 p a)).foldl (settleAccess now x.1 p fence) m) m

/-- Home devices of the valid home ranges, other than this one. -/
def otherHomes (m : Mach) : List Nat :=
  ((validRanges m).map (fun r => gf m F.RTE_HR_CFG_HOME [r])).eraseDups.filter (· != ownPostcode m)

/-- R164, R312: HOST_REMOVED for postcode `pc` toward home `dst`. -/
def hostRemovedMsg (m : Mach) (pc dst : Nat) (pm : Postmark) : Msg :=
  { h := { kind := .hostRemoved, hostPc := pc, src := ownPostcode m, dst := dst, mc := 1, sc := 1 },
    pm := pm, mc := 1, sc := 1, src := ownPostcode m, dst := dst, att := 148, n := 1 }

/-- R164: tell every other home that a host is gone. -/
def notifyHomes (now : Nat) (m : Mach) (pc : Nat) : Mach :=
  (otherHomes m).foldl (fun m d =>
    let (pm, m) := internalPm m 144 (tick48 now)
    sendNew now m (hostRemovedMsg m pc d pm)) m

/-- R320: what a Courier session leaves behind when its fence is placed at port `p`. -/
def settleCourier (now p : Nat) (fence : Postmark) (m : Mach) : Mach :=
  let retry := ((tget ({} : Courier) m.courier p).retry.map (·.2)).flatten
  let inRetry (pm : Postmark) : Bool := retry.any (fun x => x.pm == pm)
  let lost := m.sof.unreceipted.filter (fun u => u.via == some p)
  let awaits (pm : Postmark) : Bool := lost.any (fun u => u.pm == pm)
  -- snoops whose route took the link: their hosts are removed at F
  let seen := m.sof.snoopSeen.filter (fun k => k.port == p && k.home == ownPostcode m)
  let hosts := (m.home.slices.map (fun x => (x.2.snoops.filter (fun n => n.issued &&
      seen.any (fun k => k.tag == x.1 + 64 * n.id))).map (fun n => gf m F.HQ_HOST_CFG_POSTCODE [x.1 / 16, n.host]))).flatten
    ++ ((List.range 32).map (fun i => let q := queueOf m (32 * p + i)
        ((q.sorting ++ q.settled).filter (fun e => isBiSnp e.msg.h.kind)).map (fun e => e.msg.dst))).flatten
    ++ (m.sof.transit.filter (fun t => t.tgt == .egress p && isBiSnp t.msg.h.kind)).map (fun t => t.msg.dst)
    ++ (retry.filter (fun x => isBiSnp x.h.kind)).map (·.dst)
  let m := hosts.eraseDups.foldl (fun m pc => removePostcode now m pc fence) m
  let m := { m with sof := { m.sof with snoopSeen := m.sof.snoopSeen.filter (fun k => k.port != p) } }
  -- the retry buffer, unacknowledged
  let m := retry.foldl (fun m x => if awaits x.pm then m else endError now m x 6 (some p) none true fence) m
  let m := { m with courier := tmod {} m.courier p (fun c => { c with retry := [] }) }
  -- requests that left over the session and have no response
  let owed := (m.sof.recs.map (fun y => y.2.filter (fun r => r.live && r.via == some p && !inRetry r.msg.pm))).flatten
  let m := { m with sof := { m.sof with recs := m.sof.recs.map (fun y => (y.1, y.2.map (fun r =>
    if r.via == some p then { r with via := none } else r))) } }
  let m := owed.foldl (fun m r => endError now m r.msg 6 (some p) none false fence) m
  -- pool posted writes that await receipts
  let m := lost.foldl (fun m u => rdClose (deadLetter m now u.msg 0x0C .logged (some p) none true fence) now u.pm) m
  let m := { m with sof := { m.sof with unreceipted := m.sof.unreceipted.filter (fun u => u.via != some p) } }
  -- mirror copies
  let m := (m.home.copies.filter (fun c => c.via == some p && !retry.any (fun x => x.h.kind == .mirrorWr && x.h.tag == c.slice + 64 * c.id))).foldl
    (fun m c => slicePost m c.slice { sliceMsg m c.slice .mirrorCmp 0 (ownPostcode m) 0 1 (c.slice + 64 * c.id) fence none false with
      h := { kind := .mirrorCmp, tag := c.slice + 64 * c.id, err := true }, att := p }) m
  -- parcel line operations
  (m.eng.parcels.map (fun q => (q.flying.filter (fun o => o.via == some p)).map (fun o => (q.engine, o)))).flatten.foldl (fun m z =>
    let (e, o) := z
    if retry.any (fun x => x.h.etag == o.tag && x.att == 132 + e) then m
    else
      let k : MsgKind := if o.kind == 1 then .lineAck else .lineData
      enter now m { h := { kind := k, etag := o.tag, engine := e, err := true, poison := true, data := List.replicate 64 0 },
                    pm := fence, mc := 0, sc := 1, src := ownPostcode m, dst := ownPostcode m, att := p, n := 1 } (.engine e)) m

/-! ### Placing a fence (R307, R310) -/

/-- R307, R310-R314: contain port `p` with a cause and fence postmark; a port already contained takes no second fence. -/
def placeFence (now : Nat) (m : Mach) (p cause : Nat) (fence : Postmark) (ticket : Nat := 0) : Mach :=
  if contained m p then m
  else
    let m := sf (sf m F.RAS_FENCE_FSTATE [p] 1) F.RAS_FENCE_FENCE [p] ((pmWord fence).toNat)
    let m := sf (sf m F.RAS_FENCE_INFO_CAUSE [p] cause) F.RAS_FENCE_INFO_AFTER [p] 0
    let m := ackEvent m F.RAS_FENCE_INFO_FENCE_EVT [p]
    let m := event m now 0x13 2 p fence (cause % 16)
    let m := rasLog m now 0x15 2 p fence 0 0 0 (portPostcode m p) (cause % 16 + ticket % 2 ^ 16 * 2 ^ 16)
    let m := setLink now m p F.STN_LINK_STATUS_CONTAINED 1
    let m := setLink now m p F.STN_LINK_STATUS_READY 0
    -- requester records of p are dead at F
    let m := { m with sof := { m.sof with recs := tmod [] m.sof.recs p (fun rs => rs.map (fun r => { r with live := false })) } }
    let flush : Flush := ⟨2, p, 0, 0, 1, fence, if role m p == 3 then 5 else 4, false, flushQueues 2 p 0 0⟩
    let m := { m with sof := { m.sof with flushes := m.sof.flushes ++ [flush] } }
    match role m p with
    | 1 =>
      let m := stopFlds now m (fun f => gf m F.TEN_FLD_CFG_PORT [f] == p) fence
      notifyHomes now (removePostcode now m (portPostcode m p) fence) (portPostcode m p)
    | 2 =>
      let m := settleMember now p fence m
      { m with home := { m.home with purges := m.home.purges ++ [p] } }
    | 3 => settleCourier now p fence m
    | _ => m

/-! ### Completion and return (R315, R319) -/

/-- R315: the conditions for the fence of `p` to complete. -/
def fenceSettled (m : Mach) (p : Nat) : Bool :=
  let f := fenceOf m p
  !m.sof.transit.any (fun t => t.msg.att == p && pmBefore t.msg.pm f
      && (match t.phase with | .held _ => true | .flying => !t.got.contains 0 | _ => false))
    && !m.sof.flushes.any (fun k => !k.software && k.port == p)
    && !m.home.slices.any (fun x => x.2.accesses.any (fun a => a.port == p) || x.2.inputs.any (fun i => i.msg.pm == f)
        || x.2.snoops.any (fun n => gf m F.HQ_HOST_CFG_POSTCODE [x.1 / 16, n.host] == portPostcode m p && role m p == 1 && n.issued))
    && !m.home.copies.any (fun c => c.via == some p)
    && !m.eng.parcels.any (fun q => q.flying.any (fun o => o.via == some p))
    && !m.home.purges.contains p

/-! ### Ports ready (R277, R278) -/

/-- R324: the start-up sequence has reached step 8. -/
def started (m : Mach) : Bool := gf m F.GLB_STATUS_STEP == 8

/-- R277: a host port is ready once its link is up, no fence stands, and start-up has reached step 8. -/
def hostReady (now : Nat) (m : Mach) (p : Nat) : Mach :=
  if role m p == 1 && gfb m F.STN_LINK_STATUS_DL_UP (st p) && fstate m p == 0 && started m then
    setLink now m p F.STN_LINK_STATUS_READY 1
  else m

/-- R278: the first check that a member on port `p` fails, as JOIN_FAIL codes it; 0 for none. -/
def joinFail (m : Mach) (p : Nat) : Nat :=
  let t := (portOf m p).partner.getD {}
  let named := (validRanges m).filter (fun r => gf m F.RTE_HR_CFG_HOME [r] == ownPostcode m
    && (List.range (gf m F.RTE_HR_CFG_WAYS [r] + 1)).any (fun i => memberSlot m r i == p))
  if !named.isEmpty && !t.mem then 2
  else if named.any (fun r => decide (t.cap < gf m F.RTE_HR_MBASE_MBASE [r] * 2 ^ 28
      + gf m F.RTE_HR_CFG_SIZE [r] * 2 ^ 28 / (gf m F.RTE_HR_CFG_WAYS [r] + 1))) then 3
  else if t.multi && (List.range 16).any (fun k => bitAt (gf m F.TEN_FRANK_CFG_LD_MASK [p]) k && !bitAt t.lds k) then 4
  else if gfb m F.SEC_IDE_CFG_IDE_REQ [p] && !t.ide then 5
  else 0

/-- R278, R279: the Postmaster checks the member on port `p`: READY, or contained with JOIN_FAIL. -/
def memberJoin (now : Nat) (m : Mach) (p : Nat) : Mach :=
  let c := joinFail m p
  let m := modPort (sf (sf m F.STN_LINK_STATUS_JOIN_FAIL (st p) c) F.STN_PORT_CTL_REJOIN (st p) 0) p (fun k => { k with fresh := false })
  if c != 0 then
    setLink now (sf m F.RAS_FENCE_FSTATE [p] 2) p F.STN_LINK_STATUS_CONTAINED 1
  else
    let m := { m with sof := { m.sof with recs := tset [] m.sof.recs p [] } }
    let m := setLink now (sf m F.RAS_FENCE_FSTATE [p] 0) p F.STN_LINK_STATUS_CONTAINED 0
    setLink now m p F.STN_LINK_STATUS_READY 1

/-- R278, R279: the member on port `p` joins if its link is up and it may: after a configuration read, or under a REJOIN once
the fence is complete. -/
def memberReady (now : Nat) (m : Mach) (p : Nat) : Mach :=
  if role m p == 2 && gfb m F.STN_LINK_STATUS_DL_UP (st p) && !gfb m F.STN_LINK_STATUS_READY (st p)
      && ((fstate m p == 0 && (portOf m p).fresh) || (fstate m p == 2 && gfb m F.STN_PORT_CTL_REJOIN (st p))) then
    memberJoin now m p
  else m

/-- R14, R319: a port reset: the port's link and transaction state, the registers its partner sees through it, TOTAL and
STALLED start anew; a host port's fence is gone, a member port stays contained until it rejoins. -/
def resetPort (now : Nat) (m : Mach) (p : Nat) : Mach :=
  let m := sf (sf m F.TEN_FRANK_STATUS_TOTAL [p] 0) F.SOF_ING_STATUS_STALLED [p] 0
  let m := { m with sof := { m.sof with
    recs := tset [] m.sof.recs p []
    paced := m.sof.paced.filter (fun c => c.port != p)
    credits := (List.range 16).foldl (fun t c => tset 0 t (16 * p + c) 0) m.sof.credits
    snoopSeen := m.sof.snoopSeen.filter (fun k => k.port != p)
    wire := m.sof.wire.filter (fun w => w.1 != p)
    nullified := m.sof.nullified.filter (fun w => w.1 != p) } }
  let m := modEg m p (fun g => { g with stallFrom := [0, 0, 0, 0, 0, 0, 0, 0] })
  let m := { m with hdm := m.hdm.filter (fun x => !(role m p == 1 && gf m F.TEN_FLD_CFG_PORT [x.1 / 8] == p)) }
  let m := modPort m p (fun k => { k with viral := false, resetHeld := false })
  if role m p == 1 then
    hostReady now (setLink now (sf m F.RAS_FENCE_FSTATE [p] 0) p F.STN_LINK_STATUS_CONTAINED 0) p
  else m

/-- R315: FENCE_COMPLETE of port `p`; a port reset or a REJOIN that was waiting for it follows (R319). -/
def fenceComplete (p : Nat) (now : Nat) (m : Mach) : Mach :=
  if p < 128 && fstate m p == 1 && fenceSettled m p then
    let m := ackEvent (sf m F.RAS_FENCE_FSTATE [p] 2) F.RAS_FENCE_INFO_FENCE_EVT [p]
    let m := event m now 0x13 2 p (fenceOf m p) (gf m F.RAS_FENCE_INFO_CAUSE [p] + 16)
    let m := if (portOf m p).resetHeld then resetPort now m p else m
    memberReady now m p
  else m

/-- R307: RAS_CONTAIN: software contains a host or member port with cause 9 at the Postmaster's tick of issue. -/
def rasContain (ticket p : Nat) (now : Nat) (m : Mach) : Mach :=
  if p < 128 && (role m p == 1 || role m p == 2) then placeFence now m p 9 (fencePm p now) ticket
  else countDiscard m

/-- The meaning of RAS_CONTAIN. -/
def execRasContain (ticket p : Nat) (s : State) := onMachW (rasContain ticket p) s

/-- R118: CLASS_STALL: class `c` of port `p` has an eligible head, and has had one, with no letter leaving, for STALL_MS. -/
def classStall (p c : Nat) (now : Nat) (m : Mach) : Mach :=
  let ms := gf m F.SOF_MC_CFG_STALL_MS [p]
  let from_ := (egOf m p).stallFrom.getD c 0
  if p < 128 && c < 8 && (role m p == 1 || role m p == 2) && ms != 0 && from_ != 0 && decide (from_ - 1 + ms * 4000000 ≤ now)
      && !contained m p && mayBegin now m p c then
    let m := sf m F.SOF_ING_STATUS_STALLED [p] 1
    placeFence now m p 6 (fencePm p (from_ - 1 + ms * 4000000))
  else m

/-- The meaning of CLASS_STALL. -/
def execClassStall (p c : Nat) (s : State) := onMachW (classStall p c) s

/-- R314: MEMBER_PURGE_END: the purge of port `p` has visited every set: each clean way of its lines is invalid. -/
def memberPurgeEnd (p : Nat) (now : Nat) (m : Mach) : Mach :=
  if !m.home.purges.contains p then m
  else
    let _ := now
    let m := m.home.slices.foldl (fun m x =>
      modSlice m x.1 (fun sl => sl.cache.foldl (fun sl c =>
        let ws := c.2.map (fun w =>
          if w.st == .clean && (memberFor m (lineOfWay x.1 w.tag) none).any (fun k => k.1 == p) then ({} : Way) else w)
        if ws == c.2 then sl else setWays sl c.1 ws) sl)) m
    { m with home := { m.home with purges := m.home.purges.filter (· != p) } }

/-- The meaning of MEMBER_PURGE_END. -/
def execMemberPurgeEnd (p : Nat) (s : State) := onMachW (memberPurgeEnd p) s

/-- R321: DL_HEAD_WRITE: dead-letter records are released. -/
def dlHeadWrite (v : Nat) (_now : Nat) (m : Mach) : Mach := headWrite m F.RAS_DL_PTR_HEAD F.RAS_DL_PTR_TAIL 4096 (v % 4096)

/-- The meaning of DL_HEAD_WRITE. -/
def execDlHeadWrite (v : Nat) (s : State) := onMachW (dlHeadWrite v) s

end Sys2Proof.Machine
end

