-- ==== Sys2Proof/Machine/Ingress.lean ====
section
/-!
DEFINITION. What a port ingress does with a message that arrives: postmark, fence, franking, FLD and translation, guard,
classes, destination, the waits for records, receipts and policing (R33, R63-R76, R110-R113, R123, R128, R218-R226,
R236-R246, R309); and the commands on messages that internal sources owe.
-/

namespace Sys2Proof.Machine
open Sys2Proof

/-! ### FLD register BARs (R219) -/

/-- Offset of HDM decoder 0 in the component register block: PRESUMED, as CXL 3.1 lets a device place the capability. -/
def hdmBase : Nat := 0x1210

/-- The 32 bytes of an HDM decoder, as CXL 3.1 lays them out. -/
def hdmImage (e : Hdm) : List Byte :=
  natLe 8 e.base ++ natLe 8 e.size ++ natLe 4 (e.ig + e.iw * 16 + b2n e.committed * 0x600) ++ natLe 8 e.skip ++ natLe 4 0

/-- R220: the granularities and ways that a decoder supports: 256 B to 16 KiB; 1, 2, 3, 4, 6, 8, 12 or 16. -/
def hdmOk (ig iw : Nat) : Bool := decide (ig ≤ 6) && (decide (iw ≤ 4) || (decide (8 ≤ iw) && decide (iw ≤ 10)))

/-- An HDM decoder after a write of bytes at `off` of its image; a committed decoder changes only when it is uncommitted, and one whose
interleave R220 does not support does not commit. -/
def hdmWrite (e : Hdm) (off : Nat) (bs : List Byte) : Hdm :=
  let img := hdmImage e
  let img := img.take off ++ bs ++ img.drop (off + bs.length)
  let ctl := leAt img 16 4
  if e.committed then (if bitAt ctl 9 then e else { e with committed := false })
  else { e with
    base := leAt img 0 8 / 2 ^ 28 * 2 ^ 28, size := leAt img 8 8 / 2 ^ 28 * 2 ^ 28, ig := ctl % 16, iw := bitsOf ctl 7 4,
    skip := leAt img 20 8 / 2 ^ 28 * 2 ^ 28, committed := bitAt ctl 9 && hdmOk (ctl % 16) (bitsOf ctl 7 4) }

/-- The HDM decoder and byte offset that a BAR offset names. -/
def hdmAt (off : Nat) : Option (Nat × Nat) :=
  if hdmBase ≤ off && off < hdmBase + 256 then some ((off - hdmBase) / 32, (off - hdmBase) % 32) else none

/-- A free value's bytes, `n` of them, for registers that CXL 3.1 and not this spec describes. -/
def freeBytes (m : Mach) (n : Nat) : List Byte × Mach :=
  let (w, m) := takeFree m
  (bytesAt (natLe 8 w.toNat) 0 n, m)

/-- Bytes that a read of an FLD BAR returns, outside the parcel region. -/
def barRead (m : Mach) (f off n : Nat) : List Byte × Mach :=
  if off ≥ 0x13000 then (List.replicate n 0, m)
  else match hdmAt off with
    | some (d, o) => (bytesAt (hdmImage (tget ({} : Hdm) m.hdm (8 * f + d))) o n, m)
    | none => freeBytes m n

/-- A write to an FLD BAR, outside the parcel region. -/
def barWrite (m : Mach) (f off : Nat) (bs : List Byte) : Mach :=
  match hdmAt off with
  | some (d, o) => { m with hdm := tmod {} m.hdm (8 * f + d) (fun e => hdmWrite e o bs) }
  | none => m

/-! ### What the ingress fixes of a message (R63, R110, R222, R238) -/

/-- The FLD, and pool address or fault, of a CXL.mem request at a host port: R225's cause with the FLD and the DPA or HPA. -/
inductive Xlate where
  | none
  | ok (f pool d dpa : Nat)
  | fault (cause : Nat) (f : Option Nat) (info : Nat)
  deriving DecidableEq, Repr

/-- R220-R224: translate a CXL.mem request that arrives at host port `p`. Of an unbound FLD none of whose decoders holds the address, the
fault's DPA is 0 (DESIGN CHOICE: log entry 179). -/
def xlateMem (m : Mach) (p : Nat) (h : Hdr) : Xlate :=
  if role m p != 1 || !(isM2SReq h.kind || isRwD h.kind) then .none
  else match pickFld m p h.addr h.dpid with
    | .fault 1 f => .fault 1 f (if gfb m F.TEN_PORT_MODEL_MODEL [p] then 0 else h.addr)
    | .fault c f => .fault c f ((f.bind (fun g => (hdmFind m g h.addr).map (fun d => hdmDpa m g d h.addr))).getD 0)
    | .fld f dpa => match translate m f dpa with
      | .inl pool => .ok f pool ((hdmFind m f h.addr).getD 0) dpa
      | .inr c => .fault c (some f) dpa

/-- The FLD a message belongs to (R222): BIConflict belongs to none. -/
def msgFld (h : Hdr) (x : Xlate) : Option Nat :=
  if h.kind == .biConflict then none
  else match x, h.ioTo with
    | .ok f _ _ _, _ => some f
    | .fault _ f _, _ => f
    | .none, .fldBar f _ => some f
    | .none, .fldCfg f _ => some f
    | .none, _ => none

/-- Postcode of the host whose virtual switch binds member port `p` to one of its vPPBs 33 to 48 (R220, R272). -/
def boundHost (m : Mach) (p : Nat) : Option Nat :=
  (m.vppb.find? (fun x => x.2 == p + 1 && decide (33 ≤ x.1 % 64))).map (fun x => portPostcode m (x.1 / 64))

/-- A CXL.cache request, or one of its responses. -/
def isCacheReq (k : MsgKind) : Bool := k == .d2hReq || k == .h2dReq

/-- R63: the record of the request that a response or completion at port `p` answers, as it passed. -/
def passedFor (m : Mach) (p : Nat) (h : Hdr) : Option Passed :=
  let id := if !isCache h.kind then h.reqId else if role m p == 1 then h.cacheId else 0
  m.sof.passed.find? (fun k => k.port == p && k.cache == isCache h.kind && k.reqId == id && k.tag == h.tag)

/-- R63: the destination postcode of a message at a port; none where nothing decodes it. A CXL.cache response that matches no request that
passed takes the way of a request (DESIGN CHOICE: log entry 180). -/
def destOf (m : Mach) (p : Nat) (h : Hdr) (pool : Option Nat) : Option Nat :=
  if role m p == 3 then some h.dst
  else if isCache h.kind && !isCacheReq h.kind && (passedFor m p h).isSome then (passedFor m p h).map (·.src)
  else if isCache h.kind then
    (if role m p == 1 then
      (let q := tget 0 m.vppb (64 * p + 33 + h.cacheId)
       if q == 0 then none else some (portPostcode m (q - 1)))
    else boundHost m p)
  else if isM2SReq h.kind || isRwD h.kind then (pool.bind (homeOf m))
  else if isBiRsp h.kind then
    some (((m.sof.snoopSeen.find? (fun k => k.port == p && k.tag == h.tag)).map (·.home)).getD (ownPostcode m))
  else if isS2MRsp h.kind then some (ownPostcode m)
  else if isCpl h.kind then (passedFor m p h).map (·.src)
  else if h.kind == .mgmt || h.kind == .time then some (ownPostcode m)
  else match h.ioTo with
    | .pool => pool.bind (homeOf m)
    -- a virtual switch leads to the member ports that its vPPBs 33 to 48 are bound to (R220)
    | .port q => if role m p == 1 && !gfb m F.TEN_PORT_MODEL_MODEL [p] && role m q == 2
        && !(List.range 16).any (fun k => tget 0 m.vppb (64 * p + 33 + k) == q + 1) then none
      else some (portPostcode m q)
    | .dpid => some (gf m F.RTE_SELF_DISTRICT * 4096 + h.dpid % 4096)
    | .fldBar _ _ | .fldCfg _ _ | .cci => some (ownPostcode m)
    | .nowhere => none

/-- The request goes to pool memory, or to a line of it; or it is a snoop of a line from another home (R226). -/
def toPool (m : Mach) (p : Nat) (h : Hdr) : Bool :=
  (isBiSnp h.kind && role m p == 3) ||
  isM2SReq h.kind || isRwD h.kind || h.kind == .lineRd || h.kind == .lineWr || h.kind == .lineAtomic || h.kind == .mirrorWr
    || (isIo h.kind && !isCpl h.kind && (h.ioTo == .pool || (role m p == 3 && (homeOf m h.addr).isSome && h.dst % 4096 ≥ 4080)))

/-- The message as the ingress of port `p` builds it (R33, R53, R63, R79, R110, R111, R222, R238, R253). -/
def ingressMsg (m : Mach) (p : Nat) (pm : Postmark) (h : Hdr) : Msg :=
  let xl := xlateMem m p h
  let pool? : Option Nat := match xl with
    | .ok _ a _ _ => some a
    | .fault _ _ _ => none
    | .none => if toPool m p h then some h.addr else none
  let courier := role m p == 3
  let pool := pool?.getD 0
  let attr := match pool? with | some a => attrOf m a | none => ({ arrival := gfb m F.FTM_CTL_DEFAULT_ARRIVAL } : Attr)
  let f := msgFld h xl
  { h := h, pm := pm, mc := if courier then h.mc else mailClass h.kind attr.cache,
    sc := if courier then h.sc else serviceClass m p h f,
    src := if courier then h.src else portPostcode m p, dst := (destOf m p h pool?).getD 0,
    lost := (destOf m p h pool?).isNone,
    pool := pool, fld := f,
    world := if courier then 0 else if !h.tee then 0 else if (portOf m p).ideOn then 1 else 3,
    sg := match f with | some f => gf m F.TEN_FLD_CFG_SGROUP [f] | none => gf m F.GRD_PORT_SG_SGROUP [p],
    att := p, n := lettersOf h courier, attr := attr, member := pool?.bind (memberOf m), arrival := attr.arrival }

/-! ### Franking (R74-R76) -/

/-- R74: the kind of the first field that fails its check; none where the message passes. -/
def frankFail (m : Mach) (p : Nat) (h : Hdr) : Option Nat :=
  let bus (id : Nat) : Bool := let b := bitsOf id 15 8
    decide (b < gf m F.TEN_FRANK_CFG_BUS_FIRST [p]) || decide (gf m F.TEN_FRANK_CFG_BUS_LAST [p] < b)
  match role m p with
  | 3 => if bitAt (gf m F.TEN_FRANK_DMASK_DISTRICTS [p]) (h.src / 4096) then none else some 4
  | r =>
    if r == 1 && gfb m F.TEN_PORT_MODEL_MODEL [p] && h.spid != gf m F.RTE_PORT_ID_LOCAL [p] then some 1
    else if r == 1 && !gfb m F.TEN_PORT_MODEL_MODEL [p] && isMem h.kind && h.ldId != 0 then some 2
    else if isIo h.kind && bus (if isCpl h.kind then h.cplId else h.reqId) then some 3
    else if r == 2 && (portOf m p).multiLd && (isS2MRsp h.kind || isBiSnp h.kind)
        && !bitAt (gf m F.TEN_FRANK_CFG_LD_MASK [p]) h.ldId then some 2
    else none

/-- R75, R76: a franking failure. -/
def frankDrop (now : Nat) (m : Mach) (x : Msg) (kind : Nat) : Mach :=
  let p := x.att
  let m := discardCredit m x
  let m := satInc (sf m F.TEN_FRANK_STATUS_LAST_KIND [p] kind) F.TEN_FRANK_STATUS_TOTAL [p]
  let m := ackEvent m F.TEN_FRANK_STATUS_MISMATCH [p]
  let m := count (rasLog m now 0x10 1 p x.pm 0 0 0 x.src kind) now 0x014 1 (msgInfo x)
  let m := rdClose m now x.pm
  let t := gf m F.TEN_FRANK_CFG_THRESHOLD [p]
  if t != 0 && gf m F.TEN_FRANK_STATUS_TOTAL [p] ≥ t && role m p != 3 && !contained m p then
    placeFence now (sf m F.TEN_FRANK_STATUS_CONTAINED [p] 1) p 5 x.pm
  else m

/-! ### Waits at the ingress (R123, R128, R309) -/

/-- R309: the request takes a requester record at a host or member port. -/
def needsRecord (m : Mach) (x : Msg) : Bool :=
  (role m x.att == 1 || role m x.att == 2)
    && ((isM2SReq x.h.kind && x.h.kind != .memSpecRd) || isRwD x.h.kind || isNonPosted x.h.kind)

/-- The request's record, made as it is admitted. -/
def addRecord (m : Mach) (x : Msg) (ur : Bool := false) : Mach :=
  if needsRecord m x then
    { m with sof := { m.sof with recs := tmod [] m.sof.recs x.att (· ++ [{ reqId := x.h.reqId, tag := x.h.tag, io := isIo x.h.kind, live := true, msg := x, via := none, ur := ur }]) } }
  else m

/-- R123: a CXL.io posted write to pool memory at a host or member port. -/
def poolWrite (m : Mach) (x : Msg) : Bool := x.h.kind == .mwr && x.h.ioTo == .pool && role m x.att != 3

/-- R122, R123: the PCIe ordering table, for a later message against an earlier posted write by requester. -/
def mustFollow (h : Hdr) (reqId : Nat) : Bool :=
  if isCpl h.kind && h.ro then false
  else if h.kind == .mwr && h.ro then false
  else !(h.ido && (if isCpl h.kind then h.cplId else h.reqId) != reqId)

/-- R123: a later CXL.io message to another destination waits for this write's receipt. -/
def waitsReceipt (m : Mach) (x : Msg) : Bool :=
  isIo x.h.kind && role m x.att != 3 && m.sof.unreceipted.any (fun u => u.port == x.att && u.tc == x.h.tc && !u.relaxed
    && u.home != x.dst && mustFollow x.h u.reqId && pmBefore u.pm x.pm)

/-- Why the message must wait at its ingress now; none where it may go. -/
def holdReason (m : Mach) (x : Msg) : Option HoldWhy :=
  if x.mc == 7 && policeLevel m x.att < (x.n * 1000 : Nat) then some .police
  else if needsRecord m x && (tget [] m.sof.recs x.att).length ≥ 8192 then some .record
  else if poolWrite m x && (m.sof.unreceipted.filter (fun u => u.port == x.att)).length ≥ 256 then some .receiptLimit
  else if waitsReceipt m x then some .receiptOrder
  else none

/-- An earlier message of the same port, channel and class is held: this one keeps its place behind it (R119, R123). -/
def behindHeld (m : Mach) (x : Msg) : Bool :=
  m.sof.transit.any (fun t => t.msg.att == x.att && t.msg.mc == x.mc && creditKey m t.msg == creditKey m x && pmBefore t.msg.pm x.pm
    && (match t.phase with | .held _ => true | _ => false))

/-- What a message does as it passes the ingress: MC7 tokens, its record, its place among unreceipted writes, and where its
answer goes (R63, R123, R128, R309). -/
def passIngress (m : Mach) (x : Msg) (tgt : Target) (ur : Bool) : Mach :=
  let m := if x.mc == 7 then { m with sof := { m.sof with police := tmod 0 m.sof.police x.att (· - (x.n * 1000 : Nat)) } } else m
  let m := addRecord m x ur
  let m := if poolWrite m x then { m with sof := { m.sof with unreceipted := m.sof.unreceipted ++
      [⟨x.pm, x.att, x.h.tc, x.dst, x.attr.relaxed, none, x.h.reqId, x⟩] } } else m
  match tgt with
  | .egress q =>
    if isNonPosted x.h.kind then { m with sof := { m.sof with passed := m.sof.passed ++ [{ port := q, reqId := x.h.reqId, tag := x.h.tag, src := x.src }] } }
    else if isCacheReq x.h.kind then
      let k : Passed := { port := q, reqId := if role m q == 1 then cacheIdOf m q x.src else 0, tag := x.h.tag, src := x.src, cache := true }
      { m with sof := { m.sof with passed := k :: m.sof.passed.filter (fun y => { y with src := k.src } != k) } }
    else m
  | _ => m

/-- Letters of the lines of a CXL.io request bound for this home: one message for each line (R112). -/
def lineMsgs (x : Msg) (skip : List Nat) : List (Msg × Target) :=
  let ls := (linesOf x.pool x.h.len).filter (fun a => !skip.contains a)
  (ls.zip (List.range ls.length)).map (fun z =>
    let (a, i) := z
    let lo := max x.pool a
    let hi := min (x.pool + x.h.len) (a + 64)
    let h := if x.h.kind == .mwr then { x.h with data := (x.h.data.drop (lo - x.pool)).take (hi - lo) } else x.h
    let h := match x.h.kind with
      | .fetchAdd => { h with aop := 0, asize := x.h.len / 8, operand := leNat x.h.data }
      | .swap => { h with aop := 1, asize := x.h.len / 8, operand := leNat x.h.data }
      | .cas => { h with aop := 2, asize := x.h.len / 8, compare := leAt x.h.data 0 x.h.len, operand := leAt x.h.data x.h.len x.h.len }
      | _ => h
    ({ x with h := h, pool := lo, credit := i == 0, n := if i == 0 then x.n else 1 }, Target.slice (sliceNo a)))

/-! ### Answers at the ingress -/

/-- Complete a non-posted request at its ingress with data. -/
def answerIo (now : Nat) (m : Mach) (x : Msg) (k : MsgKind) (st : CplStatus) (data : List Byte) : Mach :=
  let m := discardCredit (addRecord m x) x
  sendReply now m x (replyTo m x x.att k false (st != .ok) st data x.pm x.sc)

/-- R113, R190, R273: a malformed or refused TLP: discarded if posted or malformed, else completed with UR, and logged. -/
def refuseTlp (now : Nat) (m : Mach) (x : Msg) (answer : Bool) : Mach :=
  let m := portError now m x.att x.pm x.src
  if answer && isNonPosted x.h.kind then answerIo now m x .cpl .ur [] else rdClose (discardCredit m x) now x.pm

/-- R225, R244: a request that faults at its ingress is answered there. -/
def answerFault (now : Nat) (m : Mach) (x : Msg) : Mach :=
  let m := discardCredit (addRecord m x) x
  if x.h.kind == .mwr || x.h.kind == .memSpecRd then rdClose m now x.pm else errReply now m x x.att x.pm

/-- R68: a message of the ingress that cannot be routed. -/
def ingressUnroutable (now : Nat) (m : Mach) (x : Msg) (cause : Nat) : Mach :=
  endUnroutable now (discardCredit (addRecord m x) x) x cause

/-! ### The device's own address space (R219, R231, R235) -/

/-- R219: a CXL.io access to an FLD's BAR outside its parcel region. -/
def barServe (now : Nat) (m : Mach) (x : Msg) (f off : Nat) : Mach :=
  if x.h.kind == .mwr then rdClose (discardCredit (barWrite m f off x.h.data) x) now x.pm
  else if x.h.kind == .mrd then
    let (d, m) := barRead m f off x.h.len
    answerIo now m x .cplD .ok d
  else if isNonPosted x.h.kind then answerIo now m x .cpl .ur []
  else rdClose (discardCredit m x) now x.pm

/-- A CXL.io request that ends at the device itself: configuration space and the Switch CCI's BAR. CXL 3.1 and PCIe 6.x give
their contents; a read returns free values. -/
def ownSpace (now : Nat) (m : Mach) (x : Msg) : Mach :=
  match x.h.kind with
  | .mrd | .cfgRd | .iord =>
    let (d, m) := freeBytes m x.h.len
    answerIo now m x .cplD .ok d
  | .cfgWr | .iowr => answerIo now m x .cpl .ok []
  | k => if isAtomicOp k || isNonPosted k then answerIo now m x .cpl .ur [] else rdClose (discardCredit m x) now x.pm

/-- R218, R219, R231, R235: serve a request to the device's own address space; one to an FLD that is not bound, or does not hold its
position, completes with UR. -/
def serveOwn (now : Nat) (m : Mach) (x : Msg) : Mach :=
  match x.h.ioTo with
  | .fldBar f off => if fldServes m f then barServe now m x f off
      else if isNonPosted x.h.kind then answerIo now m x .cpl .ur [] else rdClose (discardCredit m x) now x.pm
  | .fldCfg f _ => if fldServes m f then ownSpace now m x
      else if isNonPosted x.h.kind then answerIo now m x .cpl .ur [] else rdClose (discardCredit m x) now x.pm
  | _ => ownSpace now m x

/-! ### Starting, holding and releasing messages (R112, R119, R123, R128, R309) -/

/-- Start a message: a CXL.io request for this home is split as it starts, and one for the device's own address space is served. -/
def start (now : Nat) (m : Mach) (x : Msg) (tgt : Target) : Mach :=
  let pass := passIngress m x tgt x.ur
  match tgt with
  | .ingress _ => if x.h.kind == .receipt then enter now pass x tgt else serveOwn now m x
  | .slice _ =>
    let m := pass
    let c := cfgAt m x.pm
    if isIo x.h.kind then
      let ls := (lineMsgs x x.skip).map (fun z => ({ z.1 with
        attr := attrOf c (z.1.pool / 64 * 64), member := memberOf c (z.1.pool / 64 * 64)
        arrival := (attrOf c (z.1.pool / 64 * 64)).arrival }, z.2))
      let m := { m with home := { m.home with splits := m.home.splits ++
        [⟨x.pm, x, ls.map (fun z => z.1.pool / 64 * 64), [], x.pm.tick⟩] } }
      ls.foldl (fun m z => enter now m z.1 z.2) m
    else enter now m x tgt
  | _ => enter now pass x tgt

/-- Send a message on, or hold it at its ingress. -/
def launchOrHold (now : Nat) (m : Mach) (x : Msg) (tgt : Target) : Mach :=
  let m := noteEgress m now x (egressPorts m x tgt)
  match (if behindHeld m x then some HoldWhy.receiptOrder else holdReason m x) with
  | none => start now m x tgt
  | some w =>
    let before := withheldMask m x.att
    withholdEvents before (enter now m x tgt (some w)) x.att

/-- A held message is tried again: it goes when nothing holds it and no earlier one of its class is held. -/
def tryHeld (now : Nat) (m : Mach) (t : Transit) : Mach :=
  match t.phase with
  | .held _ =>
    if behindHeld m t.msg || (holdReason m t.msg).isSome then m
    else start now (dropTransit m t.key) t.msg t.tgt
  | _ => m

/-- Every held message of port `p`, oldest first. -/
def releaseHeld (now : Nat) (m : Mach) (p : Nat) : Mach :=
  (m.sof.transit.filter (fun t => t.msg.att == p)).foldl (tryHeld now) m

/-- R190, R219: a CXL.io access to an FLD's BAR goes to the dispatcher for its parcel region, and else is served at its ingress. -/
def barAccess (now : Nat) (m : Mach) (x : Msg) (f off : Nat) : Mach :=
  if 0x12000 ≤ off && off < 0x13000 && fldServes m f && (x.h.kind == .mrd || x.h.kind == .mwr) then launchOrHold now m x .dispatcher
  else launchOrHold now m x (.ingress x.att)

/-- R64, R221: a CXL.io request whose destination is the local ID of an FLD reaches its register BAR, at the offset of its address in
the 128 KiB that R219 gives the BAR (DEDUCED: log entry 181), or its configuration space. -/
def fldAccess (m : Mach) (x : Msg) : Option Msg :=
  if !isIo x.h.kind || isCpl x.h.kind || x.h.kind == .msg || x.h.kind == .msgD then none
  else (fldOfPbr m (x.dst % 4096)).map (fun f =>
    let cfg := x.h.kind == .cfgRd || x.h.kind == .cfgWr
    { x with h := { x.h with ioTo := if cfg then .fldCfg f (x.h.addr % 4096) else .fldBar f (x.h.addr % 0x20000) }, fld := some f, sg := gf m F.TEN_FLD_CFG_SGROUP [f] })

/-! ### The guard at the ingress (R237-R246) -/

/-- R246: granules that a request touches, as ranges (first byte, end). -/
def granuleParts (a len : Nat) : List (Nat × Nat) :=
  (List.range ((a % 4096 + max 1 len + 4095) / 4096)).map (fun i =>
    (max a (a / 4096 * 4096 + 4096 * i), min (a + max 1 len) (a / 4096 * 4096 + 4096 * (i + 1))))

/-- The guard's verdict on each part of a request (R246, R247). -/
def partVerdicts (m : Mach) (x : Msg) (need : Need) : List ((Nat × Nat) × Verdict) :=
  let ps := if isIo x.h.kind then granuleParts x.pool x.h.len else [(x.pool, x.pool + 64)]
  ps.map (fun r => (r, guardCheck m 0 r.1 x.world x.sg need))

/-- Runs of allowed parts, joined where they touch. -/
def joinRuns : List (Nat × Nat) → List (Nat × Nat)
  | [] => []
  | (a, b) :: rest => match joinRuns rest with
    | (c, d) :: more => if b == c then (a, d) :: more else (a, b) :: (c, d) :: more
    | [] => [(a, b)]

/-- A request cut to one run of its bytes. -/
def cutTo (x : Msg) (r : Nat × Nat) : Msg :=
  { x with pool := r.1, h := { x.h with
      addr := r.1, len := r.2 - r.1, data := if x.h.kind == .mwr then (x.h.data.drop (r.1 - x.pool)).take (r.2 - r.1) else x.h.data } }

/-! ### Routing at the ingress (R63-R68, R72, R73) -/

/-- R153: the slice that issued the snoop which the tag of a BIRsp names, or slice 0, of quadrant 0, where no slice has given the
tag. -/
def birspSlice (m : Mach) (tag : Nat) : Nat :=
  if 0 < tag / 64 && decide (tag / 64 < (sliceOf m (tag % 64)).nextId) then tag % 64 else 0

/-- Where a message for this device goes (R64, KIND 2). -/
def internalTarget (m : Mach) (x : Msg) : Target :=
  match x.h.kind with
  | .lineData | .lineAck => .engine x.h.engine
  | .hostRemoved | .mgmt | .time => .postmaster
  | .receipt => .ingress x.att
  | k =>
    if isBiRsp k then .slice (birspSlice m x.h.tag)
    else if isS2MRsp k then .slice (x.h.tag % 64)
    else if x.pool != 0 || isM2SReq k || isRwD k || k == .mrd || k == .mwr || isAtomicOp k then .slice (sliceNo x.pool)
    else .postmaster

/-- Send an accepted message to its destination. -/
def dispatch (now : Nat) (m : Mach) (x : Msg) : Mach :=
  let ing := if role m x.att == 3 then some x.att else none
  if isS2MRsp x.h.kind && role m x.att == 2 then launchOrHold now m x (.slice (x.h.tag % 64))
  else match route (cfgAt m x.pm) x.src x.dst ing x.h.hop with
    | .port q =>
      -- a receipt ends at the ingress of its write's port (R123)
      if x.h.kind == .receipt && role m q != 3 then launchOrHold now m x (.ingress q)
      else if role m q == 3 && isIo x.h.kind && x.h.hdrBytes > 56 then ingressUnroutable now m x 9
      else launchOrHold now m x (.egress q)
    | .internal =>
      (match fldAccess m x with
      | some y => (match y.h.ioTo with | .fldBar f off => barAccess now m y f off | _ => launchOrHold now m y (.ingress x.att))
      | none => launchOrHold now m x (internalTarget m x))
    | .nowhere c => ingressUnroutable now m x c

/-- R112, R237-R246: a request to pool memory at a host or member port: checked, and sent where its home is. -/
def poolRequest (now : Nat) (m : Mach) (x : Msg) : Mach :=
  match needOf x.h with
  | none => dispatch now m x
  | some need =>
    let vs := partVerdicts m x need
    let bad := vs.find? (fun v => v.2 != .allow)
    let m := match bad with
      | some (r, .deny cause rule) => count (guardFault m now x.pm x.src x.world x.sg r.1 cause rule) now 0x070 1 (msgInfo x)
      | _ => m
    match bad with
    | none => dispatch now m x
    | some _ =>
      if !isIo x.h.kind then answerFault now m x
      else if x.h.kind == .mwr then
        match joinRuns ((vs.filter (fun v => v.2 == .allow)).map (·.1)) with
        | [] => answerFault now m x
        | [r] => dispatch now m (cutTo x r)
        | rs =>
          let dead := (vs.filter (fun v => v.2 != .allow)).map (·.1)
          if x.dst == ownPostcode m then
            dispatch now m { x with skip := (linesOf x.pool x.h.len).filter (fun a =>
              dead.any (fun d => decide (d.1 ≤ max a x.pool) && decide (max a x.pool < d.2))) }
          else (rs.zip (List.range rs.length)).foldl (fun m z => dispatch now m { cutTo x z.1 with credit := z.2 == 0 }) m
      else if isAtomicOp x.h.kind then answerFault now m x
      else match joinRuns ((vs.takeWhile (fun v => v.2 == .allow)).map (·.1)) with
        | r :: _ => dispatch now m { cutTo x r with ur := true }
        | [] => answerFault now m x

/-- A CXL.io message at a host or member port (R63, R73, R112, R113, R190, R273). -/
def ioArrive (now : Nat) (m : Mach) (x : Msg) : Mach :=
  let p := x.att
  let h := x.h
  if isCpl h.kind then
    let m := if h.data.length == h.len then { m with sof := { m.sof with passed := m.sof.passed.filter (fun k =>
        !(k.port == p && !k.cache && k.reqId == h.reqId && k.tag == h.tag)) } } else m
    if x.lost then deadLetter (discardCredit m x) now x 7 .discarded (some p) else dispatch now m x
  else if h.kind == .mrdLk && h.ioTo != .pool then answerIo now m x .cpl .ur []
  else if h.atField != 0 then refuseTlp now m x true
  else match h.mcIndex with
    | some k =>
      let g := gf m F.RTE_PORT_ID_MC_BASE [p] + k
      if k ≥ 64 || g ≥ 61440 then ingressUnroutable now m x 8
      else launchOrHold now m { x with dst := g } (.group g)
    | none =>
      match h.ioTo with
      | .fldBar f off => barAccess now m x f off
      | .fldCfg _ _ | .cci => launchOrHold now m x (.ingress p)
      | .pool =>
        if !(h.kind == .mrd || h.kind == .mwr || isAtomicOp h.kind) then refuseTlp now m x true
        else
          let size := if h.kind == .cas then h.len / 2 else h.len
          let okSize := match h.kind with
            | .fetchAdd | .swap => size == 4 || size == 8
            | .cas => size == 4 || size == 8 || size == 16
            | _ => true
          if isAtomicOp h.kind && (!okSize || h.addr % max 1 size != 0) then refuseTlp now m x false
          else if (homeOf m x.pool).isNone then ingressUnroutable now m x 6
          else poolRequest now m (if isAtomicOp h.kind then { x with h := { h with len := size } } else x)
      | .nowhere => ingressUnroutable now m x 2
      | _ => dispatch now m x

/-- A CXL.mem request at a host port (R220-R226). -/
def memArrive (now : Nat) (m : Mach) (x : Msg) : Mach :=
  match xlateMem m x.att x.h with
  | .fault cause f info =>
    let m := count (xlateFault m now x.pm x.src cause f info 0) now 0x071 1 (msgInfo x)
    if x.h.kind == .biConflict then
      let m := discardCredit (addRecord m x) x
      sendReply now m x (replyTo m x x.att .biConflictAck false false .ok [] x.pm x.sc)
    else answerFault now m x
  | .ok f _ d _ =>
    -- the interleave position through which the host addresses the FLD (R226)
    let m := { m with hdm := tmod {} m.hdm (8 * f + d) (fun e =>
      { e with pos := (x.h.addr - e.base) / (256 * 2 ^ e.ig) % hdmWays e.iw }) }
    if x.lost then ingressUnroutable now m x 6 else poolRequest now m x
  | .none => dispatch now m x

/-- A message over Courier (R110, R113, R293): a reserved opcode or a class its opcode does not allow is malformed. -/
def courierArrive (now : Nat) (m : Mach) (x : Msg) : Mach :=
  if x.h.kind == .reservedOp || !classAllowed x.h.kind x.mc then
    rdClose (rasLog (discardCredit m x) now 0x16 2 x.att x.pm 0 0 0 x.src (opcodeOf x.h.kind * 256)) now x.pm
  else if x.h.kind == .mrdLk then (if toPool m x.att x.h then refuseTlp now m x true else answerIo now m x .cpl .ur [])
  else match x.h.group with
    | some g => launchOrHold now m { x with dst := g } (.group g)
    | none =>
      let size := if x.h.kind == .cas then x.h.len / 2 else x.h.len
      dispatch now m (if isAtomicOp x.h.kind then { x with h := { x.h with len := size } } else x)

/-- Credits, fence and franking, and then what the message is (R33, R74, R310). -/
def accept (now : Nat) (m : Mach) (x : Msg) : Mach :=
  let p := x.att
  let mine := m.pmReqs.find? (fun r => r.port == p && r.tag == x.h.tag)
  -- the answer to a tunnelled command comes as a message with the tag that the tunnel gave it (R355)
  if (isCpl x.h.kind || (x.h.kind == .msgD && decide (256 ≤ x.h.tag))) && mine.isSome && (frankFail m p x.h).isNone then
    let m := { discardCredit m x with pmReqs := m.pmReqs.filter (fun r => !(r.port == p && r.tag == x.h.tag)) }
    -- the interface whose command issued the request gets its completion (R355)
    match (mine.map (·.who)).join with
    | none => m
    | some w => { m with replies := m.replies ++ [{ whom := w, vals := [if x.h.status == .ok then 0 else 1], body := x.h.data }] }
  else if contained m p && !pmBefore x.pm (fenceOf m p) then
    rdClose (satInc (discardCredit m x) F.RAS_FENCE_INFO_AFTER [p]) now x.pm
  else match frankFail m p x.h with
    | some k => frankDrop now m x k
    | none =>
      if role m p == 3 then courierArrive now m x
      else if !gfb m F.STN_LINK_STATUS_READY (st p) && !contained m p then
        -- R277: not READY: configuration requests are answered with RRS, and nothing else is carried
        (if x.h.kind == .cfgRd || x.h.kind == .cfgWr then answerIo now m x .cpl .crs [] else rdClose (discardCredit m x) now x.pm)
      else if role m p == 1 && gfb m F.SEC_IDE_CFG_IDE_REQ [p] && !(portOf m p).ideOn && x.h.kind != .cfgRd && x.h.kind != .cfgWr then
        -- R453: until its streams are Secure the port carries configuration requests and DOE, and nothing else
        rdClose (discardCredit m x) now x.pm
      else if isBiSnp x.h.kind then
        (if role m p == 2 then rdClose (placeFence now (discardCredit m x) p 7 x.pm) now x.pm else rdClose (discardCredit m x) now x.pm)
      else if isIo x.h.kind then ioArrive now m x
      else if role m p == 1 && (isM2SReq x.h.kind || isRwD x.h.kind) then memArrive now m x
      else if isCache x.h.kind && x.lost then ingressUnroutable now m x 2
      else if isBiRsp x.h.kind then
        dispatch now { m with sof := { m.sof with snoopSeen := m.sof.snoopSeen.filter (fun k => !(k.port == p && k.tag == x.h.tag)) } } x
      else dispatch now m x

/-- R33, R77: the `n`-th message that begins in a flit that completes at port `p` now. -/
def arrive (p now : Nat) (m : Mach) (n : Nat) (h : Hdr) : Mach :=
  let t := now + n / 16
  let m := modPort m p (fun k => { k with lastTick := max k.lastTick t })
  let pm := portPm p (tick48 now) n
  withCfg pm (fun m => let x := ingressMsg m p pm h; accept now (onPostmark m now x) x) m

/-- The messages of a flit, in flit order. -/
def arriveAll (p now : Nat) : Nat → List Hdr → Mach → Mach
  | _, [], m => m
  | n, h :: hs, m => arriveAll p now (n + 1) hs (arrive p now m n h)

/-- R33: FLIT_ARRIVAL at host or member port `p`. -/
def flitArrival (p : Nat) (hs : List Hdr) (now : Nat) (m : Mach) : Mach :=
  if portExists m p && role m p != 3 && gfb m F.STN_LINK_STATUS_DL_UP (st p) then arriveAll p now 0 hs m else m

/-- The meaning of FLIT_ARRIVAL. -/
def execFlitArrival (p : Nat) (hs : List Hdr) (s : State) := onMachW (flitArrival p hs) s

/-- R94, R309: REOFFER: transit `i`, refused at its point or held at its ingress, is offered again. -/
def reofferAny (i : Nat) (now : Nat) (m : Mach) : Mach :=
  match m.sof.transit[i]? with
  | some t => (match t.phase with | .held _ => tryHeld now m t | _ => reoffer i now m)
  | none => m

/-- The meaning of REOFFER. -/
def execReoffer (i : Nat) (s : State) := onMachW (reofferAny i) s

/-- R123: RECEIPT: transit `n` is a receipt that has reached its ingress: its write is receipted, and what waited goes. -/
def receipt (n : Nat) (now : Nat) (m : Mach) : Mach :=
  match m.sof.transit[n]? with
  | none => m
  | some t =>
    match t.tgt with
    | .ingress p =>
      if t.msg.h.kind == .receipt && t.got.contains 0 then
        let m := onAdmitted (dropTransit m t.key) t.msg
        match m.sof.unreceipted.find? (fun u => u.port == p && u.pm == t.msg.h.firstPm) with
        | none => deadLetter m now t.msg 7 .discarded
        | some u =>
          let m := { m with sof := { m.sof with unreceipted := m.sof.unreceipted.erase u } }
          releaseHeld now (rdClose m now u.pm) p
      else m
    | _ => m

/-- The meaning of RECEIPT. -/
def execReceipt (n : Nat) (s : State) := onMachW (receipt n) s

/-- R128: MC7_BUCKET_REFILL, and the messages that waited for tokens. -/
def mc7Refill (now : Nat) (m : Mach) : Mach :=
  if now % 1024 != 0 then m
  else
    let m := mc7BucketRefill now m
    (m.sof.transit.filter (fun t => t.phase == .held .police)).foldl (tryHeld now) m

/-- The meaning of MC7_BUCKET_REFILL. -/
def execMc7BucketRefill (s : State) := onMachW mc7Refill s

/-! ### Messages of internal sources, and stale messages (R37, R40) -/

/-- R39: a lower-numbered slice has a message of the same source and TICK to issue, which takes its SLOT first. -/
def sliceBefore (m : Mach) (x : Sched) : Bool :=
  (x.source == 145 || x.source == 146) && m.sched.any (fun y => y.source == x.source && y.tick == x.tick && decide (y.msg.h.tag % 64 < x.msg.h.tag % 64))

/-- R39, R40: INTERNAL_MESSAGE_DUE: entry `i` of the schedule is issued once its TICK is reached, in its slice's turn, unless it has slipped. -/
def internalMessageDue (i : Nat) (now : Nat) (m : Mach) : Mach :=
  match m.sched[i]? with
  | none => m
  | some x =>
    if decide (now < x.due) || decide (x.due + 64 ≤ now) || sliceBefore m x then m
    else
      let (pm, m) := internalPm { m with sched := ldrop m.sched i } x.source x.tick
      let y := { x.msg with pm := pm }
      match x.tgt with
      | .postmaster => sendNew now m y
      | tgt => enter now (onPostmark m now y (egressPorts m y tgt)) y tgt

/-- The meaning of INTERNAL_MESSAGE_DUE. -/
def execInternalMessageDue (i : Nat) (s : State) := onMachW (internalMessageDue i) s

/-- R40, R208: SLIP of an internal source: a message 64 ticks overdue takes the current tick, and the source's later TICKs
move by the same amount. -/
def slip (src : Nat) (now : Nat) (m : Mach) : Mach :=
  let behind (t : Nat) : Nat := (tick48 now + 2 ^ 48 - t) % 2 ^ 48
  if 128 ≤ src && src < 144 then
    match (writeDue m (src - 128)).filter (fun x => decide (x.2.since + 63 ≤ now)) with
    | none => m
    | some (num, w) =>
      modParcel (engineSlip now m (src - 128) w.tick (behind w.tick)) num (fun p =>
        { p with due := p.due.map (fun v => if v == w then { v with tick := tick48 now, since := now + 1 } else v) })
  else
    match m.sched.find? (fun x => x.source == src && decide (x.due + 64 ≤ now)) with
    | none => m
    | some x =>
      let m := slipSource m src x.tick (behind x.tick)
      countSlip now { m with sched := m.sched.map (fun y => if y == x then { y with tick := tick48 now, due := now } else y) } src

/-- The meaning of SLIP. -/
def execSlip (src : Nat) (s : State) := onMachW (slip src) s

/-- R37: the message is older than the stale limit. -/
def isStale (now : Nat) (x : Msg) : Bool := decide (expandTick now x.pm.tick + 2 ^ 36 ≤ now)

/-- R37: FTM_STALE counts a stale completion. -/
def countStale (m : Mach) (x : Msg) : Mach := ackEvent (sf m F.FTM_STALE_LAST_SOURCE [] x.pm.source) F.FTM_STALE_STALE

/-- R37: the first stale item that slice after slice holds unconfirmed, with its slice. -/
def staleItem (now : Nat) (m : Mach) : Option (Nat × Item) :=
  m.home.slices.findSome? (fun x => (x.2.items.find? (fun i => i.conf == 0 && isStale now i.msg)).map (fun i => (x.1, i)))

/-- R37: the transit waits, or travels, to be confirmed at a slice or to be selected at an egress. -/
def staleTransit (now : Nat) (t : Transit) : Bool :=
  underWay t && isStale now t.msg && (match t.tgt with
    | .slice _ => !isInput t.msg.h.kind
    | .egress _ | .group _ | .dispatcher => true
    | _ => match t.phase with | .held _ => true | _ => false)

/-- R37: the first stale message in an egress queue, with its port. -/
def staleEntry (now : Nat) (m : Mach) : Option (Nat × QEntry) :=
  m.sof.queues.findSome? (fun q => ((q.2.settled ++ q.2.sorting).find? (fun e => isStale now e.msg)).map (fun e => (q.1 / 32, e)))

/-- R37: the first stale message that the dispatcher holds, with its class. -/
def staleIntake (now : Nat) (m : Mach) : Option (Nat × Msg) :=
  m.eng.intake.findSome? (fun c => (c.2.find? (isStale now)).map (fun x => (c.1, x)))

/-- R37: end a stale item: a CXL.io request ends with all its lines. -/
def endStaleItem (now : Nat) (m : Mach) (s : Nat) (i : Item) : Mach :=
  let m := modSlice m s (fun sl => { sl with items := sl.items.filter (fun j => j.seq != i.seq) })
  let m := if isIo i.msg.h.kind then
      { m with home := { m.home with
        slices := m.home.slices.map (fun y => (y.1, { y.2 with items := y.2.items.filter (fun j => !(j.conf == 0 && j.msg.pm == i.msg.pm)) }))
        splits := m.home.splits.filter (fun k => k.pm != i.msg.pm) } }
    else m
  endError now (countStale m i.msg) i.msg 2 none

/-- R37, R187: STALE_LIMIT: the first message past its limit, unconfirmed at a slice, on its way or waiting for its point, queued at an egress or
at the dispatcher, completes with error and is dead-lettered with cause 2; with none, the first copy of a mirrored write past its limit
fails. -/
def staleLimit (now : Nat) (m : Mach) : Mach :=
  match staleItem now m, m.sof.transit.find? (staleTransit now), staleEntry now m, staleIntake now m with
  | some (s, i), _, _, _ => endStaleItem now m s i
  | _, some t, _, _ => endError now (countStale (discardCredit (dropTransit m t.key) t.msg) t.msg) t.msg 2 none
  | _, _, some (p, e), _ => endError now (countStale (releaseEntry m p e) e.msg) e.msg 2 (some p) e.group
  | _, _, _, some (mc, x) => endError now (countStale (dispatchTake m mc x) x) x 2 none
  | _, _, _, _ =>
    match m.home.copies.find? (fun c => decide (expandTick now c.tick + 2 ^ 36 ≤ now)) with
    | some c =>
      payAll now c.slice (degrade now { m with home := { m.home with copies := m.home.copies.erase c } } c.group ⟨c.tick, 128 + c.slice / 16, 15⟩)
    | none => m

/-- The meaning of STALE_LIMIT. -/
def execStaleLimit (s : State) := onMachW staleLimit s

end Sys2Proof.Machine
end

