-- ==== Sys2Proof/Machine/Links.lean ====
section
/-!
DEFINITION. What every change of a link shares (chapters 12 and 13): the power domain of a port, the sideband lands, a link
that goes down, and the states of a Courier session.
-/

namespace Sys2Proof.Machine
open Sys2Proof

/-! ### Power domains (R421) -/

/-- The power domain of a port's station is on. -/
def stationOn (m : Mach) (p : Nat) : Bool := domainState m (p / 16) == 2

/-- R324, R336: the configuration has been read and the device is not in safe mode. -/
def configured (m : Mach) : Bool := 6 ≤ gf m F.GLB_STATUS_STEP && !gfb m F.GLB_STATUS_SAFE

/-! ### Sideband lands (R268, R269) -/

/-- R268: drive a member's PERST_N, or hold a host port's land low. -/
def drivePerst (now : Nat) (m : Mach) (p : Nat) (low : Bool) : Mach :=
  let _ := now
  sf (modPort m p (fun k => { k with perstOut := low })) F.STN_LINK_STATUS_PERST (st p) (b2n low)

/-- R269: the level a host port drives on its PRSNT_N. -/
def hostPresent (now : Nat) (m : Mach) (p : Nat) : Mach :=
  if portExists m p && role m p == 1 then setLink now m p F.STN_LINK_STATUS_PRSNT (b2n (configured m && (domainState m (p / 16) == 1 || stationOn m p))) else m

/-! ### Courier sessions (R284, R302-R306) -/

/-- The state of a Courier port. -/
def crlOf (m : Mach) (p : Nat) : Courier := tget {} m.courier p

/-- The machine with a Courier port changed. -/
def modCrl (m : Mach) (p : Nat) (f : Courier → Courier) : Mach := { m with courier := tmod {} m.courier p f }

/-- CSTATE of a Courier port; every change raises CRL_EVT. -/
def setCstate (m : Mach) (p v : Nat) : Mach :=
  if gf m F.STN_CRL_STATUS_CSTATE (st p) == v then m
  else ackEvent (sf m F.STN_CRL_STATUS_CSTATE (st p) v) F.STN_CRL_STATUS_CRL_EVT (st p)

/-- The event of type 0x14 (R373): ADMIT_FAIL, IDE_FAIL and a TIME_DIR mismatch, with the peer's postcode. -/
def courierEvent (now : Nat) (m : Mach) (p : Nat) (mismatch : Bool) (peer : Nat) : Mach :=
  event m now 0x14 2 p pmNone (gf m F.STN_CRL_STATUS_ADMIT_FAIL (st p) + 16 * gf m F.STN_CRL_STATUS_IDE_FAIL (st p)
    + 32 * b2n mismatch + peer % 2 ^ 18 * 2 ^ 24)

/-- Ticks of a hold interval: HOLD_MS, and what a handover adds (R304, R391). -/
def holdTicks (m : Mach) (p : Nat) : Nat := gf m F.STN_CRL_CFG_HOLD_MS (st p) * 4000000 + (crlOf m p).holdExt

/-- CSTATE of a Courier port with no session, by its link and its last admission. -/
def idleCstate (m : Mach) (p : Nat) : Nat :=
  if !gfb m F.STN_LINK_STATUS_DL_UP (st p) then 0
  else if (crlOf m p).authed then 2
  else if gf m F.STN_CRL_STATUS_ADMIT_FAIL (st p) != 0 then 5 else 2

/-- R305, R320: the session of port `p` ends without resuming: its fence is placed with cause 11. -/
def endSession (now : Nat) (m : Mach) (p : Nat) : Mach :=
  let m := placeFence now m p 11 (lossFence now m p [p])
  let m := sf m F.STN_CRL_STATUS_SESSION (st p) 0
  let m := modCrl m p (fun c => { c with retry := [], open_ := [], holdFrom := 0, holdExt := 0, outstanding := none, exOpen := false })
  setCstate m p (idleCstate m p)

/-- R304: DL_Active is lost on a Courier link: a session enters its hold interval, or ends if HOLD_MS
is 0. -/
def courierDown (now : Nat) (m : Mach) (p : Nat) : Mach :=
  let m := modCrl m p (fun c => { c with authed := false, outstanding := none, exOpen := false, nakSent := false, replayAt := 0 })
  let m := sf m F.STN_CRL_STATUS_IDE_ON (st p) 0
  match gf m F.STN_CRL_STATUS_CSTATE (st p) with
  | 3 =>
    let m := setLink now m p F.STN_LINK_STATUS_READY 0
    if gf m F.STN_CRL_CFG_HOLD_MS (st p) == 0 then endSession now m p
    else setCstate (modCrl m p (fun c => { c with holdFrom := now + 1, holdExt := m.fw.handEnd - (now + 1) })) p 4
  | 4 => m
  | _ => setCstate m p 0

/-! ### A link goes down (R276, R310) -/

/-- R310: the message is one of the port's link-layer replay buffer that the fence's flush ends: the device's own member
accesses and snoops are settled under R311 instead. -/
def replayEnds (x : Msg) : Bool := !(128 ≤ x.att && x.att < 132)

/-- R310: the last `n` messages sent at port `p` were not acknowledged. -/
def endReplay (now : Nat) (m : Mach) (p n : Nat) : Mach :=
  let mine := (m.sof.wire.filter (fun w => w.1 == p)).map (·.2)
  ((mine.drop (mine.length - n)).filter replayEnds).foldl (fun m x => endError now m x 4 (some p) none false (fenceOf m p)) m

/-- R310: a message of which only a part had arrived: its header, and the tick and place of its beginning. CXL.mem messages
are admitted only whole. -/
def cutShort (now : Nat) (m : Mach) (p : Nat) (c : Hdr × Nat × Nat) : Mach :=
  if isMem c.1.kind then m
  else
    let x := ingressMsg m p (portPm p (tick48 c.2.1) c.2.2) c.1
    deadLetter m now x 0x0E .discarded (some p) none false (fenceOf m p)

/-- R276: the data link layer of port `p` leaves DL_Active: a host or member port is contained with a cause, a Courier
link enters its hold interval. `ports` are the ports whose TICKs the fence must pass (R307). -/
def linkLost (now : Nat) (m : Mach) (p cause : Nat) (ports : List Nat) (n : Nat) (cut : Option (Hdr × Nat × Nat)) : Mach :=
  if !gfb m F.STN_LINK_STATUS_DL_UP (st p) then m
  else
    let m := sf (sf (sf m F.STN_LINK_STATUS_LSTATE (st p) 6) F.STN_LINK_STATUS_RATE (st p) 0) F.STN_LINK_STATUS_WIDTH (st p) 0
    let m := setLink now (sf m F.STN_LINK_STATUS_MODE (st p) 0) p F.STN_LINK_STATUS_DL_UP 0
    let m := { m with pmReqs := m.pmReqs.filter (fun r => r.port != p) }
    if role m p == 3 then courierDown now m p
    else
      let old := contained m p
      let m := setLink now (placeFence now m p cause (lossFence now m p ports)) p F.STN_LINK_STATUS_READY 0
      let m := modPort m p (fun k => { k with ideOn := false })
      let m := sf (sf (sf m F.SEC_IDE_STATUS_CM_SECURE [p] 0) F.SEC_IDE_STATUS_LINK_SECURE [p] 0) F.SEC_IDE_STATUS_SEL_SECURE [p] 0
      if old then m
      else match cut with
        | some c => cutShort now (endReplay now m p n) p c
        | none => endReplay now m p n

/-- R277, R279: link-down of one port by itself. -/
def linkDownOf (now : Nat) (m : Mach) (p : Nat) : Mach := linkLost now m p (if role m p == 1 then 1 else 2) [p] 0 none

/-- R319: a port reset acts at once, or when the fence of the port completes. -/
def portReset (now : Nat) (m : Mach) (p : Nat) : Mach :=
  if fstate m p == 1 then modPort m p (fun k => { k with resetHeld := true }) else resetPort now m p

/-- R14, R307 cause 10, R422, R423: every port of a station group is contained together; its links go down. -/
def groupDown (now : Nat) (m : Mach) (d : Nat) : Mach :=
  let ports := (List.range 16).map (16 * d + ·)
  let m := (ports.filter (fun p => portExists m p)).foldl (fun m p =>
    let m := if role m p == 3 then linkLost now m p 10 ports 0 none
      else linkLost now (placeFence now m p 10 (lossFence now m p ports)) p 10 ports 0 none
    if role m p == 2 then portReset now (drivePerst now m p true) p else m) m
  ports.foldl (hostPresent now) m

/-! ### Sessions open and resume (R303, R305) -/

/-- The SESSION flit that port `p` sends with an OP and ID. -/
def sessionFlit (m : Mach) (p op id : Nat) : SessionFlit :=
  { id := id, op := op, timeDir := gf m F.STN_CRL_CFG_TIME_DIR (st p), next := (crlOf m p).rxSeq,
    credits := if op ≤ 2 then [2048, 2048, 2048, 2048, 2048, 2048, 2048, 256] else [],
    postcode := ownPostcode m, ver := gf m F.MBX_FW_INFO_RUN_COURIER, oldest := m.fw.oldest, newest := m.fw.newest }

/-- Send a SESSION flit; OPEN and RESUME stand until they are answered. -/
def sendSession (now : Nat) (m : Mach) (p op id : Nat) : Mach :=
  let f := sessionFlit m p op id
  modCrl m p (fun c => { c with
    sent := c.sent ++ [f], lastSent := now, outstanding := if op == 1 || op == 3 then some f else c.outstanding })

/-- R302: the session ID after `k`, skipping 0. -/
def nextId (k : Nat) : Nat := if (k + 1) % 65536 == 0 then 1 else (k + 1) % 65536

/-- R302, R305: an admitted link with nothing outstanding: the lower-postcode end asks to resume the session it holds, or
to open one once no fence of the link is open. -/
def offerSession (now : Nat) (m : Mach) (p : Nat) : Mach :=
  let c := crlOf m p
  if role m p != 3 || !c.authed || c.outstanding.isSome || decide (c.peer.postcode ≤ ownPostcode m) then m
  else match gf m F.STN_CRL_STATUS_CSTATE (st p) with
    | 4 => sendSession now m p 3 (gf m F.STN_CRL_STATUS_SESSION (st p))
    | 2 => if fstate m p == 1 then m else sendSession now m p 1 (nextId c.prevId)
    | _ => m

/-- R315, R319: FENCE_COMPLETE: what waited for the fence of `p` follows: a port reset, a REJOIN, or a new session. -/
def fenceCompleteAll (p : Nat) (now : Nat) (m : Mach) : Mach := offerSession now (fenceComplete p now m) p

/-- The meaning of FENCE_COMPLETE. -/
def execFenceComplete (p : Nat) (s : State) := onMachW (fenceCompleteAll p) s

end Sys2Proof.Machine
end

