-- ==== Sys2Proof/Machine/Ports.lean ====
section
/-!
DEFINITION. Chapter 12: host and member ports: the sideband lands, training, link states, link-down, rejoin, DPC, timeouts of
members, and viral indications.
-/

namespace Sys2Proof.Machine
open Sys2Proof

/-! ### Port reset (R14, R267, R319) -/

/-- R267: PERST_N of host port `p` changes level. -/
def perstNChange (p : Nat) (low : Bool) (now : Nat) (m : Mach) : Mach :=
  let m := if p < 128 then modPort m p (fun k => { k with perstLow := low }) else m
  if !portExists m p || role m p != 1 then m
  else
    let m := sf m F.STN_LINK_STATUS_PERST (st p) (b2n low)
    if low then sf (portReset now (linkDownOf now m p) p) F.STN_LINK_STATUS_LSTATE (st p) 6
    else sf m F.STN_LINK_STATUS_LSTATE (st p) (if configured m && stationOn m p then 4 else 6)

/-- The meaning of PERST_N_CHANGE. -/
def execPerstNChange (p : Nat) (low : Bool) (s : State) := onMachW (perstNChange p low) s

/-- R14, R276: a link hot reset takes the link down and resets the port's link and transaction state. -/
def hotReset (p : Nat) (now : Nat) (m : Mach) : Mach :=
  if !portExists m p then m
  else if role m p == 3 then linkDownOf now m p
  else portReset now (linkDownOf now m p) p

/-- The meaning of HOT_RESET. -/
def execHotReset (p : Nat) (s : State) := onMachW (hotReset p) s

/-! ### Presence and PERST_N of members (R268) -/

/-- R14, R268, R276: PERST_N of member port `p` is driven low: its link goes down and the port is reset. -/
def memberReset (now : Nat) (m : Mach) (p : Nat) : Mach := portReset now (linkDownOf now (drivePerst now m p true) p) p

/-- R268: a change of PRSNT_N at a member or Courier port has lasted 20 ms. -/
def prsntDebounced (p : Nat) (low : Bool) (now : Nat) (m : Mach) : Mach :=
  let m := if p < 128 then modPort m p (fun k => { k with prsnt := low, presentSince := if low then now + 1 else 0 }) else m
  if !portExists m p || (role m p != 2 && role m p != 3) then m
  else
    let m := setLink now m p F.STN_LINK_STATUS_PRSNT (b2n low)
    if role m p == 2 && !low then memberReset now m p else m

/-- The meaning of PRSNT_DEBOUNCED. -/
def execPrsntDebounced (p : Nat) (low : Bool) (s : State) := onMachW (prsntDebounced p low) s

/-- R268: may the device release PERST_N of member port `p`? -/
def mayRelease (now : Nat) (m : Mach) (p : Nat) : Bool :=
  let k := portOf m p
  portExists m p && role m p == 2 && k.perstOut && k.presentSince != 0 && decide (k.presentSince - 1 + 400000000 ≤ now)
    && configured m && stationOn m p && !gfb m F.STN_PORT_CTL_PERST_ASSERT (st p)

/-- R268: PERST_RELEASE. -/
def perstRelease (p : Nat) (now : Nat) (m : Mach) : Mach :=
  if mayRelease now m p then sf (drivePerst now m p false) F.STN_LINK_STATUS_LSTATE (st p) 4 else m

/-- The meaning of PERST_RELEASE. -/
def execPerstRelease (p : Nat) (s : State) := onMachW (perstRelease p) s

/-- R268: PERST_ASSERT is written; it acts on a member port and is ignored for other roles. -/
def perstAssert (p : Nat) (on : Bool) (now : Nat) (m : Mach) : Mach :=
  let m := sf m F.STN_PORT_CTL_PERST_ASSERT (st p) (b2n on)
  if on && portExists m p && role m p == 2 then sf (memberReset now m p) F.STN_LINK_STATUS_LSTATE (st p) 6 else m

/-- The meaning of PERST_ASSERT. -/
def execPerstAssert (p : Nat) (on : Bool) (s : State) := onMachW (perstAssert p on) s

/-! ### Training (R270, R278) -/

/-- R270: the mode of a partner on port `p`; none where the table does not allow it. -/
def modeFor (m : Mach) (p : Nat) (t : Partner) : Option Nat :=
  let old := gfb m F.STN_PORT_CFG_ALLOW_68B (st p)
  match t.offer, role m p with
  | 0, 1 | 0, 2 => some (if t.lopt && gfb m F.STN_PORT_CFG_LOPT (st p) then 2 else 1)
  | 1, 1 => if old && !gfb m F.TEN_PORT_MODEL_MODEL [p] then some 3 else none
  | 1, 2 => if old then some 3 else none
  | 2, 1 | 2, 2 => some 4
  | 3, 2 => some 5
  | _, _ => none

/-- R270: RATE code at which a port and its partner train. -/
def rateFor (m : Mach) (p : Nat) (t : Partner) : Nat :=
  max 1 (min (min t.rate (gf m F.STN_PORT_CFG_MAX_RATE (st p))) (if t.offer == 1 || t.offer == 3 then 5 else 6))

/-- WIDTH code of a number of lanes. -/
def widthCode (lanes : Nat) : Nat :=
  if lanes ≥ 32 then 6 else if lanes ≥ 16 then 5 else if lanes ≥ 8 then 4 else if lanes ≥ 4 then 3 else if lanes ≥ 2 then 2 else lanes

/-- Lanes of a WIDTH code. -/
def lanesOf (code : Nat) : Nat := if code == 0 then 0 else 2 ^ (code - 1)

/-- Tenths of GT/s of a RATE code. -/
def tenthsOf (code : Nat) : Nat := if code == 1 then 25 else 10 * rateGT code

/-- A port's link stands at a width (R255). -/
def setWidth (m : Mach) (p width : Nat) : Mach :=
  modPort (sf m F.STN_LINK_STATUS_WIDTH (st p) width) p (fun k => { k with lanes := lanesOf width })

/-- A port's link stands at a rate and width (R255). -/
def setSpeed (m : Mach) (p rate width : Nat) : Mach :=
  modPort (setWidth (sf m F.STN_LINK_STATUS_RATE (st p) rate) p width) p (fun k => { k with rate := tenthsOf rate })

/-- LINK_EVT where a link trains narrower or slower than configured. -/
def noteShort (now : Nat) (m : Mach) (p : Nat) (slow : Bool) : Mach :=
  if slow || decide (lanesOf (gf m F.STN_LINK_STATUS_WIDTH (st p)) < cfgWidth m p) then linkEvt m now p else m

/-- R270, R276, R421, R458: nothing keeps host or member port `p` from training. -/
def mayTrain (m : Mach) (p : Nat) : Bool :=
  portExists m p && (role m p == 1 || role m p == 2) && !gfb m F.STN_LINK_STATUS_DL_UP (st p) && configured m && stationOn m p
    && !gfb m F.STN_LINK_STATUS_PERST (st p) && !m.sec.extest

/-- R270, R278, R281: LINK_TRAINED with partner `t`. -/
def linkTrained (p : Nat) (t : Partner) (now : Nat) (m : Mach) : Mach :=
  if !mayTrain m p then m
  else match modeFor m p t with
    | none => linkEvt (sf m F.STN_LINK_STATUS_JOIN_FAIL (st p) 1) now p
    | some mode =>
      let m := setSpeed m p (rateFor m p t) (min t.width (widthCode (cfgWidth m p)))
      let m := sf (sf m F.STN_LINK_STATUS_MODE (st p) mode) F.STN_LINK_STATUS_LSTATE (st p) 0
      let m := sf (sf m F.STN_LINK_STATUS_JOIN_FAIL (st p) 0) F.STN_PORT_CTL_RETRAIN (st p) 0
      let m := modPort m p (fun k => { k with partner := some t, multiLd := t.multi, ideOn := role m p == 2 && t.ide })
      let m := if role m p == 2 && t.ide then
          sf (sf m F.SEC_IDE_STATUS_CM_SECURE [p] 1) F.SEC_IDE_STATUS_LINK_SECURE [p] 1 else m
      let m := setLink now m p F.STN_LINK_STATUS_DL_UP 1
      let m := noteShort now m p (decide (gf m F.STN_LINK_STATUS_RATE (st p) < gf m F.STN_PORT_CFG_MAX_RATE (st p)))
      memberReady now (hostReady now m p) p

/-- The meaning of LINK_TRAINED. -/
def execLinkTrained (p : Nat) (t : Partner) (s : State) := onMachW (linkTrained p t) s

/-- R276: LINK_DOWN: DL_Active is lost at port `p` with its last `n` messages unacknowledged and, it may be, one message
cut short. -/
def linkDown (p n : Nat) (cut : Option (Hdr × Nat × Nat)) (now : Nat) (m : Mach) : Mach :=
  if portExists m p then linkLost now m p (if role m p == 1 then 1 else 2) [p] n cut else m

/-- The meaning of LINK_DOWN. -/
def execLinkDown (p n : Nat) (cut : Option (Hdr × Nat × Nat)) (s : State) := onMachW (linkDown p n cut) s

/-! ### Link states (R275) -/

/-- R275: may the link of port `p` stand in LSTATE `ls` at a rate and width? A Courier link keeps the rate at which it trained (R283), and is in
L0p at 64 GT/s only. -/
def stateAllowed (m : Mach) (p ls rate width : Nat) : Bool :=
  let full := widthCode (cfgWidth m p)
  let min_ := gf m F.STN_PORT_CFG_L0P_MIN (st p)
  let courier := role m p == 3
  let rateOk := if courier then rate == gf m F.STN_LINK_STATUS_RATE (st p) && (ls != 1 || (portOf m p).rate == 640)
    else decide (1 ≤ rate) && decide (rate ≤ gf m F.STN_PORT_CFG_MAX_RATE (st p))
  (ls == 2 || rateOk) && match ls with
  | 0 | 3 | 4 => decide (1 ≤ width) && decide (width ≤ full)
  | 1 => decide (gf m F.STN_LINK_STATUS_MODE (st p) ≠ 3) && decide (gf m F.STN_LINK_STATUS_MODE (st p) ≠ 5) && rate == 6
      && min_ != 0 && decide (min_ ≤ width) && decide (width ≤ full)
  | 2 => role m p == 2
  | _ => false

/-- R275: LINK_STATE_CHANGE: the link of port `p`, still in DL_Active, stands in LSTATE `ls` at RATE and WIDTH codes; a
Courier link keeps its rate (DESIGN CHOICE: log entry 185). -/
def linkStateChange (p ls rate width : Nat) (now : Nat) (m : Mach) : Mach :=
  if !portExists m p || !gfb m F.STN_LINK_STATUS_DL_UP (st p) || !stateAllowed m p ls rate width then m
  else
    let old := gf m F.STN_LINK_STATUS_LSTATE (st p)
    let m := sf (if ls == 2 then m else if role m p == 3 then setWidth m p width else setSpeed m p rate width) F.STN_LINK_STATUS_LSTATE (st p) ls
    if ls == 0 && (old == 3 || old == 4) then
      noteShort now (sf m F.STN_PORT_CTL_RETRAIN (st p) 0) p (role m p != 3 && decide (rate < gf m F.STN_PORT_CFG_MAX_RATE (st p)))
    else m

/-- The meaning of LINK_STATE_CHANGE. -/
def execLinkStateChange (p ls rate width : Nat) (s : State) := onMachW (linkStateChange p ls rate width) s

/-- R275: L0P_REQUEST: L0P_REQ of port `p` is written; the link follows by LINK_STATE_CHANGE. A reserved code is undefined
(R7). -/
def execL0pRequest (p code : Nat) (s : State) : Host.Outcome State Fault Refusal :=
  if 5 ≤ code then .fault (.reservedWrite (regAddr Reg.STN_PORT_CTL (st p)))
  else .next { s with m := sf s.m F.STN_PORT_CTL_L0P_REQ (st p) code }

/-- R276: RETRAIN starts recovery without link-down. -/
def retrain (p : Nat) (_now : Nat) (m : Mach) : Mach :=
  let m := sf m F.STN_PORT_CTL_RETRAIN (st p) 1
  if gfb m F.STN_LINK_STATUS_DL_UP (st p) then sf m F.STN_LINK_STATUS_LSTATE (st p) 3 else m

/-- The meaning of RETRAIN. -/
def execRetrain (p : Nat) (s : State) := onMachW (retrain p) s

/-! ### Containment and return of members (R278-R280) -/

/-- R279: REJOIN of member port `p`: ignored while the port is READY, kept until the link is up and the fence complete. -/
def rejoin (p : Nat) (now : Nat) (m : Mach) : Mach :=
  if !portExists m p || role m p != 2 || gfb m F.STN_LINK_STATUS_READY (st p) then m
  else memberReady now (sf m F.STN_PORT_CTL_REJOIN (st p) 1) p

/-- The meaning of REJOIN. -/
def execRejoin (p : Nat) (s : State) := onMachW (rejoin p) s

/-- R279: the owner of the vPPB clears DPC Trigger Status, which acts as a REJOIN. -/
def dpcTriggerStatusClear (p : Nat) (now : Nat) (m : Mach) : Mach := if contained m p then rejoin p now m else m

/-- The meaning of DPC_TRIGGER_STATUS_CLEAR. -/
def execDpcTriggerStatusClear (p : Nat) (s : State) := onMachW (dpcTriggerStatusClear p) s

/-- R279: an uncorrectable error at member port `p`, reported by the message postmarked (tick, p, slot); `dpc` says that the
member vPPB's DPC Control selects it. -/
def dpcUncorrectable (p tick slot : Nat) (dpc : Bool) (now : Nat) (m : Mach) : Mach :=
  if !portExists m p || role m p != 2 then m
  else
    let pm : Postmark := ⟨tick48 tick, p, slot % 16⟩
    let m := portError now m p pm (portPostcode m p)
    if dpc then placeFence now m p 3 pm else m

/-- The meaning of DPC_UNCORRECTABLE. -/
def execDpcUncorrectable (p tick slot : Nat) (dpc : Bool) (s : State) := onMachW (dpcUncorrectable p tick slot dpc) s

/-- R280: the tick at which MEM_TO of port `p` first expires for a member request outstanding there. -/
def memExpiry (m : Mach) (p : Nat) : Option Nat :=
  let l := (m.home.slices.map (fun s => (s.2.accesses.filter (fun a => a.port == p && !accessUnsent m s.1 p a)).map (·.since))).flatten
  (lbest (fun a b => decide (a < b)) l).map (· + 4000000 * gf m F.STN_PORT_CFG_MEM_TO (st p))

/-- R280: MEM_TIMEOUT: a CXL.mem request at member port `p` has had no response for MEM_TO ms. -/
def memTimeout (p : Nat) (now : Nat) (m : Mach) : Mach :=
  if !portExists m p || role m p != 2 || gf m F.STN_PORT_CFG_MEM_TO (st p) == 0 then m
  else match memExpiry m p with
    | none => m
    | some t => if t ≤ now then placeFence now m p 4 (fencePm p t) else m

/-- The meaning of MEM_TIMEOUT. -/
def execMemTimeout (p : Nat) (s : State) := onMachW (memTimeout p) s

/-- R274: a viral indication at port `p`, in the message postmarked (tick, p, slot). -/
def viralIndication (p tick slot : Nat) (now : Nat) (m : Mach) : Mach :=
  if !portExists m p || (role m p != 1 && role m p != 2) || !gfb m F.STN_LINK_STATUS_DL_UP (st p) then m
  else
    let pm : Postmark := ⟨tick48 tick, p, slot % 16⟩
    let m := portError now m p pm (portPostcode m p)
    let d := gf m F.STN_PORT_CFG_VIRAL_DOM (st p)
    if d == 0 then placeFence now m p 8 pm
    else ((List.range 128).filter (fun q => portExists m q && (role m q == 1 || role m q == 2)
        && gf m F.STN_PORT_CFG_VIRAL_DOM (st q) == d)).foldl (fun m q => modPort m q (fun k => { k with viral := true })) m

/-- The meaning of VIRAL_INDICATION. -/
def execViralIndication (p tick slot : Nat) (s : State) := onMachW (viralIndication p tick slot) s

end Sys2Proof.Machine
end

