-- ==== Sys2Proof/Machine/Courier.lean ====
section
/-!
DEFINITION. Chapter 13: Courier links: bring-up and admission, flits, retry, sessions, and the Fabric Time exchange.
-/

namespace Sys2Proof.Machine
open Sys2Proof

/-! ### Admission (R283-R285, R452) -/

/-- R284: the first check that peer `t` fails, as ADMIT_FAIL codes it; 0 for none. -/
def admitCheck (m : Mach) (p : Nat) (t : CourierPeer) : Nat :=
  let own := gf m F.MBX_FW_INFO_RUN_COURIER
  let ide := gfb m F.STN_CRL_CFG_IDE_REQ (st p) || t.ideReq
  if !t.chain0 || (gfb m F.SEC_OWNER_OWNER && !t.chain1) || !t.production || gf m F.SEC_LIFECYCLE_STATE == 3 then 1
  else if t.postcode == ownPostcode m then 2
  else if t.postcode % 4096 < 4080 then 3
  else if t.ver < m.fw.oldest || m.fw.newest < t.ver || own < t.oldest || t.newest < own then 4
  else if ide && !t.ideOk then 5
  else 0

/-- R61, R284: a failed admission: the link stays out of service. A held session stays held. The log entry has the peer's postcode in SRC and
the device's own in its second DETAIL word (DESIGN CHOICE: log entry 174). -/
def admitFail (now : Nat) (m : Mach) (p code peer : Nat) : Mach :=
  let m := ackEvent (sf m F.STN_CRL_STATUS_ADMIT_FAIL (st p) code) F.STN_CRL_STATUS_CRL_EVT (st p)
  let m := if gf m F.STN_CRL_STATUS_CSTATE (st p) == 4 then m else setCstate m p 5
  let m := rasLog m now 0x16 2 p pmNone 0 0 0 peer code (ownPostcode m)
  courierEvent now (modCrl m p (fun c => { c with authed := false, admitAt := now })) p false peer

/-- R283 steps 3 to 5, R305: the peer is checked, IDE keys are established, and a session is resumed or opened. -/
def admitSession (now : Nat) (m : Mach) (p : Nat) (t : CourierPeer) : Mach :=
  let c := admitCheck m p t
  if c != 0 then admitFail now m p c t.postcode
  else
    let m := sf m F.STN_CRL_STATUS_ADMIT_FAIL (st p) 0
    let m := sf m F.STN_CRL_STATUS_IDE_ON (st p) (b2n (gfb m F.STN_CRL_CFG_IDE_REQ (st p) || t.ideReq))
    let m := modCrl m p (fun c => { c with
      authed := true, groups := 0, peer := { c.peer with postcode := t.postcode, ver := t.ver, oldest := t.oldest, newest := t.newest } })
    let held := gf m F.STN_CRL_STATUS_CSTATE (st p) == 4
    let m := if held && (!t.same || (!(crlOf m p).resumable && decide (ownPostcode m < t.postcode))) then endSession now m p
      else if held then m else setCstate m p 2
    offerSession now m p

/-- R283: COURIER_BRINGUP of port `p` with peer `t`: training, admission and the SESSION OPEN. -/
def courierBringup (p : Nat) (t : CourierPeer) (now : Nat) (m : Mach) : Mach :=
  if !portExists m p || role m p != 3 || gfb m F.STN_LINK_STATUS_DL_UP (st p) || !configured m || !stationOn m p
      || !gfb m F.STN_LINK_STATUS_PRSNT (st p) || m.sec.extest then m
  else
    let held := gf m F.STN_CRL_STATUS_CSTATE (st p) == 4
    let m := if held then m else setCstate m p 1
    if !t.offers then admitFail now m p 6 t.postcode
    else
      let both := gfb m F.STN_CRL_CFG_RATE128 (st p) && t.rate128
      let fast := both && t.eqOk
      let m := sf m F.STN_CRL_STATUS_RATE_FALLBACK (st p) (b2n (both && !t.eqOk))
      let width := min t.width (widthCode (cfgWidth m p))
      let m := setSpeed m p 6 width
      -- the spec codes no 128 GT/s in RATE
      let (v, m) := if fast then takeFree m else (6, m)
      let m := sf m F.STN_LINK_STATUS_RATE (st p) (v.toNat % 16)
      let m := modPort m p (fun k => { k with rate := if fast then 1280 else 640 })
      let m := setLink now (sf m F.STN_LINK_STATUS_LSTATE (st p) 0) p F.STN_LINK_STATUS_DL_UP 1
      admitSession now (noteShort now m p (both && !t.eqOk)) p t

/-- The meaning of COURIER_BRINGUP. -/
def execCourierBringup (p : Nat) (t : CourierPeer) (s : State) := onMachW (courierBringup p t) s

/-- R284: ADMISSION_RETRY: a trained link that failed admission tries again from step 3, 1 s later. -/
def admissionRetry (p : Nat) (t : CourierPeer) (now : Nat) (m : Mach) : Mach :=
  let c := crlOf m p
  if portExists m p && role m p == 3 && gfb m F.STN_LINK_STATUS_DL_UP (st p) && !c.authed
      && gf m F.STN_CRL_STATUS_ADMIT_FAIL (st p) != 0 && decide (c.admitAt + 4000000000 ≤ now) then
    admitSession now (if gf m F.STN_CRL_STATUS_CSTATE (st p) == 4 then m else setCstate m p 2) p t
  else m

/-- The meaning of ADMISSION_RETRY. -/
def execAdmissionRetry (p : Nat) (t : CourierPeer) (s : State) := onMachW (admissionRetry p t) s

/-! ### Sessions (R299, R302-R306) -/

/-- R299: a SESSION flit shows the peer's postcode, version and time direction. -/
def noteSession (now : Nat) (m : Mach) (p : Nat) (f : SessionFlit) : Mach :=
  let m := sf (sf m F.STN_CRL_PEER_PEER (st p) f.postcode) F.STN_CRL_PEER_PEER_VER (st p) f.ver
  let m := modCrl m p (fun c => { c with peer := f })
  let own := gf m F.STN_CRL_CFG_TIME_DIR (st p)
  let pair := (own == 1 && f.timeDir == 2) || (own == 2 && f.timeDir == 1) || (own == 0 && f.timeDir == 0)
  if pair then sf m F.STN_CRL_TIME_MISMATCH (st p) 0
  else if gfb m F.STN_CRL_TIME_MISMATCH (st p) then m
  else courierEvent now (sf m F.STN_CRL_TIME_MISMATCH (st p) 1) p true f.postcode

/-- R312: the HOST_REMOVED notices kept for homes that are reached over port `p` are sent again. -/
def resendNotices (now : Nat) (m : Mach) (p : Nat) : Mach :=
  let toward (d : Nat) : Bool := route m (ownPostcode m) d none 0 == .port p
  let due := m.home.noticesDue.filter (fun n => toward n.1)
  let m := { m with home := { m.home with noticesDue := m.home.noticesDue.filter (fun n => !due.contains n) } }
  due.foldl (fun m n =>
    let (pm, m) := internalPm m 144 (tick48 now)
    sendNew now m (hostRemovedMsg m n.2 n.1 pm)) m

/-- R277, R324: READY of a Courier port: a session is open and start-up has reached step 8. -/
def courierReady (now : Nat) (m : Mach) (p : Nat) : Mach :=
  setLink now m p F.STN_LINK_STATUS_READY (b2n (gf m F.STN_CRL_STATUS_CSTATE (st p) == 3 && started m))

/-- R295, R302, R319: a new session opens: sequences and credits start again, and the fence of the last one is gone. -/
def openSession (now : Nat) (m : Mach) (p : Nat) (f : SessionFlit) : Mach :=
  let m := modCrl m p (fun c => { c with
    txSeq := 0, ackNext := 0, rxSeq := 0, retry := [], nakSent := false, replayAt := 0, lostTo := 0, replays := 0, replayFrom := 0,
    creds := (List.range 8).map (fun k => f.credits.getD k 0), cumIn := [0, 0, 0, 0, 0, 0, 0, 0], outstanding := none,
    holdFrom := 0, holdExt := 0, resumable := true, prevId := f.id, open_ := [], exOpen := false, exAt := now, good := 0 })
  let m := { m with sof := { m.sof with credits := (List.range 8).foldl (fun t c => tset 0 t (16 * p + c) 0) m.sof.credits } }
  let m := sf (sf m F.STN_CRL_STATUS_SESSION (st p) f.id) F.STN_CRL_STATUS_IDE_FAIL (st p) 0
  let m := setLink now (sf m F.RAS_FENCE_FSTATE [p] 0) p F.STN_LINK_STATUS_CONTAINED 0
  resendNotices now (courierReady now (setCstate m p 3) p) p

/-- The port takes SESSION flits: its link is up and its peer has been admitted. -/
def takesSession (m : Mach) (p : Nat) : Bool :=
  portExists m p && role m p == 3 && gfb m F.STN_LINK_STATUS_DL_UP (st p) && (crlOf m p).authed

/-- R303: SESSION_OPEN from the lower-postcode end. A session still held or open ends first, and the OPEN is taken when it
comes again after the fence. -/
def sessionOpen (p : Nat) (f : SessionFlit) (now : Nat) (m : Mach) : Mach :=
  if !takesSession m p || decide (ownPostcode m ≤ f.postcode) || f.id == 0 then m
  else
    let m := noteSession now m p f
    match gf m F.STN_CRL_STATUS_CSTATE (st p) with
    | 2 => if fstate m p == 1 then m else sendSession now (openSession now m p f) p 2 f.id
    | 3 => if gf m F.STN_CRL_STATUS_SESSION (st p) == f.id then sendSession now m p 2 f.id else endSession now m p
    | 4 => endSession now m p
    | _ => m

/-- The meaning of SESSION_OPEN. -/
def execSessionOpen (p : Nat) (f : SessionFlit) (s : State) := onMachW (sessionOpen p f) s

/-- The SESSION flit with OP `op` that awaits the answer `f`. -/
def answers (m : Mach) (p op : Nat) (f : SessionFlit) : Bool :=
  takesSession m p && ((crlOf m p).outstanding).any (fun o => o.op == op && o.id == f.id)

/-- R303: SESSION_OPEN_ACK answers the OPEN, and the link is admitted. -/
def sessionOpenAck (p : Nat) (f : SessionFlit) (now : Nat) (m : Mach) : Mach :=
  if answers m p 1 f && gf m F.STN_CRL_STATUS_CSTATE (st p) == 2 && fstate m p != 1 then openSession now (noteSession now m p f) p f
  else m

/-- The meaning of SESSION_OPEN_ACK. -/
def execSessionOpenAck (p : Nat) (f : SessionFlit) (s : State) := onMachW (sessionOpenAck p f) s

/-- R288: the sender learns that every sequenced flit before `next` has been received in order. -/
def ackTo (m : Mach) (p next : Nat) : Mach :=
  modCrl m p (fun c =>
    let d := (next + 4096 - c.ackNext) % 4096
    if d == 0 || d > (c.txSeq + 4096 - c.ackNext) % 4096 then c
    else { c with
      ackNext := next % 4096, replays := 0,
      retry := c.retry.filter (fun r => decide (d ≤ (r.1 + 4096 - c.ackNext) % 4096)) })

/-- R305: the session of port `p` continues: the peer expects `next`. -/
def resume (now : Nat) (m : Mach) (p next : Nat) : Mach :=
  let m := ackTo m p next
  let m := modCrl m p (fun c => { c with holdFrom := 0, holdExt := 0, outstanding := none, nakSent := false, replayAt := 0, lostTo := 0 })
  courierReady now (setCstate m p 3) p

/-- R305: the end of the hold interval of port `p`. -/
def holdEnd (m : Mach) (p : Nat) : Nat := (crlOf m p).holdFrom - 1 + holdTicks m p

/-- R305: SESSION_RESUME from the lower-postcode end: answered RESUME_ACK, or REFUSE where the resume fails. -/
def sessionResume (p : Nat) (f : SessionFlit) (now : Nat) (m : Mach) : Mach :=
  if !takesSession m p || decide (ownPostcode m ≤ f.postcode) then m
  else
    let m := noteSession now m p f
    let held := gf m F.STN_CRL_STATUS_CSTATE (st p) == 4
    if held && gf m F.STN_CRL_STATUS_SESSION (st p) == f.id && (crlOf m p).resumable && decide (now < holdEnd m p) then
      resume now (sendSession now m p 4 f.id) p f.next
    else if gf m F.STN_CRL_STATUS_CSTATE (st p) == 3 && gf m F.STN_CRL_STATUS_SESSION (st p) == f.id then sendSession now m p 4 f.id
    else
      let m := sendSession now m p 5 f.id
      if held then endSession now m p else m

/-- The meaning of SESSION_RESUME. -/
def execSessionResume (p : Nat) (f : SessionFlit) (s : State) := onMachW (sessionResume p f) s

/-- R305: SESSION_RESUME_ACK within the hold interval: both ends replay their retry buffers and continue. -/
def sessionResumeAck (p : Nat) (f : SessionFlit) (now : Nat) (m : Mach) : Mach :=
  if answers m p 3 f && gf m F.STN_CRL_STATUS_CSTATE (st p) == 4 && decide (now < holdEnd m p) then resume now (noteSession now m p f) p f.next
  else m

/-- The meaning of SESSION_RESUME_ACK. -/
def execSessionResumeAck (p : Nat) (f : SessionFlit) (s : State) := onMachW (sessionResumeAck p f) s

/-- R305: SESSION_REFUSE: the held session ends, and a new one is opened once its fence is complete. -/
def sessionRefuse (p : Nat) (f : SessionFlit) (now : Nat) (m : Mach) : Mach :=
  if answers m p 3 f && gf m F.STN_CRL_STATUS_CSTATE (st p) == 4 then
    let m := sf (sf m F.STN_CRL_PEER_PEER (st p) f.postcode) F.STN_CRL_PEER_PEER_VER (st p) f.ver
    offerSession now (endSession now m p) p
  else m

/-- The meaning of SESSION_REFUSE. -/
def execSessionRefuse (p : Nat) (f : SessionFlit) (s : State) := onMachW (sessionRefuse p f) s

/-- R303: SESSION_RESEND: an unanswered SESSION flit is sent again 64 ticks after it was last sent. -/
def sessionResend (p : Nat) (now : Nat) (m : Mach) : Mach :=
  match (crlOf m p).outstanding with
  | none => m
  | some f => if (crlOf m p).lastSent + 64 ≤ now then modCrl m p (fun c => { c with sent := c.sent ++ [f], lastSent := now }) else m

/-- The meaning of SESSION_RESEND. -/
def execSessionResend (p : Nat) (s : State) := onMach (sessionResend p) s

/-- R305: HOLD_EXPIRY: a hold interval that ends without a resume ends the session. -/
def holdExpiry (p : Nat) (now : Nat) (m : Mach) : Mach :=
  if gf m F.STN_CRL_STATUS_CSTATE (st p) == 4 && decide (holdEnd m p ≤ now) then offerSession now (endSession now m p) p else m

/-- The meaning of HOLD_EXPIRY. -/
def execHoldExpiry (p : Nat) (s : State) := onMachW (holdExpiry p) s

/-! ### Flits (R286-R290, R294-R297, R301) -/

/-- R289: the first failure at a position sends a NAK; another follows only 64 ticks after the replay has begun to arrive. -/
def flitFailed (now : Nat) (m : Mach) (p : Nat) (f : CourierFlit) : Mach :=
  let c := crlOf m p
  let begun := c.nakSent && f.seq == c.rxSeq
  let m := modCrl m p (fun c => { c with lostTo := f.seq % 4096 + 1 })
  let m := if begun && c.replayAt == 0 then modCrl m p (fun c => { c with replayAt := now + 1 }) else m
  if c.nakSent && !(c.replayAt != 0 && decide (c.replayAt - 1 + 64 ≤ now)) then m
  else modCrl m p (fun c => { c with nakSent := true, replayAt := 0, nakOut := c.nakOut ++ [(c.rxSeq + 4095) % 4096] })

/-- R294: the message is the one that a VOID envelope names. -/
def isVoided (v : Word × Nat × Nat) (h : Hdr) : Bool := h.sentPm == v.1 && h.src == v.2.1 && h.dst == v.2.2

/-- R294: parts of a voided CXL.io request that have been split off to home slices and are not confirmed end with it (DEDUCED: log entry
186). -/
def voidSplit (m : Mach) (mine : Msg → Bool) : Mach :=
  { m with
    sof := { m.sof with transit := m.sof.transit.filter (fun t => !mine t.msg) }
    home := { m.home with
      splits := m.home.splits.filter (fun k => !mine k.msg)
      slices := m.home.slices.map (fun s => (s.1, { s.2 with items := s.2.items.filter (fun i => !(i.conf == 0 && mine i.msg)) })) } }

/-- R294: a VOID for a message of an earlier flit: the message is completed into the discard sink, and a copy that has begun
to leave ends with a nullify; a VOID that matches none is discarded and logged. -/
def voidEarlier (now p : Nat) (m : Mach) (v : Word × Nat × Nat) : Mach :=
  let mine (x : Msg) : Bool := x.att == p && isVoided v x.h
  if m.home.splits.any (fun k => mine k.msg) then voidSplit m mine else
  let going := (List.range 128).filter (fun q => (egOf m q).leaving.any (fun l => mine l.e.msg))
  let waiting := (m.sof.queues.map (fun q => ((q.2.sorting ++ q.2.settled).filter (fun e => mine e.msg)).map (fun e => (q.1 / 32, e)))).flatten
  match m.sof.transit.find? (fun t => mine t.msg && t.phase != .admitted && t.phase != .sink) with
  | some t =>
    let m := onAdmitted m t.msg
    rdClose (if t.got.length ≥ t.msg.n then dropTransit m t.key else setPhase m t.key .sink) now t.msg.pm
  | none =>
    if going.isEmpty && waiting.isEmpty then rasLog m now 0x16 2 p pmNone 0 0 0 v.2.1 (0x01 * 256)
    else
      let m := waiting.foldl (fun m e => releaseEntry m e.1 e.2) m
      going.foldl (fun m q => match (egOf m q).leaving with
        | some l =>
          let m := modEg m q (fun g => { g with leaving := none })
          let m := dropRef (sinkRest m l.e.key l.e.msg.n) l.e.key
          nullify now q l.e.msg m
        | none => m) m

/-- R33, R294: the messages of a released flit that arrived at `tick`, in order, and its VOID envelopes. -/
def takeStream (now p : Nat) (m : Mach) (g : Nat × List Hdr × List (Word × Nat × Nat)) : Mach :=
  let m := ((List.range g.2.1.length).zip g.2.1).foldl (fun m z =>
    let (n, h) := z
    let m := modPort m p (fun k => { k with lastTick := max k.lastTick (g.1 + n / 16) })
    let x := ingressMsg m p (portPm p (tick48 g.1) n) h
    if g.2.2.any (fun v => isVoided v h) then discardCredit (onPostmark m now x) x else accept now (onPostmark m now x) x) m
  (g.2.2.filter (fun v => !g.2.1.any (isVoided v))).foldl (voidEarlier now p) m

/-- R301: a tag that fails takes the link down; its session cannot be resumed. -/
def ideFail (now : Nat) (m : Mach) (p : Nat) : Mach :=
  let m := modCrl (sf m F.STN_CRL_STATUS_IDE_FAIL (st p) 1) p (fun c => { c with resumable := false, open_ := [] })
  let m := rasLog m now 0x16 2 p pmNone 0 0 0 (crlOf m p).peer.postcode 16
  linkDownOf now (courierEvent now m p false (crlOf m p).peer.postcode) p

/-- R289, R301: a sequenced flit in its place: under IDE it waits for the tag that closes its group. -/
def takeSequenced (now : Nat) (m : Mach) (p : Nat) (f : CourierFlit) : Mach :=
  let m := modCrl m p (fun c => { c with
    rxSeq := (c.rxSeq + 1) % 4096, nakSent := false, replayAt := 0, lostTo := if c.lostTo == c.rxSeq + 1 then 0 else c.lostTo,
    -- a TIME message that a retry has delayed abandons its exchange (R298)
    exOpen := c.exOpen && !(c.lostTo != 0 && f.msgs.any (fun h => h.kind == .time)) })
  if !gfb m F.STN_CRL_STATUS_IDE_ON (st p) then takeStream now p m (now, f.msgs, f.voids)
  else
    let m := modCrl m p (fun c => { c with open_ := c.open_ ++ [(now, f.msgs, f.voids)] })
    if f.kind != 2 then m
    else if !f.tagOk then ideFail now m p
    else
      let gs := (crlOf m p).open_
      gs.foldl (takeStream now p) (modCrl m p (fun c => { c with open_ := [], groups := c.groups + 1 }))

/-- R298: the leader answers a TSLOT with the same TSLOT, and with t2 and t3 in a TIME message; the follower notes t4. -/
def takeTslot (now : Nat) (m : Mach) (p : Nat) (f : CourierFlit) : Mach :=
  if f.tslot == 0 || gfb m F.STN_CRL_TIME_MISMATCH (st p) then m
  else
    let t := now * 16 + f.sub % 16
    match gf m F.STN_CRL_CFG_TIME_DIR (st p) with
    | 2 =>
      let peer := (crlOf m p).peer.postcode
      let m := modCrl m p (fun c => { c with tslotOut := c.tslotOut ++ [f.tslot] })
      let (pm, m) := internalPm m 144 (tick48 now)
      let x : Msg := { h := { kind := .time, aop := f.tslot, operand := t, compare := t + f.gap, src := ownPostcode m, dst := peer, mc := 7, sc := 3 },
                       pm := pm, mc := 7, sc := 3, src := ownPostcode m, dst := peer, att := 148, n := 1 }
      enter now (onPostmark m now x [p]) x (.egress p)
    | 1 => if (crlOf m p).exOpen && (crlOf m p).exN == f.tslot then modCrl m p (fun c => { c with exT4 := t }) else m
    | _ => m

/-- R286, R295, R297: what every good flit carries in its header and LINK_CTL. -/
def takeLinkCtl (now : Nat) (m : Mach) (p : Nat) (f : CourierFlit) : Mach :=
  let m := sf m F.STN_CRL_STATUS_PEER_LAG (st p) f.markDelta
  if gf m F.STN_CRL_STATUS_CSTATE (st p) != 3 then m
  else
    let m := ackTo m p ((f.ack + 1) % 4096)
    let m := modCrl m p (fun c =>
      let d := (f.crCum + 8192 - c.cumIn.getD f.crClass 0) % 8192
      { c with creds := lmod (· + d) c.creds f.crClass, cumIn := lmod (fun _ => f.crCum % 8192) c.cumIn f.crClass })
    takeTslot now m p f

/-- R297: MARK_DELTA of a flit that port `p` begins: how far the TICK of its oldest queued message lies back. -/
def markDelta (now : Nat) (m : Mach) (p : Nat) : Nat :=
  match ((List.range 8).map (fun c => (pairEntries m p c).map (fun e => e.msg.pm.tick))).flatten with
  | [] => 0
  | t :: ts => min 255 ((tick48 now + 2 ^ 48 - ts.foldl earlierTick t) % 2 ^ 48 / 16)

/-- R286, R295, R297: ACK and LINK_CTL of a flit that port `p` begins, with the credits of class `c`. -/
def linkCtlOut (now : Nat) (m : Mach) (p c : Nat) : CourierFlit :=
  { kind := 0, ack := ((crlOf m p).rxSeq + 4095) % 4096, tslot := ((crlOf m p).tslotOut.getLast?).getD 0, markDelta := markDelta now m p,
    crClass := c, crCum := tget 0 m.sof.credits (16 * p + c) % 8192 }

/-- R285, R287: COURIER_FLIT_RECEIVE at port `p`. -/
def courierFlitReceive (p : Nat) (f : CourierFlit) (now : Nat) (m : Mach) : Mach :=
  if !portExists m p || role m p != 3 || !gfb m F.STN_LINK_STATUS_DL_UP (st p) then m
  else
    let session := gf m F.STN_CRL_STATUS_CSTATE (st p) == 3
    let sequenced := f.kind == 1 || f.kind == 2
    if !f.ok || 5 ≤ f.kind then (if session && (sequenced || 5 ≤ f.kind) then flitFailed now m p f else m)
    else
      let m := takeLinkCtl now m p f
      if !sequenced then m
      else if session then (if f.seq == (crlOf m p).rxSeq then takeSequenced now m p f
        else if (crlOf m p).nakSent then modCrl m p (fun c => { c with lostTo := f.seq % 4096 + 1 }) else m)
      else (f.msgs.filter (fun h => h.kind != .mgmt)).foldl (fun m h =>
        rasLog m now 0x16 2 p pmNone 0 0 0 h.src (opcodeOf h.kind * 256)) m

/-- The meaning of COURIER_FLIT_RECEIVE. -/
def execCourierFlitReceive (p : Nat) (f : CourierFlit) (s : State) := onMachW (courierFlitReceive p f) s

/-- R397 event 0x080: the sequenced flits not yet acknowledged are replayed. -/
def countReplay (now : Nat) (m : Mach) (p : Nat) : Mach :=
  count m now 0x80 (((crlOf m p).txSeq + 4096 - (crlOf m p).ackNext) % 4096) { ports := [p] }

/-- R289, R290: NAK_RECEIVE: the sender replays from the flit after `ack`. -/
def nakReceive (p ack : Nat) (now : Nat) (m : Mach) : Mach :=
  if !portExists m p || role m p != 3 || gf m F.STN_CRL_STATUS_CSTATE (st p) != 3 then m
  else
    let m := countReplay now (satInc (ackTo m p ((ack + 1) % 4096)) F.STN_CRL_RETRY_REPLAYS (st p)) p
    modCrl m p (fun c =>
      let pos := (ack + 1) % 4096
      { c with replays := if c.replayFrom == pos && c.replays != 0 then c.replays + 1 else 1, replayFrom := pos })

/-- The meaning of NAK_RECEIVE. -/
def execNakReceive (p ack : Nat) (s : State) := onMach (nakReceive p ack) s

/-- R290: COURIER_RECOVERY: four replays from one position have made no progress. A Recovery that fails takes the link down. -/
def courierRecovery (p : Nat) (ok : Bool) (now : Nat) (m : Mach) : Mach :=
  if !portExists m p || role m p != 3 || gf m F.STN_CRL_STATUS_CSTATE (st p) != 3 || (crlOf m p).replays < 4 then m
  else
    let m := ackEvent (modCrl m p (fun c => { c with replays := 0 })) F.STN_CRL_RETRY_RECOVER (st p)
    if ok then countReplay now m p else linkDownOf now m p

/-- The meaning of COURIER_RECOVERY. -/
def execCourierRecovery (p : Nat) (ok : Bool) (s : State) := onMachW (courierRecovery p ok) s

/-- R301: IDE_KEY_UPDATE: the keys of a Courier link in session are renewed. -/
def ideKeyUpdate (p : Nat) (_now : Nat) (m : Mach) : Mach :=
  if role m p == 3 && gfb m F.STN_CRL_STATUS_IDE_ON (st p) then modCrl m p (fun c => { c with groups := 0 }) else m

/-- The meaning of IDE_KEY_UPDATE. -/
def execIdeKeyUpdate (p : Nat) (s : State) := onMach (ideKeyUpdate p) s

/-! ### Fabric Time exchange (R298-R300) -/

/-- R298: TIME_EXCHANGE: the follower on port `p` sends a flit with TSLOT n whose last bit leaves in sixteenth `sub`. -/
def timeExchange (p sub : Nat) (now : Nat) (m : Mach) : Mach :=
  let c := crlOf m p
  if role m p == 3 && gf m F.STN_CRL_STATUS_CSTATE (st p) == 3 && gf m F.STN_CRL_CFG_TIME_DIR (st p) == 1
      && !gfb m F.STN_CRL_TIME_MISMATCH (st p) && decide (c.exAt + 65536 ≤ now) then
    let n := c.exN % 255 + 1
    modCrl m p (fun c => { c with
      exN := n, exT1 := now * 16 + sub % 16, exT4 := 0, exOpen := true, exAt := now, tslotOut := c.tslotOut ++ [n] })
  else m

/-- The meaning of TIME_EXCHANGE. -/
def execTimeExchange (p sub : Nat) (s : State) := onMach (timeExchange p sub) s

/-- A 16-bit field as a signed number. -/
def signed16 (v : Nat) : Int := if v < 2 ^ 15 then (v : Int) else (v : Int) - 2 ^ 16

/-- R298 step 5: the follower's offset in sixteenths of a tick. -/
def offsetOf (t1 t2 t3 t4 : Nat) (asym : Int) : Int := (((t2 : Int) - t1) + ((t3 : Int) - t4)) / 2 - asym

/-- R300: what a completed exchange with offset `o` shows in STNss_CRL_TIME. -/
def noteOffset (m : Mach) (p : Nat) (o : Int) : Mach :=
  let m := modCrl m p (fun c => { c with exOpen := false, good := if -64 ≤ o && o ≤ 64 then min 16 (c.good + 1) else 0 })
  let m := sf m F.STN_CRL_TIME_OFFSET (st p) (o % 2 ^ 32).toNat
  let m := sf m F.STN_CRL_TIME_SYNCED (st p) (b2n ((crlOf m p).good == 16))
  sf m F.STN_CRL_TIME_FAR (st p) (b2n (started m && (o < -64000 || 64000 < o)))

/-- R29, R298, R300: TIME, transit `i`: the follower receives t2 and t3, computes its offset, and slews; before step 8
after a cold reset the first completed exchange loads Fabric Time. -/
def execTime (i : Nat) (s : State) : Host.Outcome State Fault Refusal :=
  match s.m.sof.transit[i]? with
  | none => .next s
  | some t =>
    if t.tgt != .postmaster || t.msg.h.kind != .time || t.got.length < t.msg.n then .next s
    else
      let m := onAdmitted (dropTransit s.m t.key) t.msg
      let p := t.msg.att
      let c := crlOf m p
      if !c.exOpen || c.exT4 == 0 || c.exN != t.msg.h.aop || gf m F.STN_CRL_CFG_TIME_DIR (st p) != 1 then .next { s with m := m }
      else
        let o := offsetOf c.exT1 t.msg.h.operand t.msg.h.compare c.exT4 (signed16 (gf m F.STN_CRL_CFG_ASYM (st p)))
        let m := noteOffset m p o
        if !s.time.locked && !started m && !c.loaded then
          .next { s with m := modCrl m p (fun c => { c with loaded := true }),
                         time := { s.time with now := BitVec.ofInt 64 (s.time.now.toNat + o / 16), slew := 0 } }
        else if gfb m F.FTM_CTL_PPS_EN then .next { s with m := m }
        else .next { s with m := m, time := { s.time with slew := o * 625 } }

end Sys2Proof.Machine
end

