-- ==== Sys2Proof/Machine/Checks.lean ====
section
/-!
DEFINITION. The register map as software addresses it (R8-R11), amendment items (R339, R340), and the checks of a set or an
image (R342, R343).
-/

namespace Sys2Proof.Machine
open Sys2Proof

/-! ### Amendment items (R339, R340) -/

/-- R249: the address is a word of a valid rule with LOCK set. -/
def lockedRuleWord (m : Mach) (addr : Nat) : Bool :=
  0x7100000 ≤ addr && addr < 0x7100000 + 32 * 16384
    && (let i := (addr - 0x7100000) / 32
        gfb m F.GRD_RULE_BASE_VALID [i] && gfb m F.GRD_RULE_BASE_SPACE [i] && gfb m F.GRD_RULE_MATCH_LOCK [i])

/-- R340: may an item be amended? -/
def amendable (m : Mach) (a : AmdItem) : Bool :=
  let block := a.addr / 2 ^ 24
  if block == 0x0C || block == 0x0D || block == 0x0E || block == 0x0F then false
  else if a.addr == Reg.FTM_NOW.base || a.addr == Reg.FTM_LOAD.base || a.addr == Reg.GLB_RESET.base then false
  else match regFind a.addr with
    | none => false
    | some (r, _) =>
      let open_ := r.rw ||| r.w1s ||| r.wo
      (a.mask.toNat &&& open_) == a.mask.toNat
        && !(r.base == Reg.INL_CTL.base && bitAt a.mask.toNat F.INL_CTL_REARM.lo)
        && !lockedRuleWord m a.addr

/-- R339: a register's word after an item, for the bits that hold what is written to them. -/
def itemWord (m : Mach) (a : AmdItem) : Option (RegDef × List Nat × Word) :=
  (regFind a.addr).map (fun x =>
    let keep := a.mask &&& BitVec.ofNat 64 x.1.rw
    (x.1, x.2, (rd m x.1 x.2 &&& ~~~keep) ||| (a.value &&& keep)))

/-- The register part of an item (R347). -/
def applyItem (m : Mach) (a : AmdItem) : Mach :=
  match itemWord m a with
  | some (r, ix, w) =>
    -- R228: an item that writes POOL of an EMPTY entry clears KEEP
    let w := if r.base == Reg.TEN_EXT.base && getBits a.mask 51 21 != 0 && getBits w 63 62 == 0 then setBits w 61 61 0 else w
    wr m r ix w
  | none => m

/-- The registers with every item of a set applied. -/
def applyItems (m : Mach) (l : List AmdItem) : Mach := l.foldl applyItem m

/-! ### Field values (R342, REASON 0x708) -/

/-- Values that a field allows: inclusive ranges. -/
structure FieldRange where
  f : FieldRef
  ok : List (Nat × Nat)
  deriving DecidableEq, Repr

/-- The stated ranges of the fields that have one, R63-R460. -/
def fieldRanges : List FieldRange :=
  [⟨F.RTE_HR_CFG_GRAN, [(0, 6)]⟩, ⟨F.SOF_DEVLOAD_CFG_LIGHT_PCT, [(0, 100)]⟩, ⟨F.SOF_DEVLOAD_CFG_SEV_PCT, [(1, 100)]⟩,
   ⟨F.SOF_DEVLOAD_CFG_WIN, [(1, 65535)]⟩, ⟨F.SOF_MC_CFG_W_MC0, [(0, 64)]⟩, ⟨F.SOF_MC_CFG_W_MC1, [(0, 64)]⟩,
   ⟨F.SOF_MC_CFG_W_MC2, [(0, 64)]⟩, ⟨F.SOF_MC_CFG_W_MC3, [(0, 64)]⟩, ⟨F.SOF_MC_CFG_W_MC4, [(0, 64)]⟩,
   ⟨F.SOF_MC_CFG_W_MC5, [(0, 64)]⟩, ⟨F.SOF_MC_CFG_W_MC6, [(0, 64)]⟩,
   ⟨F.SOF_ALPHA_ALPHA_SC0, [(0, 9)]⟩, ⟨F.SOF_ALPHA_ALPHA_SC1, [(0, 9)]⟩, ⟨F.SOF_ALPHA_ALPHA_SC2, [(0, 9)]⟩,
   ⟨F.SOF_ALPHA_ALPHA_SC3, [(0, 9)]⟩,
   ⟨F.FCH_CFG_CLEAN_START, [(0, 100)]⟩, ⟨F.FCH_CFG_MIRROR_MAX, [(1, 8)]⟩, ⟨F.FCH_CFG_BUDGET, [(0, 4194304)]⟩,
   ⟨F.FCH_HBM_SHARE_W_MAILBAG, [(1, 15)]⟩, ⟨F.FCH_HBM_SHARE_W_MIRROR, [(1, 15)]⟩, ⟨F.FCH_HBM_SHARE_W_CARBON, [(1, 15)]⟩,
   ⟨F.FCH_HBM_SHARE_W_CACHE, [(1, 15)]⟩] ++
  [⟨F.PCL_CFG_LAG, [(256, 2048)]⟩, ⟨F.PCL_CFG_QUANTUM, [(1, 65535)]⟩, ⟨F.TEN_FLD_CFG_SLOTS, [(0, 16)]⟩,
   ⟨F.TEN_FLD_CFG_ALPHA, [(0, 9), (15, 15)]⟩, ⟨F.TEN_RGN_CFG_BSZ, [(0, 9)]⟩, ⟨F.TEN_RGN_CFG_FIRST, [(0, 524287)]⟩,
   ⟨F.GRD_RULE_ATTR_CACHE, [(0, 2)]⟩, ⟨F.SCH_PORT_CFG_W_SC0, [(1, 64)]⟩, ⟨F.SCH_PORT_CFG_W_SC1, [(1, 64)]⟩,
   ⟨F.SCH_PORT_CFG_W_SC2, [(1, 64)]⟩, ⟨F.SCH_PORT_CFG_W_SC3, [(1, 64)]⟩, ⟨F.SCH_GATE_CTL_PLEN, [(0, 256)]⟩,
   ⟨F.STN_CFG_BIFUR, [(0, 4)]⟩, ⟨F.STN_PORT_CFG_MAX_RATE, [(1, 6)]⟩, ⟨F.STN_PORT_CFG_L0P_MIN, [(0, 4)]⟩,
   ⟨F.STN_PORT_CTL_L0P_REQ, [(0, 4)]⟩, ⟨F.STN_CRL_CFG_HOLD_MS, [(0, 1000)]⟩, ⟨F.STN_CRL_CFG_TIME_DIR, [(0, 2)]⟩,
   ⟨F.PMU_BW_CFG_WIN, [(0, 1000000)]⟩, ⟨F.PMU_TRK_CFG_N, [(4, 20)]⟩, ⟨F.PMU_TRK_CFG_SEED, [(1, 2 ^ 32 - 1)]⟩] ++
  [⟨F.PMU_FLT_CTL_SRC_SEL, [(0, 2)]⟩, ⟨F.PMU_FLT_CTL_WORLDS, [(1, 7)]⟩, ⟨F.PMU_FLT_CTL_MC_MASK, [(1, 255)]⟩,
   ⟨F.PMU_FLT_CTL_SC_MASK, [(1, 15)]⟩, ⟨F.INL_CTL_FAULT_TIME, [(1, 100)]⟩, ⟨F.INL_CTL_ILIM, [(0, 64)]⟩,
   ⟨F.RTE_PORT_ID_LOCAL, [(0, 4079)]⟩, ⟨F.FTM_HZ_SEL_POINT, [(0, 191)]⟩, ⟨F.RAS_WM_CFG_QUANTITY, [(0, 13)]⟩,
   ⟨F.PMU_CTR_CFG_EVENT, [(0, 1), (0x10, 0x15), (0x20, 0x23), (0x30, 0x30), (0x40, 0x48), (0x50, 0x53), (0x60, 0x61), (0x70, 0x71), (0x80, 0x80)]⟩]

/-- Every field of a register word lies in its range and no reserved bit is set. -/
def wordOk (r : RegDef) (w : Word) : Bool :=
  (w.toNat &&& r.rsv) == 0 && fieldRanges.all (fun x =>
    x.f.reg.base != r.base || x.ok.any (fun z => decide (z.1 ≤ getBits w x.f.hi x.f.lo) && decide (getBits w x.f.hi x.f.lo ≤ z.2)))

/-- A rule, region, mirror group or bucket in use has its counts set; a gang stands on an even station; the cleaning limits
are in order; the domains R421 requires are on. -/
def wordOkAt (m : Mach) (r : RegDef) (ix : List Nat) (w : Word) : Bool :=
  let b := r.base
  let zeroEn (en : Nat) : Bool := getBits w en en == 1 && (getBits w 47 24 == 0 || getBits w 19 0 == 0)
  if b == Reg.GRD_RULE_BASE.base then
    !(getBits w 63 63 == 1) || (
      let c := gf m F.GRD_RULE_SIZE_COUNT ix
      let top := getBits w 51 12 + c
      c != 0 && decide (c ≤ 2 ^ 40) && (if getBits w 62 62 == 1 then decide (top ≤ 2 ^ 20) && !gfb m F.GRD_RULE_MATCH_DELIVER ix
        else decide (top ≤ 2 ^ 40) && !gfb m F.GRD_RULE_MATCH_LOCK ix))
  else if b == Reg.TEN_RGN_BASE.base then
    !(getBits w 63 63 == 1) || (decide (1 ≤ gf m F.TEN_RGN_CFG_LEN ix) && decide (gf m F.TEN_RGN_CFG_LEN ix ≤ 524288)
      && decide (gf m F.TEN_RGN_CFG_FIRST ix + gf m F.TEN_RGN_CFG_LEN ix ≤ 524288)
      && gf m F.TEN_RGN_BASE_DPA_BASE ix % 2 ^ gf m F.TEN_RGN_CFG_BSZ ix == 0)
  else if b == Reg.FCH_MGRP_CTL.base then !(gfb m F.FCH_MGRP_CTL_VALID ix) || gf m F.FCH_MGRP_CTL_COPIES ix != 0
  else if b == Reg.SCH_PACE_PORT.base then !zeroEn F.SCH_PACE_PORT_EN.lo
  else if b == Reg.SCH_FLD_CFG.base then !zeroEn F.SCH_FLD_CFG_PACE_EN.lo
  else if b == Reg.SCH_SHAPE.base then !zeroEn F.SCH_SHAPE_EN.lo
  else if b == Reg.STN_CRL_CFG.base then !(gfb m F.STN_CRL_CFG_GANG ix) || (ix.getD 0 0 % 2 == 0 && ix.getD 1 0 == 0)
  else if b == Reg.FCH_CFG.base then decide (gf m F.FCH_CFG_CLEAN_STOP < gf m F.FCH_CFG_CLEAN_START)
  else if b == Reg.MBX_PORT_CFG.base then !(gfb m F.MBX_PORT_CFG_MGMT_EN ix) || role m (ix.getD 0 0) == 1
  else if b == Reg.INL_PD_CTL.base then
    gf m F.INL_PD_CTL_HQ_ON == 15 && gf m F.INL_PD_CTL_HBM_ON == 255
      && decide (3 ≤ ((List.range 4).filter (bitAt (gf m F.INL_PD_CTL_PLN_ON))).length)
  else if b == Reg.RTE_HR_CFG.base then
    !(gfb m F.RTE_HR_BASE_VALID ix) || (
      let ways := gf m F.RTE_HR_CFG_WAYS ix + 1
      let size := gf m F.RTE_HR_CFG_SIZE ix
      size != 0 && size % ways == 0 && decide (gf m F.RTE_HR_BASE_BASE ix + size ≤ 2 ^ 24)
        && ((List.range 16).drop ways).all (fun i => memberSlot m (ix.getD 0 0) i == 0))
  else true

/-- Valid regions: FLD and region. -/
def validRegions (m : Mach) : List (Nat × Nat) :=
  ((List.range 8).map (fun r => (enabledFlds m).filterMap (fun f => if gfb m F.TEN_RGN_BASE_VALID [f, r] then some (f, r) else none))).flatten

/-- Listed extent-table words of a region. -/
def regionWords (m : Mach) (x : Nat × Nat) : List Word :=
  let first := gf m F.TEN_RGN_CFG_FIRST [x.1, x.2]
  let len := gf m F.TEN_RGN_CFG_LEN [x.1, x.2]
  m.regs.filterMap (fun z => if 0x6200000 + 8 * first ≤ z.1 && z.1 < 0x6200000 + 8 * (first + len) then some z.2 else none)

/-- R227, R342: every listed register holds legal values, each POOL aligned to its region's block size. -/
def fieldsOk (m : Mach) : Bool :=
  (validRegions m).all (fun x => (regionWords m x).all (fun w => getBits w 51 21 % 2 ^ gf m F.TEN_RGN_CFG_BSZ [x.1, x.2] == 0)) &&
  m.regs.all (fun x => match regFind x.1 with
    | none => true
    | some (r, ix) => wordOk r (x.2 &&& BitVec.ofNat 64 (r.cfg ||| r.rsv) ||| (BitVec.ofNat 64 r.rst &&& ~~~BitVec.ofNat 64 (r.cfg ||| r.rsv)))
        && wordOkAt m r ix x.2)

/-! ### The other categories -/

/-- Some two elements, the earlier first, stand in `p`. -/
def anyPair {α : Type} (p : α → α → Bool) : List α → Bool
  | [] => false
  | x :: xs => xs.any (p x) || anyPair p xs

/-- Two spans (start, length) overlap. -/
def overlap (a b : Nat × Nat) : Bool := decide (a.1 < b.1 + b.2) && decide (b.1 < a.1 + a.2)

/-- Span of a home range. -/
def hrSpan (m : Mach) (r : Nat) : Nat × Nat := (gf m F.RTE_HR_BASE_BASE [r] * 2 ^ 28, gf m F.RTE_HR_CFG_SIZE [r] * 2 ^ 28)

/-- Entries of a region that map a block: not EMPTY, or with KEEP set. -/
def mappedBlocks (m : Mach) (x : Nat × Nat) : List (Nat × Nat) :=
  (regionWords m x).filterMap (fun w =>
    if getBits w 63 62 != 0 || getBits w 61 61 == 1 then some (getBits w 51 21 * 2 ^ 21, blockSize m x.1 x.2) else none)

/-- R227: some guard rule over the span delivers the attribute HDM-H. -/
def deliversHdmH (m : Mach) (s : Nat × Nat) : Bool :=
  (validRules m).any (fun i => gfb m F.GRD_RULE_MATCH_DELIVER [i] && !gfb m F.GRD_RULE_BASE_SPACE [i] && gf m F.GRD_RULE_ATTR_CACHE [i] == 1
    && overlap s (gf m F.GRD_RULE_BASE_BASE [i] * 4096, gf m F.GRD_RULE_SIZE_COUNT [i] * 4096))

/-- R62, R227: local IDs that the device gives out: to its host and member ports, and to the FLDs of its port-based ports. -/
def localIds (m : Mach) (edge : List Nat) : List Nat :=
  edge.map (fun p => gf m F.RTE_PORT_ID_LOCAL [p])
    ++ ((enabledFlds m).filter (fun f => gfb m F.TEN_PORT_MODEL_MODEL [gf m F.TEN_FLD_CFG_PORT [f]])).map (fun f => gf m F.TEN_FLD_CFG_PBR_ID [f])

/-- Ports with a role. -/
def livePorts (m : Mach) : List Nat := (List.range 128).filter (portExists m)

/-- 0x703. -/
def overlapFault (m : Mach) : Bool :=
  let rs := validRegions m
  let edge := (livePorts m).filter (fun p => role m p == 1 || role m p == 2)
  anyPair (fun a b => overlap (hrSpan m a) (hrSpan m b)) (validRanges m)
    || anyPair (fun a b => a.1 == b.1 && overlap (gf m F.TEN_RGN_BASE_DPA_BASE [a.1, a.2] * 2 ^ 21, gf m F.TEN_RGN_CFG_LEN [a.1, a.2] * blockSize m a.1 a.2)
        (gf m F.TEN_RGN_BASE_DPA_BASE [b.1, b.2] * 2 ^ 21, gf m F.TEN_RGN_CFG_LEN [b.1, b.2] * blockSize m b.1 b.2)) rs
    || anyPair (fun a b => overlap (gf m F.TEN_RGN_CFG_FIRST [a.1, a.2], gf m F.TEN_RGN_CFG_LEN [a.1, a.2])
        (gf m F.TEN_RGN_CFG_FIRST [b.1, b.2], gf m F.TEN_RGN_CFG_LEN [b.1, b.2])) rs
    || anyPair (fun a b => a == b) (localIds m edge)
    || anyPair (fun a b => gf m F.TEN_FLD_CFG_PORT [a] == gf m F.TEN_FLD_CFG_PORT [b] && gf m F.TEN_FLD_CFG_POS [a] == gf m F.TEN_FLD_CFG_POS [b])
        (enabledFlds m)
    -- R227: a block mapped twice for one host port, or by two host ports where a rule delivers HDM-H
    || anyPair (fun (a b : Nat × (Nat × Nat)) => overlap a.2 b.2 && (a.1 == b.1 ||
        deliversHdmH m (max a.2.1 b.2.1, min (a.2.1 + a.2.2) (b.2.1 + b.2.2) - max a.2.1 b.2.1)))
        (rs.map (fun x => (mappedBlocks m x).map (fun b => (gf m F.TEN_FLD_CFG_PORT [x.1], b)))).flatten

/-- 0x704. -/
def danglingFault (m : Mach) : Bool :=
  (validRanges m).any (fun r =>
      gf m F.RTE_HR_CFG_HOME [r] % 4096 < 4080
        || (gf m F.RTE_HR_CFG_HOME [r] == ownPostcode m && (List.range (gf m F.RTE_HR_CFG_WAYS [r] + 1)).any (fun i => role m (memberSlot m r i) != 2)))
    || (enabledFlds m).any (fun f => role m (gf m F.TEN_FLD_CFG_PORT [f]) != 1
        || (gfb m F.TEN_PORT_MODEL_MODEL [gf m F.TEN_FLD_CFG_PORT [f]] &&
            !(gfb m F.RTE_LOCAL_VALID [gf m F.TEN_FLD_CFG_PBR_ID [f]] && gf m F.RTE_LOCAL_KIND [gf m F.TEN_FLD_CFG_PBR_ID [f]] == 2)))
    || (validRules m).any (fun i => gfb m F.GRD_RULE_MATCH_DELIVER [i] && gf m F.GRD_RULE_ATTR_MIRROR [i] != 0
        && !gfb m F.FCH_MGRP_CTL_VALID [gf m F.GRD_RULE_ATTR_MIRROR [i]])
    || (List.range 4).any (fun q => (validHosts m q).any (fun h => (List.range 4).any (fun k =>
        gfb m F.HQ_HOST_CFG_VALID [k, h] && gf m F.HQ_HOST_CFG_POSTCODE [k, h] != gf m F.HQ_HOST_CFG_POSTCODE [q, h])))

/-- Is every byte of a span in a valid home range? The span is walked range by range. -/
def covered (m : Mach) : Nat → Nat → Nat → Bool
  | 0, _, _ => false
  | k + 1, a, len => if len == 0 then true else match homeRange m a with
    | none => false
    | some r => let left := (hrSpan m r).1 + (hrSpan m r).2 - a
      if len ≤ left then true else covered m k (a + left) (len - left)

/-- Rules that deliver a mirror group, with their spans. -/
def mirroredSpans (m : Mach) : List (Nat × Nat × Nat) :=
  ((validRules m).filter (fun i => gfb m F.GRD_RULE_MATCH_DELIVER [i] && gf m F.GRD_RULE_ATTR_MIRROR [i] != 0)).map (fun i =>
    (gf m F.GRD_RULE_ATTR_MIRROR [i], gf m F.GRD_RULE_BASE_BASE [i] * 4096, gf m F.GRD_RULE_SIZE_COUNT [i] * 4096))

/-- R185: the copies of a mirrored span: their starts. -/
def copySpans (m : Mach) (x : Nat × Nat × Nat) : List (Nat × Nat) :=
  (List.range (gf m F.FCH_MGRP_CTL_COPIES [x.1])).map (fun k => ((x.2.1 + copyOffset m x.1 (k + 1)) % 2 ^ 52, x.2.2))

/-- R70: the bytes after which both ranges' ways repeat together: those of two addresses. -/
def wayPeriod (m : Mach) (a b : Nat) : Nat :=
  match homeRange m a, homeRange m b with
  | some r, some q => Nat.lcm (256 * 2 ^ gf m F.RTE_HR_CFG_GRAN [r] * (gf m F.RTE_HR_CFG_WAYS [r] + 1))
      (256 * 2 ^ gf m F.RTE_HR_CFG_GRAN [q] * (gf m F.RTE_HR_CFG_WAYS [q] + 1))
  | _, _ => 0

/-- Two pool addresses lie on one member of one home. -/
def oneMember (m : Mach) (a b : Nat) : Bool :=
  (homeOf m a).isSome && homeOf m a == homeOf m b && (memberOf m a).map (·.1) == (memberOf m b).map (·.1)

/-- Where in a span the home range of a line or of a copy may change: at its start and at the ends of the ranges. -/
def rangeEdges (m : Mach) (span : Nat × Nat) (offs : List Nat) : List Nat :=
  let ends := ((validRanges m).map (fun r => [(hrSpan m r).1, (hrSpan m r).1 + (hrSpan m r).2])).flatten
  span.1 :: ((offs.map (fun o => ends.map (fun e => (e + 2 ^ 52 - o) % 2 ^ 52))).flatten.filter (fun a => decide (span.1 < a) && decide (a < span.1 + span.2)))

/-- R185: two of a line's four addresses share a member somewhere in the span: from each edge on it is enough to look through one period
of their ways. -/
def sharesMember (m : Mach) (x : Nat × Nat × Nat) : Bool :=
  let offs := 0 :: (List.range (gf m F.FCH_MGRP_CTL_COPIES [x.1])).map (fun k => copyOffset m x.1 (k + 1))
  (rangeEdges m x.2 offs).any (fun e => anyPair (fun a b =>
    let at_ (o i : Nat) : Nat := (e + 256 * i + o) % 2 ^ 52
    (List.range (min (wayPeriod m (at_ a 0) (at_ b 0)) (x.2.1 + x.2.2 - e) / 256)).any (fun i => oneMember m (at_ a i) (at_ b i))) offs)

/-- 0x705. -/
def sumFault (m : Mach) : Bool :=
  let courier := (livePorts m).filter (fun p => role m p == 3)
  (List.range 4).any (fun q => ((validHosts m q).map (fun h => gf m F.HQ_HOST_CFG_QUOTA [q, h])).sum > 512 * carbonK m (16 * q))
    || (List.range 128).any (fun p => ((enabledFlds m).filter (fun f => gf m F.TEN_FLD_CFG_PORT [f] == p)).length > 32)
    || (mirroredSpans m).any (fun x => (copySpans m x).any (fun c => !covered m 1025 c.1 c.2) || sharesMember m x)
    || courier.length > 16 || (courier.map (cfgWidth m)).sum > 256

/-- 0x706. -/
def routingFault (m : Mach) : Bool :=
  let own := gf m F.RTE_SELF_LOCAL
  let slots (l : Nat) : List Nat := [gf m F.RTE_LOCAL_SLOT0 [l], gf m F.RTE_LOCAL_SLOT1 [l], gf m F.RTE_LOCAL_SLOT2 [l], gf m F.RTE_LOCAL_SLOT3 [l]]
  (gfb m F.RTE_LOCAL_VALID [own] && gf m F.RTE_LOCAL_KIND [own] != 2)
    || (setEntries m (regAddr Reg.RTE_LOCAL [0]) 8 4096 F.RTE_LOCAL_VALID.lo).any (fun l => match gf m F.RTE_LOCAL_KIND [l] with
      | 0 => let r := role m (gf m F.RTE_LOCAL_SLOT0 [l]); r != 1 && r != 2
      | 1 => (slots l).any (fun p => role m p != 3)
      | 2 => false
      | _ => true)
    || (List.range 64).any (fun d => gfb m F.RTE_DIST_VALID [d] && [gf m F.RTE_DIST_SLOT0 [d], gf m F.RTE_DIST_SLOT1 [d],
        gf m F.RTE_DIST_SLOT2 [d], gf m F.RTE_DIST_SLOT3 [d]].any (fun p => role m p != 3))
    || ((livePorts m).filter (fun p => role m p == 3 && gf m F.STN_CRL_CFG_TIME_DIR (st p) == 1)).length > 1

/-- 0x707. -/
def classFault (m : Mach) : Bool :=
  (mirroredSpans m).any (fun x => (copySpans m x).any (fun c =>
      (validRules m).any (fun i => gfb m F.GRD_RULE_MATCH_DELIVER [i] && !gfb m F.GRD_RULE_BASE_SPACE [i]
        && overlap c (gf m F.GRD_RULE_BASE_BASE [i] * 4096, gf m F.GRD_RULE_SIZE_COUNT [i] * 4096)
        && (gf m F.GRD_RULE_ATTR_MIRROR [i] != 0 || gf m F.GRD_RULE_ATTR_CACHE [i] != 0))))
    || (List.range 128).any (fun p =>
        gf m F.SOF_MC_CFG_W_MC0 [p] == 0 || gf m F.SOF_MC_CFG_W_MC1 [p] == 0 || gf m F.SOF_MC_CFG_W_MC2 [p] == 0
        || gf m F.SOF_MC_CFG_W_MC3 [p] == 0 || gf m F.SOF_MC_CFG_W_MC4 [p] == 0 || gf m F.SOF_MC_CFG_W_MC5 [p] == 0
        || gf m F.SOF_MC_CFG_W_MC6 [p] == 0 || gf m F.SOF_MC7_POLICE_BURST [p] == 0 || gf m F.SOF_MC7_POLICE_RATE [p] == 0)

/-- R230: a sanitize runs, or waits to run, for entry `e`. -/
def sanitizing (m : Mach) (e : Nat) : Bool :=
  m.eng.toSanitize.any (fun x => x.2.2.1 == e) || m.eng.parcels.any (fun p => p.postmaster && p.entry == e)

/-- Entries of an FLD's regions. -/
def fldEntries (m : Mach) (f : Nat) : List (Nat × Nat) :=
  (List.range 8).filterMap (fun r => if gfb m F.TEN_RGN_BASE_VALID [f, r] then
    some (gf m F.TEN_RGN_CFG_FIRST [f, r], gf m F.TEN_RGN_CFG_LEN [f, r]) else none)

/-- Listed entries of a span that are not EMPTY. -/
def busyEntries (m : Mach) (s : Nat × Nat) : Bool :=
  m.regs.any (fun x => decide (0x6200000 + 8 * s.1 ≤ x.1) && decide (x.1 < 0x6200000 + 8 * (s.1 + s.2)) && getBits x.2 63 62 != 0)

/-- R454: guard rule `i` is valid and reaches the trusted world. -/
def trustedRule (m : Mach) (i : Nat) : Bool := gfb m F.GRD_RULE_BASE_VALID [i] && bitAt (gf m F.GRD_RULE_MATCH_WORLDS [i]) 1

/-- R454: a trusted rule names the source group of FLD `f`. -/
def trustedFld (m : Mach) (f : Nat) : Bool :=
  (validRules m).any (fun i => trustedRule m i && !gfb m F.GRD_RULE_MATCH_ANY_SG [i]
    && gf m F.GRD_RULE_MATCH_SGROUP [i] == gf m F.TEN_FLD_CFG_SGROUP [f])

/-- R454: while the TSP lock holds, register `r` at `ix` is closed to single writes. -/
def tspWord (m : Mach) (r : RegDef) (ix : List Nat) : Bool :=
  gfb m F.SEC_TSP_LOCK && (
    if r.base == Reg.GRD_RULE_BASE.base || r.base == Reg.GRD_RULE_SIZE.base || r.base == Reg.GRD_RULE_MATCH.base
      || r.base == Reg.GRD_RULE_ATTR.base then trustedRule m (ix.getD 0 0)
    else if r.base == Reg.TEN_FLD_CFG.base then trustedFld m (ix.getD 0 0)
    else r.base == Reg.SEC_IDE_CFG.base)

/-- R454: while the lock holds in `a`, a set may not change a trusted rule's word, a named FLD's SGROUP, or an IDE_REQ. -/
def tspFault (a b : Mach) (r : RegDef) (ix : List Nat) : Bool :=
  tspWord a r ix && (r.base != Reg.TEN_FLD_CFG.base || gf a F.TEN_FLD_CFG_SGROUP ix != gf b F.TEN_FLD_CFG_SGROUP ix)
    && (r.base != Reg.SEC_IDE_CFG.base || gf a F.SEC_IDE_CFG_IDE_REQ ix != gf b F.SEC_IDE_CFG_IDE_REQ ix)

/-- R266, R228, R232, R227, R161, R454: does one changed register break a state rule? `a` is the state before, `b` after. -/
def stateFaultAt (a b : Mach) (r : RegDef) (ix : List Nat) (post : Bool) : Bool :=
  let i0 := ix.getD 0 0
  let old := rd a r ix
  let new := rd b r ix
  if old == new then false
  else if tspFault a b r ix then true
  else if r.base == Reg.STN_CFG.base then
    gf a F.STN_CFG_BIFUR ix != gf b F.STN_CFG_BIFUR ix && (List.range 4).any (fun k => role a (4 * i0 + k) != 0 || role b (4 * i0 + k) != 0)
  else if r.base == Reg.STN_PORT_CFG.base then
    gf a F.STN_PORT_CFG_ROLE ix != gf b F.STN_PORT_CFG_ROLE ix && (List.range 4).any (fun k => role a (4 * i0 + k) != 0)
  else if r.base == Reg.TEN_FLD_CFG.base then
    let port := gf a F.TEN_FLD_CFG_PORT ix != gf b F.TEN_FLD_CFG_PORT ix
    let pos := gf a F.TEN_FLD_CFG_POS ix != gf b F.TEN_FLD_CFG_POS ix
    ((port || pos) && gfb a F.TEN_FLD_STATUS_BOUND ix)
      || (port && (fldEntries a i0).any (fun s => busyEntries a s || (List.range s.2).any (fun k => sanitizing a (s.1 + k))))
  else if r.base == Reg.TEN_EXT.base then
    let so := getBits old 63 62
    let sn := getBits new 63 62
    (!post && so != sn && !(so == 1 && sn == 0))
      || (getBits old 51 21 != getBits new 51 21 && (so != 0 || sanitizing a i0))
  else if r.base == Reg.TEN_RGN_BASE.base || r.base == Reg.TEN_RGN_CFG.base then
    gfb a F.TEN_RGN_BASE_VALID ix && busyEntries a (gf a F.TEN_RGN_CFG_FIRST ix, gf a F.TEN_RGN_CFG_LEN ix)
  else if r.base == Reg.HQ_HOST_CFG.base then
    gf a F.HQ_HOST_CFG_POSTCODE ix != gf b F.HQ_HOST_CFG_POSTCODE ix
      && (gfb a F.HQ_HOST_STATUS_SCRUB ix || ((List.range 16).any (fun k => usedBy (carbonK a (16 * i0)) (sliceOf a (16 * i0 + k)) (ix.getD 1 0) != 0)))
  else if r.base == Reg.TEN_PORT_MODEL.base then
    (enabledFlds a).any (fun f => gf a F.TEN_FLD_CFG_PORT [f] == i0 && gfb a F.TEN_FLD_STATUS_BOUND [f])
  else r.base == Reg.HQ_CARBON_CFG.base

/-- 0x709: some register that a set names breaks a state rule (R343). -/
def stateFault (a b : Mach) (items : List AmdItem) (post : Bool) : Bool :=
  items.any (fun i => match regFind i.addr with
    | some (r, ix) => stateFaultAt a b r ix post
    | none => false)

/-- 0x70A: an item that asks for a gate swap whose pending list fails R263. -/
def gateFault (m : Mach) (items : List AmdItem) : Bool :=
  items.any (fun i => match regFind i.addr with
    | some (r, [p]) => r.base == Reg.SCH_GATE_CTL.base && ((i.value &&& i.mask).getLsbD F.SCH_GATE_CTL_SWAP.lo)
        && !gateListOk m p (1 - gf m F.SCH_GATE_INFO_ACTIVE [p]) (getBits i.value F.SCH_GATE_CTL_PLEN.hi F.SCH_GATE_CTL_PLEN.lo)
    | _ => false)

/-- R342: the categories that judge a configuration by itself. -/
def configFault (m : Mach) : Option Nat :=
  if overlapFault m then some 0x703
  else if danglingFault m then some 0x704
  else if sumFault m then some 0x705
  else if routingFault m then some 0x706
  else if classFault m then some 0x707
  else if !fieldsOk m then some 0x708
  else none

/-- The configuration that waiting sets will have made (R342). -/
def pendingConfig (m : Mach) : Mach := m.amd.sets.foldl (fun m s => applyItems m s.items) m

/-- R342: check a set: the REASON of its failure, or none. `post` marks a Postmaster set, whose extent states R228 moves. -/
def checkSet (now : Nat) (m : Mach) (items : List AmdItem) (overrun : Bool) (cut : Nat) (post : Bool) : Option Nat :=
  let a := pendingConfig m
  let b := applyItems a items
  if overrun then some 0x702
  else if items.any (fun i => !amendable a i) then some 0x701
  else match configFault b with
    | some r => some r
    | none =>
      if cut > now + 2 ^ 40 || items.any (fun i => match regFind i.addr with
          | some (r, _) => (i.value &&& i.mask).toNat &&& r.rsv != 0 || !wordOk r (i.value &&& i.mask ||| (BitVec.ofNat 64 r.rst &&& ~~~i.mask))
          | none => true) then some 0x708
      else if stateFault a b items post then some 0x709
      else if gateFault b items then some 0x70A
      else none

/-- R341: the first item, counted in the stage, with which the set fails; none when no single item is to blame. -/
def firstBad (now : Nat) (m : Mach) (items : List AmdItem) (cut reason : Nat) : Option Nat :=
  (List.range items.length).find? (fun k => checkSet now m (items.take (k + 1)) false cut false == some reason
    && checkSet now m (items.take k) false cut false != some reason)

end Sys2Proof.Machine
end

