-- ==== Sys2Proof/Machine/Mram.lean ====
section
/-!
DEFINITION. The 128 MiB MRAM (R327): its bytes, CRC-32C, the persistent fatal-event log (R444), and what a fatal record shares.
-/

namespace Sys2Proof.Machine
open Sys2Proof

/-- R327: the size of the MRAM. -/
def mramSize : Nat := 0x8000000

/-- The byte at an MRAM address. -/
def mbyte (mram : List Host.Cell) (a : Nat) : Byte := tget Config.mramBlank mram a

/-- `n` bytes of MRAM from `a`. -/
def mread (mram : List Host.Cell) (a n : Nat) : List Byte := tgetList Config.mramBlank mram a n

/-- MRAM with bytes written from `a`. -/
def mwrite (mram : List Host.Cell) (a : Nat) (bs : List Byte) : List Host.Cell := tsetList Config.mramBlank mram a bs

/-- A little-endian number of `n` bytes in MRAM (R5). -/
def mnat (mram : List Host.Cell) (a n : Nat) : Nat := leNat (mread mram a n)

/-- R327: the canonical form of MRAM. -/
abbrev Memory.wf (mram : List Host.Cell) : Bool := twf Config.mramBlank mram

/-! ### CRC-32C -/

/-- `f n`, once `n` is known: the kernel reduces `n` to a numeral before it goes on, so that long checks stay shallow. -/
def seqNat {α : Type} (n : Nat) (f : Nat → α) : α := match n with | 0 => f 0 | k + 1 => f (k + 1)

/-- One bit of CRC-32C, reflected. -/
def crc32Bit (c : Nat) : Nat := c / 2 ^^^ 0x82F63B78 * (c % 2)

/-- A step made twice. -/
def stepTwice (f : Nat → Nat) (c : Nat) : Nat := seqNat (f c) f

/-- The CRC-32C register after a byte list. -/
def crc32Bytes : List Byte → Nat → Nat
  | [], c => c
  | b :: bs, c => seqNat (stepTwice (stepTwice (stepTwice crc32Bit)) (c ^^^ b.toNat)) (crc32Bytes bs)

/-- CRC-32C of a byte list. -/
def crc32c (bs : List Byte) : Nat := crc32Bytes bs 0xFFFFFFFF ^^^ 0xFFFFFFFF

/-! ### The persistent fatal-event log (R444) -/

/-- Address of a record of the log. -/
def plogAddr (i : Nat) : Nat := 0x5000000 + 64 * (i % 262144)

/-- R441, R444: the bytes of a persistent record. -/
def plogBytes (now seq kind inst detail boot : Nat) : List Byte :=
  let b := natLe 8 0 ++ natLe 4 seq ++ natLe 1 kind ++ natLe 1 3 ++ natLe 2 inst ++ natLe 8 0 ++ natLe 8 0 ++ natLe 8 detail ++ natLe 8 0
    ++ natLe 8 now ++ natLe 2 boot ++ natLe 2 0
  b ++ natLe 4 (crc32c b)

/-- R442-R444: a RAS entry of SEVERITY 3, with its persistent record. -/
def rasFatal (kind inst detail : Nat) (s : State) : State :=
  let now := s.time.now.toNat
  let m := rasLog s.m now kind 3 inst pmNone 0 0 0 0 detail
  { s with
    m := m
    mram := mwrite s.mram (plogAddr s.nvm.plogNext) (plogBytes now m.logs.rasSeq kind inst detail s.nvm.boot)
    nvm := { s.nvm with plogNext := (s.nvm.plogNext + 1) % 262144 } }

/-- Slots of the log that hold anything, in ascending order. -/
def plogUsed (mram : List Host.Cell) : List Nat :=
  ((mram.filter (fun x => decide (0x5000000 ≤ x.1) && decide (x.1 < 0x6000000))).map (fun x => (x.1 - 0x5000000) / 64)).eraseDups

/-- R444: the slot after the record with the highest BOOT and SEQ whose CRC passes. -/
def plogNextAtBoot (mram : List Host.Cell) : Nat :=
  let good := (plogUsed mram).filter (fun i => let b := mread mram (plogAddr i) 64; leAt b 60 4 == crc32c (b.take 60))
  let rank (i : Nat) : Nat := mnat mram (plogAddr i + 56) 2 * 2 ^ 32 + mnat mram (plogAddr i + 8) 4
  match lbest (fun a b => decide (rank b < rank a)) good with
  | some i => (i + 1) % 262144
  | none => 0

end Sys2Proof.Machine
end

