-- ==== Sys2Proof/Machine/Image.lean ====
section
/-!
DEFINITION. Chapter 15: the Ibtana image: its header, blocks and records (R328-R334), the running configuration that it forms
(R332, R333), the tests of a slot (R335), and the image that PERSIST writes (R350).
-/

namespace Sys2Proof.Machine
open Sys2Proof

/-- R327: offset of configuration slot `k`. -/
def cfgSlot (k : Nat) : Nat := 0x4000000 + 0x800000 * (k % 2)

/-- "IBTN" (R328). -/
def ibtn : List Byte := [0x49, 0x42, 0x54, 0x4E]

/-- R330: a record. -/
structure ImgRec where
  kind : Nat
  flags : Nat
  pos : Nat
  body : List Byte
  deriving DecidableEq, Repr

/-- R330, R331: the records of a data area up to its END; none where they are not well formed. -/
def parseRecs : Nat → List Byte → Option (List ImgRec)
  | 0, _ => none
  | k + 1, bs =>
    let h := leAt bs 0 8
    let len := bitsOf h 39 16
    let pad := (len + 7) / 8 * 8
    if bs.length < 8 || 2 ≤ bitsOf h 63 56 then none
    else if h % 2 ^ 16 == 0 then (if len == 0 && (bs.drop 8).all (· == 0) then some [] else none)
    else if bs.length < 8 + pad || ((bs.drop (8 + len)).take (pad - len)).any (· != 0) then none
    else (parseRecs k (bs.drop (8 + pad))).map (⟨h % 2 ^ 16, bitsOf h 63 56, bitsOf h 55 40, (bs.drop 8).take len⟩ :: ·)

/-- The writes of a REG_RUN or REG_FILL record: address and value. -/
def recWrites (r : ImgRec) : List (Nat × Nat) :=
  let first := leAt r.body 0 4
  let n := leAt r.body 4 4
  if r.kind == 3 then (List.range n).map (fun k => (first + 8 * k, leAt r.body (8 + 8 * k) 8))
  else (List.range n).map (fun k => (first + k * leAt r.body 8 4, leAt r.body 16 8))

/-- R339: the items of `bs`. -/
def parseItems : Nat → List Byte → List AmdItem
  | 0, _ => []
  | k + 1, bs => ⟨BitVec.ofNat 64 (leAt bs 0 8), BitVec.ofNat 64 (leAt bs 8 8), leAt bs 16 4⟩ :: parseItems k (bs.drop 24)

/-- R332: a value's bits outside the fields whose Reset is cfg are zero. -/
def cfgOnly (x : Nat × Nat) : Bool :=
  match regFind x.1 with
  | some (r, _) => x.2 &&& r.cfg == x.2
  | none => x.2 == 0

/-- R331, R332, FAULT 7: the record's body. -/
def bodyOk (r : ImgRec) : Bool :=
  let b := r.body
  match r.kind with
  | 1 => b.length == 8 && decide (leAt b 0 8 < 64)
  | 2 => b.length == 8 && leAt b 0 1 < 3 && leAt b 1 1 ≤ 64 && leAt b 2 6 ≤ 32
  | 3 => b.length == 8 + 8 * leAt b 4 4 && leAt b 0 4 % 8 == 0 && (recWrites r).all cfgOnly
  | 4 => b.length == 24 && leAt b 0 4 % 8 == 0 && leAt b 8 4 != 0 && leAt b 8 4 % 8 == 0 && leAt b 12 4 == 0 && (recWrites r).all cfgOnly
  | 5 => b.length % 24 == 0 && (parseItems (b.length / 24) b).all (fun i => i.addr % 8 == 0)
      && (List.range (b.length / 24)).all (fun k => leAt b (24 * k + 20) 4 == 0)
  | _ => true

/-! ### The running configuration (R332, R333) -/

/-- R333: K for a Carbon code and WIDE. -/
def kFor (carbon wide : Nat) : Nat := ((48 - 16 * carbon) * 2 ^ 30 / 8192 - 1024 * wide) / 64

/-- R333: the partition of HBM: Carbon, wide store, recorded-delivery log, Mailbag. -/
def applyPartition (m : Mach) (carbon log wide : Nat) : Mach :=
  let m := (List.range 4).foldl (fun m q =>
    sf (sf m F.HQ_CARBON_CFG_WIDE [q] wide) F.HQ_CARBON_CFG_K [q] (kFor carbon wide)) m
  let m := sf m F.SOF_MAILBAG_SIZE [] (((64 - (48 - 16 * carbon)) * 1024 - 64 * log) * 256)
  sf m F.PMU_RD_CFG_CAP [] (log * 2097152)

/-- R332: a value takes the fields of its register whose Reset is cfg. -/
def cfgWrite (m : Mach) (x : Nat × Nat) : Mach :=
  match regFind x.1 with
  | some (r, ix) => wr m r ix ((rd m r ix &&& ~~~BitVec.ofNat 64 r.cfg) ||| (BitVec.ofNat 64 x.2 &&& BitVec.ofNat 64 r.cfg))
  | none => m

/-- One record of an image. -/
def applyRec (m : Mach) (r : ImgRec) : Mach :=
  match r.kind with
  | 1 => sf m F.RTE_SELF_DISTRICT [] (leAt r.body 0 8)
  | 2 => applyPartition m (leAt r.body 0 1) (leAt r.body 1 1) (leAt r.body 2 6)
  | 3 | 4 => (recWrites r).foldl cfgWrite m
  | 5 => (parseItems (r.body.length / 24) r.body).foldl applyItem m
  | _ => m

/-- R332: extent states as an image loads them: OFFERED as EMPTY, RELEASING as ACTIVE, KEEP and SANITIZING clear. -/
def loadExtents (m : Mach) : Mach :=
  { m with regs := m.regs.filterMap (fun x =>
      if 0x6200000 ≤ x.1 && x.1 < 0x6200000 + 8 * 524288 then
        let s := getBits x.2 63 62
        let w := setBits (setBits x.2 63 62 (if s == 1 then 0 else if s == 3 then 2 else s)) 61 61 0
        if w == 0 then none else some (x.1, w)
      else some x) }

/-- R59, R60, R62: the defaults that follow from board position `b`. -/
def boardDefaults (m : Mach) (b : Nat) : Mach :=
  let m := sf (sf (sf m F.RTE_SELF_VALID [] 1) F.RTE_SELF_BOARD_ID [] b) F.RTE_SELF_LOCAL [] (4080 + b)
  (List.range 128).foldl (fun m p => sf m F.RTE_PORT_ID_LOCAL [p] (128 * b + p)) m

/-- R249: the words of the guard rules that are locked in `m` stay as they are. -/
def keepLocked (m c : Mach) : Mach :=
  { c with regs := (m.regs.filter (fun x => lockedRuleWord m x.1)).foldl (fun t x => tput t x.1 x.2) c.regs }

/-- R332: the configuration that records form at position `b`, over the registers of `m`. -/
def formConfig (m : Mach) (b : Nat) (rs : List ImgRec) : Mach :=
  keepLocked m (loadExtents ((rs.filter (fun r => bitAt r.pos b)).foldl applyRec (boardDefaults m b)))

/-! ### The tests of a slot (R335) -/

/-- Header fields of a slot (R328). -/
def imgLength (h : List Byte) : Nat := leAt h 8 4
def imgBlocks (h : List Byte) : Nat := leAt h 24 4
def imgOff (h : List Byte) : Nat := leAt h 28 4
def imgSeq (h : List Byte) : Nat := leAt h 16 8

/-- R329: DATA_OFF for a number of blocks. -/
def dataOff (blocks : Nat) : Nat := (256 + 4 * blocks + 4095) / 4096 * 4096

/-- R335, tests 1 to 4: the header. -/
def headerFault (h : List Byte) : Nat :=
  let zeros (i n : Nat) : Bool := (bytesAt h i n).all (· == 0)
  if h.take 4 != ibtn then 1
  else if leAt h 4 2 != 1 then 2
  else if leAt h 252 4 != crc32c (h.take 252) || 2 ≤ leAt h 6 2 || !zeros 14 2 || !zeros 36 28 || !zeros 96 156 then 3
  else if imgLength h % 4096 != 0 || imgLength h < 8192 || 8388608 < imgLength h || imgOff h != dataOff (imgBlocks h)
      || imgLength h != imgOff h + 4096 * imgBlocks h then 4
  else 0

/-- R334: the last record before END is a SIGNATURE record of ALG 1. -/
def signed (rs : List ImgRec) : Bool :=
  match rs.getLast? with
  | some r => r.kind == 0xFFFF && decide (4731 ≤ r.body.length) && leAt r.body 0 4 == 1 && leAt r.body 4 4 == 0
  | none => false

/-- R335: the first test that configuration slot `k` fails at position `b` (0 for none), and its records. `sig` is the verdict
on its signatures; `m` supplies the registers outside the configuration, `owner` says that an owner key is provisioned, and test 10
is made where `ten` asks for it (R366). -/
def slotFault (mram : List Host.Cell) (m : Mach) (k b : Nat) (sig owner ten : Bool) : Nat × List ImgRec :=
  let h := mread mram (cfgSlot k) 256
  let f := headerFault h
  if f != 0 then (f, [])
  else
    let n := imgBlocks h
    let table := mread mram (cfgSlot k + 256) (4 * n)
    if leAt h 32 4 != crc32c table then (5, [])
    else if (List.range n).any (fun i => leAt table (4 * i) 4 != crc32c (mread mram (cfgSlot k + imgOff h + 4096 * i) 4096)) then (6, [])
    else
      let data := mread mram (cfgSlot k + imgOff h) (4096 * n)
      match parseRecs (data.length / 8 + 1) data with
      | none => (7, [])
      | some rs =>
        if !rs.all bodyOk then (7, [])
        else if !bitAt (leAt h 12 2) b then (8, [])
        else if (leAt h 6 2 == 1 || owner) && !(sig && signed rs) then (9, [])
        else
          let c := formConfig m b rs
          let items := ((rs.filter (fun r => r.kind == 5 && bitAt r.pos b)).map (fun r => parseItems (r.body.length / 24) r.body)).flatten
          if ten && ((configFault c).isSome || items.any (fun i => !amendable m i)) then (10, [])
          else if rs.any (fun r => decide (5 < r.kind) && r.kind != 0xFFFF && r.flags == 0) then (11, [])
          else (0, rs)

/-- AMD_SLOT_SEQ: SEQUENCE of a slot's header, 0 if MAGIC is absent. -/
def slotSeq (mram : List Host.Cell) (k : Nat) : Nat :=
  let h := mread mram (cfgSlot k) 256
  if h.take 4 == ibtn then imgSeq h else 0

/-! ### The image that PERSIST writes (R350) -/

/-- A record of kind `k` at position `b` (R330). -/
def recBytes (k b : Nat) (body : List Byte) : List Byte :=
  natLe 8 (k + body.length * 2 ^ 16 + 2 ^ b * 2 ^ 40) ++ body ++ List.replicate ((8 - body.length % 8) % 8) 0

/-- Offsets of the registers along the dimensions of a register array. -/
def dimOffsets : List (Nat × Nat × Nat) → List Nat
  | [] => [0]
  | (stride, first, n) :: ds => ((List.range n).map (fun i => (dimOffsets ds).map (stride * (i + first) + ·))).flatten

/-- Addresses of the registers with fields whose Reset is cfg, in ascending order. -/
def cfgAddrs : List Nat :=
  (((regMap.filter (fun r => r.cfg != 0)).map (fun r => (dimOffsets r.dims).map (r.base + ·))).flatten).mergeSort

/-- Runs of consecutive registers: first address and values. -/
def cfgRuns : List (Nat × Nat) → List (Nat × List Nat)
  | [] => []
  | x :: xs => match cfgRuns xs with
    | (a, vs) :: rest => if a == x.1 + 8 then (x.1, x.2 :: vs) :: rest else (x.1, [x.2]) :: (a, vs) :: rest
    | [] => [(x.1, [x.2])]

/-- The registers with fields whose Reset is cfg, with those fields alone. -/
def cfgRegs (m : Mach) : List (Nat × Nat) :=
  cfgAddrs.map (fun a => match regFind a with
    | some (r, ix) => (a, (rd m r ix).toNat &&& r.cfg)
    | none => (a, 0))

/-- R350: the data area of a persisted configuration at position `b`. -/
def persistData (m : Mach) (b : Nat) : List Byte :=
  let wide := gf m F.HQ_CARBON_CFG_WIDE [0]
  let k := gf m F.HQ_CARBON_CFG_K [0]
  let carbon := ((List.range 3).find? (fun c => kFor c wide == k)).getD 0
  let part := recBytes 2 b (natLe 1 carbon ++ natLe 1 (gf m F.PMU_RD_CFG_CAP / 2097152) ++ natLe 6 wide)
  let dist := recBytes 1 b (natLe 8 (gf m F.RTE_SELF_DISTRICT))
  let runs := (cfgRuns (cfgRegs m)).map (fun r => recBytes 3 b (natLe 4 r.1 ++ natLe 4 r.2.length ++ (r.2.map (natLe 8)).flatten))
  let d := part ++ dist ++ runs.flatten ++ natLe 8 0
  d ++ List.replicate ((4096 - d.length % 4096) % 4096) 0

/-- R328, R329, R350: a whole image for a data area at position `b` with a SEQUENCE. -/
def imageBytes (data : List Byte) (b seq : Nat) : List Byte :=
  let n := data.length / 4096
  let table := ((List.range n).map (fun i => natLe 4 (crc32c (bytesAt data (4096 * i) 4096)))).flatten
  let h := ibtn ++ natLe 2 1 ++ natLe 2 0 ++ natLe 4 (dataOff n + 4096 * n) ++ natLe 2 (2 ^ b) ++ natLe 2 0 ++ natLe 8 seq
    ++ natLe 4 n ++ natLe 4 (dataOff n) ++ natLe 4 (crc32c table) ++ List.replicate 216 0
  let h := h ++ natLe 4 (crc32c h)
  h ++ table ++ List.replicate (dataOff n - 256 - 4 * n) 0 ++ data

end Sys2Proof.Machine
end

