-- ==== Sys2Proof/Machine/Sealing.lean ====
section
/-!
DEFINITION. Responses on the management interfaces; the sets that the Postmaster builds and seals for commands that act at a
cut-over (R344, R345, R349); and what a set does at its cut-over beside its items (R228, R231).
-/

namespace Sys2Proof.Machine
open Sys2Proof

/-! ### Responses (R355, R367) -/

/-- Send a response. -/
def respond (m : Mach) (r : Reply) : Mach := { m with replies := m.replies ++ [r] }

/-- A response with a mailbox return code and values. -/
def answer (m : Mach) (who : Iface) (ret : Ret) (vals : List Nat := []) (body : List Byte := []) : Mach :=
  respond m { whom := who, ret := ret, vals := vals, body := body }

/-- Key of the CCI that an interface leads to. -/
def cciKey : Iface → Nat
  | .cci p => p
  | .pcie p => 128 + p
  | .i3c => 256
  | .brumin _ _ => 257
  | .doe p => 384 + p
  | .courier p => 512 + p
  | .fld f => 1024 + f

/-- R341: owner code of an interface; 0 for one that can own no set. -/
def ownerCode : Iface → Nat
  | .cci _ => 1
  | .pcie _ => 2
  | .i3c => 3
  | .brumin _ _ => 4
  | _ => 0

/-- The CCI of an interface. -/
def cciOf (m : Mach) (who : Iface) : Cci := tget {} m.cci (cciKey who)

/-- The machine with a CCI changed. -/
def modCci (m : Mach) (who : Iface) (f : Cci → Cci) : Mach := { m with cci := tmod {} m.cci (cciKey who) f }

/-- R376: vector 0 of port `p` signals the completion of a background operation. -/
def bgSignal (m : Mach) (key : Nat) : Mach :=
  if key < 128 && gfb m F.MBX_PORT_CFG_MGMT_EN [key] then { m with logs := { m.logs with msi := m.logs.msi ++ [(key, 0)] } } else m

/-! ### Acts of a set -/

/-- The item that gives entry `e` a STATE. -/
def extItem (e state : Nat) : AmdItem :=
  ⟨BitVec.ofNat 64 (state * 2 ^ 62), BitVec.ofNat 64 (3 * 2 ^ 62), regAddr Reg.TEN_EXT [e]⟩

/-- BOUND of an FLD once the sealed sets have taken effect. -/
def boundAfter (m : Mach) (f : Nat) : Bool :=
  ((m.amd.sets.map (·.acts)).flatten).foldl (fun b a => match a with
    | .bind g => b || g == f
    | .unbind g => b && g != f
    | _ => b) (gfb m F.TEN_FLD_STATUS_BOUND [f])

/-- R228, R231: may an act follow? `m` is the configuration before it, `bound` BOUND of its FLD. -/
def actOk (m : Mach) (bound : Nat → Bool) : CutAct → Bool
  | .bind f => !bound f && gfb m F.TEN_FLD_CFG_ENABLE [f] && holdsPos m f
  | .unbind f => bound f
  | .bindPort _ _ _ => true
  | .offer _ e => gf m F.TEN_EXT_STATE [e] == 0 && !sanitizing m e && !m.ten.stale.contains e
  | .accept _ e => gf m F.TEN_EXT_STATE [e] == 1
  | .reject _ e => gf m F.TEN_EXT_STATE [e] == 1
  | .recall _ e => gf m F.TEN_EXT_STATE [e] == 2
  | .released _ _ e => gf m F.TEN_EXT_STATE [e] == 3

/-- R228: a running release of FLD `f` no longer waits for entry `e`; with none left it is done-ok. -/
def releaseStep (m : Mach) (f e : Nat) : Mach :=
  m.cci.foldl (fun m x => match x.2.bg with
    | some b =>
      if b.done || b.fld != f || !b.left.contains e then m
      else
        let left := b.left.filter (· != e)
        let m := { m with cci := tmod {} m.cci x.1 (fun c => { c with bg := some { b with left := left, done := left.isEmpty } }) }
        if left.isEmpty then bgSignal m x.1 else m
    | none => m) m

/-- R231: the OFFERED entries of FLD `f`. -/
def offeredOf (m : Mach) (f : Nat) : List Nat :=
  ((fldEntries m f).map (fun s => m.regs.filterMap (fun x =>
    if decide (0x6200000 + 8 * s.1 ≤ x.1) && decide (x.1 < 0x6200000 + 8 * (s.1 + s.2)) && getBits x.2 63 62 == 1 then
      some ((x.1 - 0x6200000) / 8) else none))).flatten

/-- R231: FLD `f` is unbound at the postmark `pm`: its parcels end, and its OFFERED entries become EMPTY. -/
def unbindFld (now : Nat) (m : Mach) (f : Nat) (pm : Postmark) : Mach :=
  let m := (offeredOf m f).foldl (fun m e => sf m F.TEN_EXT_STATE [e] 0) m
  let p := gf m F.TEN_FLD_CFG_PORT [f]
  let k := gf m F.TEN_FLD_CFG_POS [f]
  let m := if fldAt m p k == some f then wr m Reg.SOF_DEVLOAD_STATUS [p] (setBits (rd m Reg.SOF_DEVLOAD_STATUS [p]) (2 * k + 1) (2 * k) 0) else m
  let m := { m with sof := { m.sof with devload := tset {} m.sof.devload f {} } }
  stopFlds now (sf m F.TEN_FLD_STATUS_BOUND [f] 0) (· == f) pm

/-- R195, R214, R231: FLD `f` is bound: its descriptors read as zero, and its results stay held. -/
def bindFld (m : Mach) (f : Nat) : Mach :=
  let m := { m with eng := { m.eng with slots := m.eng.slots.map (fun x => if x.1 / 16 == f then (x.1, { x.2 with desc := ({} : PSlot).desc }) else x) } }
  sf m F.TEN_FLD_STATUS_BOUND [f] 1

/-- R228, R230, R231: what an act does at the cut-over, the set's items having been applied. -/
def doAct (now : Nat) (pm : Postmark) (m : Mach) : CutAct → Mach
  | .bind f => bindFld m f
  | .unbind f => unbindFld now m f pm
  | .bindPort p v q => { m with vppb := tset 0 m.vppb (64 * p + v) q }
  | .offer f e => { m with ten := { m.ten with events := m.ten.events ++ [⟨f, 0, e⟩] } }
  | .accept _ _ => m
  | .reject _ _ => m
  | .recall f e => { m with ten := { m.ten with events := m.ten.events ++ [⟨f, 1, e⟩] } }
  | .released f r e =>
    let m := releaseStep (sf m F.TEN_EXT_KEEP [e] 1) f e
    let m := { m with ten := { m.ten with stale := m.ten.stale ++ [e] } }
    if gfb m F.TEN_RGN_CFG_SOR [f, r] then
      sf { m with eng := { m.eng with toSanitize := m.eng.toSanitize ++ [(f, r, e, pm.tick)] } } F.TEN_FLD_STATUS_SANITIZING [f] 1
    else m

/-! ### Sealing (R344, R345, R349) -/

/-- R344: a set takes no cut-over before that of a set sealed before it. -/
def raisedCut (m : Mach) (c : Nat) : Nat := (m.amd.sets.map (·.cut)).foldl max c

/-- R345: the cut-over used for a set whose checks finish at `now`, and whether it is late. -/
def cutFor (m : Mach) (now c : Nat) : Nat × Bool :=
  let c := raisedCut m c
  if now + 16000 ≤ c then (c, false) else (now + 16000, true)

/-- Seal a checked set. -/
def sealSet (m : Mach) (x : SealedSet) (late : Bool) : Mach :=
  let m := { m with amd := { m.amd with sets := m.amd.sets ++ [x] } }
  let m := sf m F.AMD_INFO_SEALED [] m.amd.sets.length
  if late then ackEvent m F.AMD_EVT_LATE else m

/-- R349: build, check and seal a Postmaster set with requested cut-over `c`; Busy when sixteen wait, Invalid Input when it
fails its checks. -/
def sealPost (now : Nat) (m : Mach) (items : List AmdItem) (acts : List CutAct) (c : Nat) : Sum Ret Mach :=
  if m.amd.sets.length ≥ 16 then .inl .busy
  else if acts.any (fun a => !actOk (pendingConfig m) (boundAfter m) a) then .inl .invalidInput
  else match checkSet now m items false c true with
    | some _ => .inl .invalidInput
    | none =>
      let (cut, late) := cutFor m now c
      .inr (sealSet m ⟨cut, items, false, acts⟩ late)

/-- A command that becomes a Postmaster set: its failure is its answer; on success it answers `ret`. -/
def postSet (now : Nat) (m : Mach) (who : Iface) (items : List AmdItem) (acts : List CutAct) (c : Nat) (ret : Ret) : Mach :=
  match sealPost now m items acts c with
  | .inl r => answer m who r
  | .inr m => answer m who ret

/-- R348: the address is named by a sealed set that waits. -/
def sealedAddr (m : Mach) (addr : Nat) : Bool := m.amd.sets.any (fun x => x.items.any (fun i => i.addr == addr))

end Sys2Proof.Machine
end

