-- ==== Sys2Proof/Machine/Tenancy.lean ====
section
/-!
DEFINITION. Chapter 09: the dynamic-capacity commands of an FLD's mailbox and of the FM API, sanitize on release, binding and
unbinding.
-/

namespace Sys2Proof.Machine
open Sys2Proof

/-- The blocks that an extent (DPA, length in bytes) of FLD `f` covers: region and extent-table entry of each; none unless
it is a run of whole blocks of one region. -/
def blocksOf (m : Mach) (f : Nat) (x : Nat × Nat) : Option (List (Nat × Nat)) :=
  match (List.range 8).find? (fun r => regionHolds m f r x.1) with
  | none => none
  | some r =>
    let bs := blockSize m f r
    let off := x.1 - gf m F.TEN_RGN_BASE_DPA_BASE [f, r] * 2 ^ 21
    if off % bs != 0 || x.2 == 0 || x.2 % bs != 0 || off / bs + x.2 / bs > gf m F.TEN_RGN_CFG_LEN [f, r] then none
    else some ((List.range (x.2 / bs)).map (fun i => (r, gf m F.TEN_RGN_CFG_FIRST [f, r] + off / bs + i)))

/-- The blocks of a list of extents; none if one of them is not made of whole blocks or two share one. -/
def blocksAll (m : Mach) (f : Nat) (xs : List (Nat × Nat)) : Option (List (Nat × Nat)) :=
  let bs := xs.map (blocksOf m f)
  if bs.any (·.isNone) then none
  else
    let l := (bs.map (·.getD [])).flatten
    if l.eraseDups.length == l.length then some l else none

/-- R219: GET_DYNAMIC_CAPACITY_CONFIGURATION: for each valid region of the FLD its number, DPA base, length in blocks, block
size and SOR. -/
def getDynamicCapacityConfiguration (f : Nat) (_now : Nat) (m : Mach) : Mach :=
  answer m (.fld f) .success (((List.range 8).filter (fun r => gfb m F.TEN_RGN_BASE_VALID [f, r])).map (fun r =>
    [r, gf m F.TEN_RGN_BASE_DPA_BASE [f, r] * 2 ^ 21, gf m F.TEN_RGN_CFG_LEN [f, r], blockSize m f r, gf m F.TEN_RGN_CFG_SOR [f, r]])).flatten

/-- The accessible blocks of FLD `f`: ACTIVE or RELEASING entries, as DPA and size (R224). -/
def extentList (m : Mach) (f : Nat) : List (Nat × Nat) :=
  ((List.range 8).map (fun r =>
    if !gfb m F.TEN_RGN_BASE_VALID [f, r] then []
    else
      let first := gf m F.TEN_RGN_CFG_FIRST [f, r]
      m.regs.filterMap (fun x =>
        if decide (0x6200000 + 8 * first ≤ x.1) && decide (x.1 < 0x6200000 + 8 * (first + gf m F.TEN_RGN_CFG_LEN [f, r]))
            && getBits x.2 63 63 == 1 then
          some (gf m F.TEN_RGN_BASE_DPA_BASE [f, r] * 2 ^ 21 + ((x.1 - 0x6200000) / 8 - first) * blockSize m f r, blockSize m f r)
        else none))).flatten

/-- R219, R231: GET_DYNAMIC_CAPACITY_EXTENT_LIST. -/
def getDynamicCapacityExtentList (f : Nat) (_now : Nat) (m : Mach) : Mach :=
  answer m (.fld f) .success ((extentList m f).map (fun x => [x.1, x.2])).flatten

/-- R228: ADD_DYNAMIC_CAPACITY_RESPONSE of FLD `f`, its doorbell postmarked at `tick`: offered extents accepted and rejected. -/
def addDynamicCapacityResponse (f tick : Nat) (acc rej : List (Nat × Nat)) (now : Nat) (m : Mach) : Mach :=
  match blocksAll m f (acc ++ rej), blocksAll m f acc, blocksAll m f rej with
  | some _, some a, some r =>
    postSet now m (.fld f) (a.map (fun b => extItem b.2 2) ++ r.map (fun b => extItem b.2 0))
      (a.map (fun b => .accept f b.2) ++ r.map (fun b => .reject f b.2)) (expandTick now tick + 16000) .success
  | _, _, _ => answer m (.fld f) .invalidInput

/-- R228: RELEASE_DYNAMIC_CAPACITY of FLD `f`, its doorbell postmarked at `tick`. -/
def releaseDynamicCapacity (f tick : Nat) (xs : List (Nat × Nat)) (now : Nat) (m : Mach) : Mach :=
  match blocksAll m f xs with
  | some l => postSet now m (.fld f) (l.map (fun b => extItem b.2 0)) (l.map (fun b => .released f b.1 b.2))
      (expandTick now tick + 16000) .success
  | none => answer m (.fld f) .invalidInput

/-- R228: INITIATE_DYNAMIC_CAPACITY_ADD; `prescriptive` is the selection policy. -/
def initiateAdd (who : Iface) (f : Nat) (prescriptive : Bool) (xs : List (Nat × Nat)) (now : Nat) (m : Mach) : Mach :=
  match prescriptive, blocksAll m f xs with
  | true, some l => postSet now m who (l.map (fun b => extItem b.2 1)) (l.map (fun b => .offer f b.2)) (now + 16000) .success
  | _, _ => answer m who .invalidInput

/-- R228: INITIATE_DYNAMIC_CAPACITY_RELEASE: a background operation that ends when the host has released every block. -/
def initiateRelease (who : Iface) (f : Nat) (prescriptive forced : Bool) (xs : List (Nat × Nat)) (now : Nat) (m : Mach) : Mach :=
  match prescriptive && !forced, blocksAll m f xs with
  | true, some l =>
    if ((cciOf m who).bg).any (fun b => !b.done) then answer m who .busy
    else match sealPost now m (l.map (fun b => extItem b.2 3)) (l.map (fun b => .recall f b.2)) (now + 16000) with
      | .inl r => answer m who r
      | .inr m => answer (modCci m who (fun c => { c with bg := some ⟨0x5605, l.isEmpty, .success, f, l.map (·.2)⟩ })) who .background
  | _, _ => answer m who .invalidInput

/-- R231: BIND_VPPB: vPPB 1 to 32 of host port `p` to the FLD at that position; vPPB 33 to 48 to member port `q`. -/
def bindVppb (who : Iface) (p v q : Nat) (now : Nat) (m : Mach) : Mach :=
  if role m p != 1 || gfb m F.TEN_PORT_MODEL_MODEL [p] || v == 0 || v > 48 then answer m who .invalidInput
  else if v ≤ 32 then match fldAt m p (v - 1) with
    | some f => postSet now m who [] [.bind f] (now + 16000) .success
    | none => answer m who .invalidInput
  else if role m q != 2 || tget 0 m.vppb (64 * p + v) != 0 || m.vppb.any (fun x => x.2 == q + 1) then answer m who .invalidInput
  else postSet now m who [] [.bindPort p v (q + 1)] (now + 16000) .success

/-- R231: UNBIND_VPPB, alike for each of its three options. -/
def unbindVppb (who : Iface) (p v opt : Nat) (now : Nat) (m : Mach) : Mach :=
  if role m p != 1 || gfb m F.TEN_PORT_MODEL_MODEL [p] || v == 0 || v > 48 || opt > 2 then answer m who .invalidInput
  else if v ≤ 32 then match fldAt m p (v - 1) with
    | some f => postSet now m who [] [.unbind f] (now + 16000) .success
    | none => answer m who .invalidInput
  else if tget 0 m.vppb (64 * p + v) == 0 then answer m who .invalidInput
  else postSet now m who [] [.bindPort p v 0] (now + 16000) .success

/-- R230 step 1: every request of FLD `f` postmarked before `tick` has completed at its home. -/
def earlierDone (m : Mach) (f tick : Nat) : Bool :=
  let early (x : Msg) : Bool := x.fld == some f && tickBefore x.pm.tick tick
  !m.sof.transit.any (fun t => early t.msg) && !m.home.slices.any (fun s => s.2.items.any (fun i => early i.msg && !i.done))
    && !m.sof.queues.any (fun q => (q.2.sorting ++ q.2.settled).any (fun e => early e.msg))
    && !m.eng.parcels.any (fun p => p.fld == f && !p.postmaster && (p.due.any (fun w => tickBefore (tick48 w.tick) tick)
      || (tickBefore (tick48 p.doorbellTick) tick && p.flying.any (fun o => o.via.isSome))))
    && !m.home.splits.any (fun x => early x.msg)
    && !m.sof.recs.any (fun x => x.2.any (fun r => r.via.isSome && r.live && early r.msg))
    && !m.sof.unreceipted.any (fun u => u.via.isSome && early u.msg)

/-- Bytes of the descriptor of a SANITIZE parcel over `n` lines from `a` (R198, R199). -/
def sanitizeDesc (a n : Nat) : List Byte := natLe 8 3 ++ natLe 8 0 ++ natLe 8 a ++ natLe 8 n ++ List.replicate 96 0

/-- R230: SANITIZE_ON_RELEASE: the sanitize of released entry `e` starts. -/
def sanitizeOnRelease (e : Nat) (now : Nat) (m : Mach) : Mach :=
  match m.eng.toSanitize.find? (fun x => x.2.2.1 == e) with
  | none => m
  | some (f, r, _, tick) =>
    if !earlierDone m f tick then m
    else
      let m := { m with eng := { m.eng with toSanitize := m.eng.toSanitize.filter (fun x => x.2.2.1 != e) } }
      admitParcel now m f 0 (sanitizeDesc (gf m F.TEN_EXT_POOL [e] * 2 ^ 21) (blockSize m f r / 64)) now 2 true e

/-- The meaning of SANITIZE_ON_RELEASE. -/
def execSanitizeOnRelease (e : Nat) (s : State) := onMach (sanitizeOnRelease e) s

/-- R355: SET_DC_REGION_CONFIGURATION: block size code and sanitize on release of region `r` of FLD `f`, as a Postmaster set. -/
def setDcRegion (who : Iface) (f r bsz : Nat) (sor : Bool) (now : Nat) (m : Mach) : Mach :=
  if r ≥ 8 || bsz > 9 || f ≥ 4096 then answer m who .invalidInput
  else postSet now m who [⟨BitVec.ofNat 64 (bsz * 2 ^ 60 + b2n sor), BitVec.ofNat 64 (15 * 2 ^ 60 + 1), regAddr Reg.TEN_RGN_CFG [f, r]⟩] []
    (now + 16000) .success

/-- R62: PBR_ID_ASSIGNMENT: the local ID of edge port `p` in the port-based model. A port that is no edge port, and an ID that is reserved or in
use, are answered Invalid Input (DESIGN CHOICE: log entry 173). -/
def pbrAssign (who : Iface) (p local_ : Nat) (_now : Nat) (m : Mach) : Mach :=
  if (role m p != 1 && role m p != 2) || local_ ≥ 4080 || (livePorts m).any (fun q => q != p && (role m q == 1 || role m q == 2)
      && gf m F.RTE_PORT_ID_LOCAL [q] == local_) then answer m who .invalidInput
  else answer (sf m F.RTE_PORT_ID_LOCAL [p] local_) who .success

/-! ### Guard barrier (R251) -/

/-- R251: a write to PENDING in GRD_BARRIER. -/
def grdBarrier (v : Bool) (_now : Nat) (m : Mach) : Mach := setBarrier m v

/-- The meaning of GRD_BARRIER. -/
def execGrdBarrier (v : Bool) (s : State) := onMach (grdBarrier v) s

/-- R251: BARRIER_COMPLETE: every later check uses the rule words written before the barrier started. -/
def barrierComplete (_now : Nat) (m : Mach) : Mach :=
  if gfb m F.GRD_BARRIER_PENDING then
    { sf m F.GRD_BARRIER_PENDING [] 0 with amd := { m.amd with rules := m.amd.rules.filter (fun x => !x.covered) } }
  else m

/-- The meaning of BARRIER_COMPLETE. -/
def execBarrierComplete (s : State) := onMach barrierComplete s

end Sys2Proof.Machine
end

