-- ==== Sys2Proof/Machine/Startup.lean ====
section
/-!
DEFINITION. Firmware slots and their boot (R378-R384); the configuration read and steps 5 to 8 of start-up (R324, R333, R335-R337);
what a cold and a warm reset leave (R14, R326).
-/

namespace Sys2Proof.Machine
open Sys2Proof

/-! ### Firmware slots (R378-R383) -/

/-- Offset of firmware slot `k` in MRAM (R327). -/
def fwSlot (k : Nat) : Nat := 0x2000000 * (k % 2)

/-- Offset of its slot record (R382). -/
def fwRecordAt (k : Nat) : Nat := fwSlot k + 0x1FFF000

/-- "HKSR" and "HKFW". -/
def hksr : List Byte := [0x48, 0x4B, 0x53, 0x52]
def hkfw : List Byte := [0x48, 0x4B, 0x46, 0x57]

/-- R382: SSTATE and COMMIT_SEQ of a slot; a record that fails its CRC reads as empty. -/
def fwRecord (mram : List Host.Cell) (k : Nat) : Nat × Nat :=
  let b := mread mram (fwRecordAt k) 20
  if b.take 4 == hksr && leAt b 16 4 == crc32c (b.take 16) then (leAt b 4 1, leAt b 8 8) else (0, 0)

/-- MRAM with a slot's record written. -/
def putFwRecord (mram : List Host.Cell) (k state seq : Nat) : List Host.Cell :=
  let b := hksr ++ natLe 4 state ++ natLe 8 seq
  mwrite mram (fwRecordAt k) (b ++ natLe 4 (crc32c b))

/-- The 256-byte bundle header in a slot (R378). -/
def fwHeader (mram : List Host.Cell) (k : Nat) : List Byte := mread mram (fwSlot k) 256

/-- Header fields (R378). -/
def fwLength (h : List Byte) : Nat := leAt h 8 4
def fwBlocks (h : List Byte) : Nat := leAt h 12 4
def fwOff (h : List Byte) : Nat := leAt h 16 4
def fwVersion (h : List Byte) : Nat := leAt h 20 4
def fwCourier (h : List Byte) : Nat := leAt h 24 2
def fwOldest (h : List Byte) : Nat := leAt h 26 2
def fwNewest (h : List Byte) : Nat := leAt h 28 2
def fwSvn (h : List Byte) : Nat := leAt h 30 2
def fwFloor (h : List Byte) : Nat := leAt h 32 2
def fwUcVersion (h : List Byte) : Nat := leAt h 52 4
def fwSigOff (h : List Byte) : Nat := leAt h 56 4

/-- R381: the bundle is malformed; `table` is its block check table. -/
def fwMalformed (h table : List Byte) : Bool :=
  let zeros (i n : Nat) : Bool := (bytesAt h i n).all (· == 0)
  h.take 4 != hkfw || leAt h 4 2 != 1 || leAt h 252 4 != crc32c (h.take 252) || leAt h 248 4 != crc32c table
    || !zeros 6 2 || !zeros 34 2 || !zeros 60 68 || !zeros 192 56
    || fwLength h % 4096 != 0 || decide (fwLength h < 16384) || decide (33550336 < fwLength h) || fwOff h != dataOff (fwBlocks h)
    || fwLength h != fwOff h + 4096 * fwBlocks h
    || decide (fwCourier h < fwOldest h + 1) || decide (fwNewest h < fwCourier h + 1) || decide (fwSvn h < fwFloor h)

/-- The block check table of a slot (R379). The LENGTH that a bundle may have bounds it. -/
def fwTable (mram : List Host.Cell) (k : Nat) : List Byte := mread mram (fwSlot k + 256) (4 * min 8191 (fwBlocks (fwHeader mram k)))

/-- R379: block `i` of slot `k` agrees with its table entry. -/
def fwBlockOk (mram : List Host.Cell) (k i : Nat) : Bool :=
  mnat mram (fwSlot k + 256 + 4 * i) 4 == crc32c (mread mram (fwSlot k + fwOff (fwHeader mram k) + 4096 * i) 4096)

/-- R380: ALG is 1, the reserved bytes are zero, and both signatures verify. -/
def fwSigned (mram : List Host.Cell) (k : Nat) (sig : Bool) : Bool :=
  let a := mread mram (fwSlot k + fwSigOff (fwHeader mram k)) 8
  sig && leAt a 0 4 == 1 && leAt a 4 4 == 0

/-- R383: the ROM's checks of slot `k`. -/
def fwPasses (s : State) (k : Nat) (sig : Bool) : Bool :=
  let h := fwHeader s.mram k
  !fwMalformed h (fwTable s.mram k) && (List.range (fwBlocks h)).all (fwBlockOk s.mram k) && fwSigned s.mram k sig
    && decide (s.nvm.minSvn ≤ fwSvn h)

/-- A firmware event (R373; chapter 17): INSTANCE, FW_VERSION, REASON and station. -/
def fwEvent (now : Nat) (m : Mach) (inst version reason station : Nat) : Mach :=
  event m now 0x40 (if inst ≤ 3 then 0 else 1) inst pmNone (version + reason * 2 ^ 32 + station * 2 ^ 48)

/-- The Postmaster runs the bundle of slot `k`, on trial or not. -/
def showRunning (s : State) (k : Nat) : State :=
  let h := fwHeader s.mram k
  let m := { s.m with fw := { s.m.fw with run := k, recovery := false, oldest := fwOldest h, newest := fwNewest h } }
  { s with m := sf (sf m F.MBX_FW_INFO_RUN_VERSION [] (fwVersion h)) F.MBX_FW_INFO_RUN_COURIER [] (fwCourier h) }

/-- The Postmaster runs the committed bundle of slot `k`. -/
def runFirmware (s : State) (k : Nat) : State :=
  let s := showRunning s k
  { s with m := sf s.m F.MBX_FW_UCODE_UC_VERSION [] (fwUcVersion (fwHeader s.mram k)) }

/-- R383: a reset that finds slot `k` in state 2 reverts its trial. -/
def revertTrial (s : State) (k : Nat) : State :=
  let r := fwRecord s.mram k
  if r.1 != 2 then s
  else
    { s with mram := putFwRecord s.mram k 5 r.2
             m := fwEvent s.time.now.toNat s.m 4 (fwVersion (fwHeader s.mram k)) 0x80F 0 }

/-- R383: the mask ROM boots the first slot that passes, in descending COMMIT_SEQ; with none the device stays in ROM recovery. -/
def bootRom (s : State) (f : BootFacts) : State :=
  let s := revertTrial (revertTrial s 0) 1
  let order := if (fwRecord s.mram 0).2 < (fwRecord s.mram 1).2 then [1, 0] else [0, 1]
  let may (k : Nat) : Bool := let st := (fwRecord s.mram k).1
    (st == 3 || st == 4) && fwPasses s k (if k == 0 then f.fwSig0 else f.fwSig1)
  match order.find? may with
  | some k => runFirmware s k
  | none => { s with m := { s.m with fw := { s.m.fw with recovery := true } } }

/-! ### Cold reset (R13, R14) -/

/-- What fuses and the identity region show in registers. -/
def identity (s : State) : State :=
  let m := sf (sf (sf s.m F.GLB_ID_VENDOR [] s.nvm.vendor) F.GLB_ID_STEP_MAJOR [] (s.nvm.step / 16)) F.GLB_ID_STEP_MINOR [] s.nvm.step
  let m := sf (sf m F.SEC_LIFECYCLE_STATE [] s.nvm.lifecycle) F.SEC_LIFECYCLE_SERIAL [] s.nvm.serial
  let m := sf (sf m F.SEC_OWNER_OWNER [] (b2n (s.nvm.ownerKey != []))) F.SEC_OWNER_CHAIN1 [] (b2n (s.nvm.ownerChain != []))
  let m := sf (sf m F.MBX_BRUMIN_MAC [] s.nvm.mac) F.MBX_FW_INFO_MIN_SVN [] s.nvm.minSvn
  { s with m := m }

/-- R14, R29, R383, R444: a cold reset: every register at its reset value, Fabric Time 0, BOOT one higher; the ROM boots. -/
def coldReset (f : BootFacts) (s : State) : State :=
  let nvm := { s.nvm with boot := (s.nvm.boot + 1) % 65536, plogNext := plogNextAtBoot s.mram }
  bootRom (identity { time := {}, mram := s.mram, nvm := nvm, m := { free := s.m.free, boot := f, inl := { on := true } }, pending := s.pending }) f

/-! ### The configuration read: steps 5 to 7 (R324, R332-R337) -/

/-- R435: the Mailbag loses the share of one of `n` stacks. -/
def shrinkMailbag (m : Mach) (n : Nat) : Mach := sf m F.SOF_MAILBAG_SIZE [] (gf m F.SOF_MAILBAG_SIZE * (n - 1) / n)

/-- Stacks in service. -/
def stacksLeft (m : Mach) : List Nat := (List.range 8).filter (fun b => !bitAt (gf m F.RAS_AVAIL_HBM_LOST) b)

/-- R435, R437: stack `b` is lost: its bit, its share of the Mailbag, its entry, and Carbon sets with no storage left. -/
def markLost (now : Nat) (m : Mach) (b restored poisoned : Nat) : Mach :=
  let m := shrinkMailbag m (stacksLeft m).length
  let m := sf m F.RAS_AVAIL_HBM_LOST [] (gf m F.RAS_AVAIL_HBM_LOST ||| 2 ^ b)
  let m := rasLog m now 0x06 2 b pmNone 0 0 0 0 (restored % 2 ^ 32 + poisoned % 2 ^ 32 * 2 ^ 32)
  if bitAt (gf m F.RAS_AVAIL_HBM_LOST) (b ^^^ 4) then { m with home := { m.home with noStorage := m.home.noStorage ++ [b, b ^^^ 4] } } else m

/-- Step 6 (R324, R333): HBM trained; every slice served by its own quadrant; the letters of the shared pool free. -/
def startHbm (now : Nat) (f : BootFacts) (m : Mach) : Mach :=
  let m := ((List.range 8).filter (fun b => !bitAt f.hbm b)).foldl (fun m b => markLost now m b 0 0) m
  let m := (List.range 4).foldl (fun m q => sf (sf m F.HQ_SLICE_MAP_ACTIVE [q] 65535) F.HQ_SLICE_MAP_SERVED_BY [q] q) m
  sf m F.SOF_FREE_LOW [] poolB

/-- R267, R268: the sideband lands of port `p` as its role takes effect. -/
def takeRole (now : Nat) (m : Mach) (p : Nat) : Mach :=
  let k := portOf m p
  match role m p with
  | 1 => hostPresent now (sf m F.STN_LINK_STATUS_PERST (st p) (b2n k.perstLow)) p
  | 2 => sf (drivePerst now m p true) F.STN_LINK_STATUS_PRSNT (st p) (b2n k.prsnt)
  | 3 => sf (sf m F.STN_LINK_STATUS_PERST (st p) 0) F.STN_LINK_STATUS_PRSNT (st p) (b2n k.prsnt)
  | _ => m

/-- Step 7 (R421, R266, R231): configured domains turn on, planes off by configuration are shown so, ports take their roles, and
the FLDs of port-based hosts with BIND set are bound. -/
def startStations (now : Nat) (m : Mach) : Mach :=
  let on := rd m Reg.INL_PD_CTL
  let m := (List.range 24).foldl (fun m d => if on.getLsbD d then setDomain m d 1 else m) m
  let m := (List.range 4).foldl (fun m n => if on.getLsbD (20 + n) then m else sf m (planeField n) [] 2) m
  let m := (livePorts m).foldl (takeRole now) m
  ((enabledFlds m).filter (fun f => gfb m F.TEN_FLD_CFG_BIND [f] && gfb m F.TEN_PORT_MODEL_MODEL [gf m F.TEN_FLD_CFG_PORT [f]])).foldl bindFld m

/-- R337: safe mode at board position `b`. -/
def enterSafe (m : Mach) (b : Nat) : Mach :=
  let m := sf (sf m F.RTE_SELF_VALID [] 0) F.RTE_SELF_BOARD_ID [] b
  let m := sf (sf m F.AMD_CFG_SLOT_SAFE [] 1) F.GLB_STATUS_SAFE [] 1
  sf m F.GLB_STATUS_STEP [] 5

/-- R335, R336: the slot that is taken with its records, and the first failed test of slots 0 and 1. -/
def chooseSlot (s : State) (f : BootFacts) : Option (Nat × List ImgRec) × Nat × Nat :=
  let owner := gfb s.m F.SEC_OWNER_OWNER
  let test (k : Nat) := slotFault s.mram s.m k (f.board % 16) (if k == 0 then f.cfgSig0 else f.cfgSig1) owner true
  let fav := if slotSeq s.mram 0 < slotSeq s.mram 1 then 1 else 0
  let a := test fav
  if a.1 == 0 then (some (fav, a.2), 0, 0)
  else
    let b := test (1 - fav)
    let faults := if fav == 0 then (a.1, b.1) else (b.1, a.1)
    if b.1 == 0 then (some (1 - fav, b.2), faults) else (none, faults)

/-- Steps 5 to 7: the configuration is read; `limit` ticks remain to step 8 (R324, R326). -/
def readConfig (f : BootFacts) (limit : Nat) (s : State) : State :=
  let now := s.time.now.toNat
  let (pick, f0, f1) := chooseSlot s f
  let m := sf (sf s.m F.AMD_CFG_SLOT_FAULT0 [] f0) F.AMD_CFG_SLOT_FAULT1 [] f1
  let m := sf (sf m F.AMD_SLOT_SEQ0_SEQUENCE [] (slotSeq s.mram 0)) F.AMD_SLOT_SEQ1_SEQUENCE [] (slotSeq s.mram 1)
  let m := { m with boot := f }
  match pick with
  | none => { s with m := wmFresh now (enterSafe m (f.board % 16)) }
  | some (k, rs) =>
    let m := sf (sf m F.AMD_CFG_SLOT_SAFE [] 0) F.AMD_CFG_SLOT_ACTIVE [] k
    let m := sf (sf (formConfig m (f.board % 16) rs) F.GLB_STATUS_SAFE [] 0) F.GLB_STATUS_STEP [] 7
    { s with m := wmFresh now { startStations now (startHbm now f m) with step8 := now + limit + 1 } }

/-! ### Step 8 (R277, R278, R324, R325) -/

/-- Every host and member port that exists has its link up. -/
def allTrained (m : Mach) : Bool :=
  (livePorts m).all (fun p => role m p == 3 || gfb m F.STN_LINK_STATUS_DL_UP (st p))

/-- R278: a member port that has not trained by step 8 is contained. -/
def untrained (now : Nat) (m : Mach) (p : Nat) : Mach :=
  if role m p == 2 && !gfb m F.STN_LINK_STATUS_DL_UP (st p) && (portOf m p).fresh then
    let m := sf (sf m F.STN_LINK_STATUS_JOIN_FAIL (st p) 6) F.RAS_FENCE_FSTATE [p] 2
    setLink now (modPort m p (fun k => { k with fresh := false })) p F.STN_LINK_STATUS_CONTAINED 1
  else m

/-- Step 8: host ports and Courier links become ready; Fabric Time is loaded no more (R29). -/
def reachStep8 (s : State) : State :=
  let now := s.time.now.toNat
  if gf s.m F.GLB_STATUS_STEP == 7 && s.m.step8 != 0 && (allTrained s.m || decide (s.m.step8 ≤ now + 1)) then
    let m := { sf s.m F.GLB_STATUS_STEP [] 8 with step8 := 0 }
    let m := (livePorts m).foldl (fun m p => if role m p == 3 then courierReady now m p else untrained now (hostReady now m p) p) m
    { s with m := m, time := { s.time with locked := true } }
  else s

/-! ### Warm reset (R14, R326) -/

/-- Registers of the always-on domain: the inlet guard's, the Postmaster's, and the identity; ports' IDE status is not. -/
def alwaysOn (a : Nat) : Bool :=
  decide (a < 0x200000) || (decide (0xC000000 ≤ a) && decide (a < 0xF000000) && !(decide (0xC001000 ≤ a) && decide (a < 0xC002000)))

/-- What a warm reset leaves of the registers: the always-on ones, with the fields whose Reset is cfg at their defaults, and the words
of locked guard rules (R249). -/
def keptRegs (m : Mach) : Table Word :=
  m.regs.filterMap (fun x =>
    if lockedRuleWord m x.1 then some x
    else if !alwaysOn x.1 then none
    else match regFind x.1 with
      | none => none
      | some (r, _) =>
        let c := BitVec.ofNat 64 r.cfg
        let w := (x.2 &&& ~~~c) ||| (BitVec.ofNat 64 r.rst &&& c)
        if w == BitVec.ofNat 64 r.rst then none else some (x.1, w))

/-- The input levels at the lands of the ports. -/
def keptPorts (m : Mach) : Table PortSt :=
  m.ports.foldl (fun t x => tset {} t x.1 { perstLow := x.2.perstLow, prsnt := x.2.prsnt, presentSince := x.2.presentSince }) []

/-- A long operation that a warm reset cuts off ends as aborted. -/
def cutOff (m : Mach) (state reason : FieldRef) (st why : Nat) : Mach :=
  if gf m state == 1 || gf m state == 2 then sf (sf m state [] st) reason [] why else m

/-- R14, R326, R366, R388, R454, R456: the machine after a warm reset, before the configuration is read again. -/
def warmMach (m : Mach) (cause : Nat) (f : BootFacts) : Mach :=
  let trial := m.fw.act == 4
  let n : Mach := {
    regs := keptRegs m, free := m.free, ports := keptPorts m, replies := m.replies, brumin := m.brumin,
    logs := { rasSeq := m.logs.rasSeq, evSeq := m.logs.evSeq }, i3cAddr := m.i3cAddr, eids := m.eids, tids := m.tids,
    fw := { run := m.fw.run, recovery := m.fw.recovery, oldest := m.fw.oldest, newest := m.fw.newest, faulted := m.fw.faulted },
    sec := { nonce := m.sec.nonce, expired := m.sec.expired, extest := m.sec.extest }, inl := { m.inl with lost := false }, boot := f, sensed := m.sensed }
  let n := sf n F.RAS_AVAIL_PM_PAIRS [] (gf m F.RAS_AVAIL_PM_PAIRS)
  let n := sf (sf n F.INL_PD_STATUS_STATE [] 0) F.MBX_STATUS_HANDOVER [] 0
  let n := sf (sf n F.SEC_TSP_LOCK [] 0) F.SEC_DEBUG_ACTIVE [] 0
  let n := wr (sf n F.SEC_DEBUG_PERMS [] 0) Reg.SEC_TSP_STATUS [] 0
  let n := wr n Reg.AMD_INFO [] 0
  let n := cutOff n F.AMD_STATUS_STATE F.AMD_STATUS_REASON 5 0
  let n := cutOff n F.AMD_PERSIST_STATUS_STATE F.AMD_PERSIST_STATUS_REASON 5 0
  let n := cutOff n F.MBX_IMG_STATUS_STATE F.MBX_IMG_STATUS_REASON 5 0
  let n := cutOff n F.MBX_FW_XFER_STATUS_STATE F.MBX_FW_XFER_STATUS_REASON 5 0
  let n := cutOff n F.MBX_FW_ACT_STATUS_STATE F.MBX_FW_ACT_STATUS_REASON (if trial then 4 else 5) (if trial then 0x80F else 0)
  let n := sf (sf n F.GLB_STATUS_LAST_RESET [] cause) F.GLB_STATUS_WARM_COUNT [] ((gf m F.GLB_STATUS_WARM_COUNT + 1) % 65536)
  sf n F.GLB_STATUS_STEP [] 4

/-- R383: a warm reset that finds slot `k` in state 2 reverts its trial: the other slot's firmware runs again. -/
def warmRevert (s : State) (k : Nat) : State :=
  if (fwRecord s.mram k).1 == 2 then runFirmware (revertTrial s k) (1 - k) else s

/-- R14, R326: a warm reset with a LAST_RESET cause, `limit` ticks before step 8. In ROM recovery steps 5 to 8 do not run (R383). -/
def warmReset (cause limit : Nat) (f : BootFacts) (s : State) : State :=
  let s := warmRevert (warmRevert { s with m := warmMach s.m cause f } 0) 1
  if s.m.fw.recovery then s else readConfig f limit s

/-- R411, R425: the main path goes down: everything outside the always-on domain is without power. -/
def mainPathDown (m : Mach) : Mach :=
  let m := { m with
    regs := m.regs.filter (fun x => !(decide (0x1000000 ≤ x.1) && decide (x.1 < 0x2000000) && decide (0x200 ≤ x.1 % 0x80000)))
    sof := {}, home := {}, eng := {}, hdm := [], vppb := [], pmReqs := [], sched := [], courier := [], ports := keptPorts m,
    cci := [], step8 := 0 }
  let m := { sf m F.INL_PD_STATUS_STATE [] 0 with inl := { m.inl with lost := true } }
  sf m F.GLB_STATUS_STEP [] (min 4 (gf m F.GLB_STATUS_STEP))

/-- R481: the cause that LAST_RESET names among warm resets asked for: the earlier tick, and RST_N on a tie. -/
def resetCause (rs : List (Nat × Nat)) : Nat :=
  let asked (r : Nat × Nat) : Nat := if r.1 == 3 then r.2 - 4000000 else if r.1 == 4 then r.2 - 40000000 else r.2
  match lbest (fun a b => decide (asked a < asked b) || (asked a == asked b && a.1 == 2)) rs with
  | some r => r.1
  | none => 0

end Sys2Proof.Machine
end

