-- ==== Sys2Proof/Machine/Inlet.lean ====
section
/-!
DEFINITION. Chapter 19: the inlet guard: start-up of the main path, the resistor model, the current limit and fault timer, trips,
lockouts, EN, power-good, and temperature; and the resets that power brings.
-/

namespace Sys2Proof.Machine
open Sys2Proof

/-! ### The guard's state (R409, R413, R415) -/

/-- The machine with the guard changed. -/
def modInl (m : Mach) (f : Inl → Inl) : Mach := { m with inl := f m.inl }

/-- STATE in INL_STATUS. -/
def guardState (g : Inl) : Nat :=
  if g.latched then 5 else if !g.en then 0 else if g.lockout != 0 then 5 + g.lockout else 1 + g.gate

/-- The machine with STATE shown. -/
def showGuard (m : Mach) : Mach := sf m F.INL_STATUS_STATE [] (guardState m.inl)

/-- The heat of the resistor model at `up`, in 0.01 J / 8,000,000,000: it falls by 0.035 J each second (R413). -/
def heatNow (g : Inl) (up : Nat) : Nat := if g.gate == 1 then g.heat else g.heat - 7 * (up - g.heatAt)

/-- R413: 4.4 J. -/
def heatLimit : Nat := 440 * 8000000000

/-- R413: a pre-charge ends: H has risen by 2.2 J or the energy `e`, in 0.01 J, whichever is larger. -/
def endPrecharge (m : Mach) (up e : Nat) : Mach :=
  if m.inl.gate == 1 then modInl m (fun g => { g with heat := g.heat + max 220 e * 8000000000, heatAt := up }) else m

/-- The fault timer at `up` in eighths of a tick: up while the limit is active, down at one eighth of that rate (R415). -/
def timerNow (m : Mach) (up : Nat) : Nat :=
  let d := up - m.inl.timerAt
  if gfb m F.INL_STATUS_LIMIT then m.inl.timer + 8 * d else m.inl.timer - d

/-- R415: the limit of the fault timer. -/
def timerLimit (m : Mach) : Nat := gf m F.INL_CTL_FAULT_TIME * 16000000

/-- The timer brought to `up`, and LIMIT set or cleared. -/
def setLimit (m : Mach) (up : Nat) (on : Bool) : Mach :=
  let t := timerNow m up
  sf (modInl m (fun g => { g with timer := t, timerAt := up })) F.INL_STATUS_LIMIT [] (b2n on)

/-- A 16-bit signed field. -/
def signedField (v : Int) : Nat := (v % 65536).toNat

/-- DETAIL of a guard event (R428). -/
def guardDetail (m : Mach) : Nat :=
  gf m F.INL_STATUS_CAUSES + gf m F.INL_MEAS_VIN * 2 ^ 16 + gf m F.INL_MEAS_IIN * 2 ^ 32

/-- R412, R418, R420: the gate turns off: PWRGD_OUT deasserts, a pre-charge ends, and a main path that was up goes down. -/
def gateOff (m : Mach) (up e : Nat) : Mach :=
  let m := setLimit (endPrecharge m up e) up false
  let was := gfb m F.INL_STATUS_PWRGD
  let m := sf (modInl m (fun g => { g with gate := 0, since := up })) F.INL_STATUS_PWRGD [] 0
  if was then mainPathDown m else m

/-! ### Trips (R414-R419, R427) -/

/-- The causes that the stored readings show at `up`, as bits of CAUSES (R418). -/
def causesNow (m : Mach) (up : Nat) : Nat :=
  let valid := gfb m F.INL_STATUS_SENSOR_VALID
  (if gfb m F.INL_STATUS_LIMIT && decide (timerLimit m ≤ timerNow m up) then 1 else 0)
    ||| (if valid && decide (1500 ≤ signed16 (gf m F.INL_TEMP_FET_SENSOR)) then 4 else 0)
    ||| (if !valid && decide (1400 ≤ signed16 (gf m F.INL_TEMP_FET_MODEL)) then 8 else 0)
    ||| (if m.inl.gate == 1 && decide (m.inl.since + 400000000 ≤ up) then 16 else 0)
    ||| (if decide (1100 ≤ signed16 (gf m F.INL_THERM_TJ)) then 32 else 0)

/-- R418, R419: the guard latches off at `up` with the causes `causes` recorded, the lowest of them in CAUSE. -/
def latchOff (causes up e : Nat) (m : Mach) : Mach :=
  let low := ((List.range 6).find? (fun k => bitAt causes k)).getD 0 + 1
  let m := sf (sf m F.INL_STATUS_CAUSES [] causes) F.INL_STATUS_CAUSE [] low
  let m := gateOff (ackEvent m F.INL_STATUS_TRIP) up e
  showGuard (modInl m (fun g => { g with latched := true, tripAt := up, lost := true, faultN := true, thermN := g.thermN || bitAt causes 5 }))

/-- R418, R419: the guard trips: it latches off, with `bit` and every cause that holds recorded. -/
def trip (bit e : Nat) (s : State) : State :=
  if !s.m.inl.on || s.m.inl.latched then s
  else
    let now := s.time.now.toNat
    let causes := causesNow s.m s.time.up ||| bit
    let m := latchOff causes s.time.up e s.m
    let s := rasFatal 0x18 0 causes { s with m := event m now 0x30 3 1 pmNone (guardDetail m) }
    if bitAt causes 5 then
      let tj := gf s.m F.INL_THERM_TJ
      rasFatal 0x19 0 tj { s with m := event s.m now 0x31 3 3 pmNone tj }
    else s

/-- A command's outcome with the watermark monitors judged on what it changed (R370). -/
def nextW (s : State) : Host.Outcome State Fault Refusal := .next { s with m := wmAll s.time.now.toNat s.m }

/-- R419: the latch clears, and the guard starts again from step 2. -/
def clearLatch (now : Nat) (m : Mach) : Mach :=
  if !m.inl.latched then m
  else
    let m := showGuard (modInl m (fun g => { g with latched := false, faultN := false, thermN := false, gate := 0 }))
    event m now 0x30 0 4 pmNone (guardDetail m)

/-! ### Power and start-up (R409-R411, R420) -/

/-- VIN_RISE: VIN stands above 38 V, `vin` in 0.1 V, with EN at a level. Where the always-on domain was down this is a cold
reset (R14, R411); otherwise a lockout ends by LOCKOUT_END. -/
def execVinRise (vin : Nat) (en : Bool) (f : BootFacts) (s : State) : Host.Outcome State Fault Refusal :=
  if s.m.inl.on || vin ≤ 380 then .next s
  else
    let s := coldReset f s
    nextW { s with m := showGuard (modInl (sf (sf s.m F.INL_MEAS_VIN [] vin) F.INL_STATUS_SENSOR_VALID [] 1) (fun g => { g with en := en })) }

/-- AON_LOSS: VIN falls below 30 V (R411): nothing but MRAM, fuses and the waiting commands outlives it. -/
def execAonLoss (s : State) : Host.Outcome State Fault Refusal :=
  .next { mram := s.mram, nvm := s.nvm, m := { free := s.m.free }, pending := s.pending }

/-- PRECHARGE_START: EN is high, no lockout or latch holds, and the resistor model allows the pre-charge (R409, R413). -/
def execPrechargeStart (s : State) : Host.Outcome State Fault Refusal :=
  let up := s.time.up
  if s.m.inl.on && guardState s.m.inl == 1 && decide (heatNow s.m.inl up ≤ heatLimit) then
    .next { s with m := showGuard (modInl s.m (fun g => { g with gate := 1, since := up, step2 := up, heat := heatNow g up, heatAt := up })) }
  else .next s

/-- PRECHARGE_COMPLETE: VOUT reaches 92 % of VIN within 100 ms, `e` the pre-charge's energy in 0.01 J; the gate ramp begins. -/
def execPrechargeComplete (e : Nat) (s : State) : Host.Outcome State Fault Refusal :=
  let up := s.time.up
  if guardState s.m.inl == 2 && decide (up ≤ s.m.inl.since + 400000000) then
    .next { s with m := showGuard (modInl (endPrecharge s.m up e) (fun g => { g with gate := 2, since := up })) }
  else .next s

/-- PRECHARGE_TIMEOUT: 100 ms have passed since the pre-charge began (R414). -/
def execPrechargeTimeout (e : Nat) (s : State) : Host.Outcome State Fault Refusal :=
  if guardState s.m.inl == 2 && decide (s.m.inl.since + 400000000 ≤ s.time.up) then nextW (trip 16 e s) else .next s

/-- GATE_RAMP_DONE: the gate is fully on. -/
def execGateRampDone (s : State) : Host.Outcome State Fault Refusal :=
  if guardState s.m.inl == 3 then .next { s with m := showGuard (modInl s.m (fun g => { g with gate := 3, since := s.time.up })) } else .next s

/-- The main path is up and the device runs from it (R420). -/
def powered (m : Mach) : Bool := gfb m F.INL_STATUS_PWRGD

/-- R411, R468: what PWRGD_OUT starts: steps 5 to 8 for the first time, or as for a warm reset. -/
def powerUp (f : BootFacts) (s : State) : State :=
  if s.m.fw.recovery then s
  else if s.m.inl.lost then warmReset (resetCause ((5, s.time.now.toNat) :: s.m.resets)) (2400000000 - (s.time.up - s.m.inl.step2)) f s
  else readConfig f (2400000000 - s.time.up) { s with m := { s.m with resets := [] } }

/-- PWRGD_ASSERT: the gate is fully on, VOUT stands at 95 % of VIN, and the limit has been inactive for 1 ms (R420). -/
def execPwrgdAssert (f : BootFacts) (s : State) : Host.Outcome State Fault Refusal :=
  if guardState s.m.inl == 4 && !powered s.m && !gfb s.m F.INL_STATUS_LIMIT && decide (s.m.inl.since + 4000000 ≤ s.time.up) then
    let m := sf s.m F.INL_STATUS_PWRGD [] 1
    nextW (powerUp f { s with m := event m s.time.now.toNat 0x30 0 5 pmNone (guardDetail m) })
  else .next s

/-! ### Lockouts and EN (R410, R412, R419) -/

/-- R410: a lockout begins, or changes its kind. -/
def lockoutBegin (kind vin e : Nat) (s : State) : Host.Outcome State Fault Refusal :=
  if !s.m.inl.on || s.m.inl.lockout == kind then .next s
  else
    let up := s.time.up
    let m := gateOff (ackEvent (sf s.m F.INL_MEAS_VIN [] vin) F.INL_EVT_LOCKOUT) up e
    let m := showGuard (modInl m (fun g => { g with lockout := kind, lockAt := up, timer := 0, timerAt := up, lost := true }))
    nextW { s with m := event m s.time.now.toNat 0x30 2 2 pmNone (guardDetail m + kind * 2 ^ 48) }

/-- UVLO: VIN, in 0.1 V, is below 36 V. -/
def execUvlo (vin e : Nat) (s : State) : Host.Outcome State Fault Refusal := if vin < 360 then lockoutBegin 1 vin e s else .next s

/-- OVLO: VIN is above 62 V. -/
def execOvlo (vin e : Nat) (s : State) : Host.Outcome State Fault Refusal := if 620 < vin then lockoutBegin 2 vin e s else .next s

/-- LOCKOUT_END: VIN has stayed between 38 V and 60.5 V for 10 ms. -/
def execLockoutEnd (vin : Nat) (s : State) : Host.Outcome State Fault Refusal :=
  if s.m.inl.lockout != 0 && decide (380 < vin) && decide (vin < 605) && decide (s.m.inl.lockAt + 40000000 ≤ s.time.up) then
    let m := showGuard (modInl (sf s.m F.INL_MEAS_VIN [] vin) (fun g => { g with lockout := 0 }))
    nextW { s with m := event m s.time.now.toNat 0x30 0 3 pmNone (guardDetail m) }
  else .next s

/-- EN_FALL: the gate turns off; EN low is no trip (R412). -/
def execEnFall (e : Nat) (s : State) : Host.Outcome State Fault Refusal :=
  if !s.m.inl.on || !s.m.inl.en then .next s
  else nextW { s with m := showGuard (modInl (gateOff s.m s.time.up e) (fun g => { g with en := false, enFell := s.time.up })) }

/-- EN_RISE: the guard starts again from step 2; a latch clears where EN was low for 10 ms from the later of its fall and the
trip (R412, R419). -/
def execEnRise (s : State) : Host.Outcome State Fault Refusal :=
  if !s.m.inl.on || s.m.inl.en then .next s
  else
    let held := decide (max s.m.inl.enFell s.m.inl.tripAt + 40000000 ≤ s.time.up)
    let m := showGuard (modInl s.m (fun g => { g with en := true }))
    nextW { s with m := if held then clearLatch s.time.now.toNat m else m }

/-! ### Current limit (R415, R416) -/

/-- CURRENT_LIMIT_ENGAGE: the limit holds the input current from the start of the gate ramp. -/
def execCurrentLimitEngage (s : State) : Host.Outcome State Fault Refusal :=
  if (guardState s.m.inl == 3 || guardState s.m.inl == 4) && !gfb s.m F.INL_STATUS_LIMIT then .next { s with m := setLimit s.m s.time.up true }
  else .next s

/-- CURRENT_LIMIT_RELEASE: the limit goes inactive; until PWRGD_OUT has asserted its 1 ms starts again (R420). -/
def execCurrentLimitRelease (s : State) : Host.Outcome State Fault Refusal :=
  if gfb s.m F.INL_STATUS_LIMIT then
    .next { s with m := modInl (setLimit s.m s.time.up false) (fun g => { g with since := s.time.up }) }
  else .next s

/-- FAULT_TIMER_TRIP: the fault timer has reached its limit (R415). -/
def execFaultTimerTrip (s : State) : Host.Outcome State Fault Refusal :=
  if gfb s.m F.INL_STATUS_LIMIT && decide (timerLimit s.m ≤ timerNow s.m s.time.up) then nextW (trip 1 0 s) else .next s

/-- R415: I_LIM in 0.01 A. -/
def iLim (m : Mach) : Nat := 400 + 25 * gf m F.INL_CTL_ILIM

/-- FAST_TRIP: the input current, in 0.01 A, exceeds 2 × I_LIM with the gate ramping or on (R416). -/
def execFastTrip (iin : Nat) (s : State) : Host.Outcome State Fault Refusal :=
  if 2 ≤ s.m.inl.gate && decide (2 * iLim s.m < iin) then nextW (trip 2 0 { s with m := sf s.m F.INL_MEAS_IIN [] (min iin 65535) }) else .next s

/-! ### Temperature (R417, R426, R427) -/

/-- R417: what a reading of the FET sensor leaves: it is good within −55 to 200 °C with its self-test passed. -/
def noteFet (m : Mach) (t model : Int) (selfTest : Bool) : Mach :=
  let good := decide (-550 ≤ t) && decide (t ≤ 2000) && selfTest
  let n := if good then min 100 (m.inl.good + 1) else 0
  let m := sf (sf m F.INL_TEMP_FET_SENSOR [] (signedField t)) F.INL_TEMP_FET_MODEL [] (signedField model)
  sf (modInl m (fun g => { g with good := n })) F.INL_STATUS_SENSOR_VALID [] (b2n (n == 100))

/-- FET_SENSOR_READ: the sensor reads `t`, its self-test has passed, and the model gives `model`, in 0.1 °C. A pre-charge that
a trip ends has spent `e`. -/
def execFetSensorRead (t : Int) (selfTest : Bool) (model : Int) (e : Nat) (s : State) : Host.Outcome State Fault Refusal :=
  if !s.m.inl.on then .next s
  else
    let s := { s with m := noteFet s.m t model selfTest }
    let valid := gfb s.m F.INL_STATUS_SENSOR_VALID
    if valid && decide (1500 ≤ t) then nextW (trip 4 e s)
    else if !valid && decide (1400 ≤ model) then nextW (trip 8 e s)
    else .next s

/-- R426: throttling begins at 100 °C and ends at 95 °C. -/
def noteTj (now : Nat) (m : Mach) (tj : Int) : Mach :=
  let m := sf m F.INL_THERM_TJ [] (signedField tj)
  if 1000 ≤ tj && !gfb m F.INL_THERM_THROTTLE then
    event (ackEvent (sf m F.INL_THERM_THROTTLE [] 1) F.INL_THERM_THROTTLE_EVT) now 0x31 1 1 pmNone (signedField tj)
  else if tj ≤ 950 && gfb m F.INL_THERM_THROTTLE then event (sf m F.INL_THERM_THROTTLE [] 0) now 0x31 0 2 pmNone (signedField tj)
  else m

/-- JUNCTION_READ: the highest of the die sensors reads `tj`, in 0.1 °C (R426, R427). -/
def execJunctionRead (tj : Int) (e : Nat) (s : State) : Host.Outcome State Fault Refusal :=
  if !s.m.inl.on then .next s
  else
    let s := { s with m := noteTj s.time.now.toNat s.m tj }
    nextW (if 1100 ≤ tj then trip 32 e s else s)

/-! ### Resets (R14, R326, R440, R468, R481) -/

/-- RST_N_ASSERT: RST_N has been low for 1 µs (R468); one warm reset follows, or the main path's return runs its steps. -/
def execRstNAssert (s : State) : Host.Outcome State Fault Refusal :=
  if !s.m.inl.on || s.m.resets.any (fun r => r.1 == 2) then .next s
  else .next { s with m := { s.m with resets := s.m.resets ++ [(2, s.time.now.toNat)] } }

/-- Warm resets of the given causes that are due; they run from the main path alone. -/
def resetDue (s : State) (p : Nat → Bool) : Bool :=
  powered s.m && s.m.resets.any (fun r => p r.1 && decide (r.2 ≤ s.time.now.toNat))

/-- WARM_RESET: a warm reset that RST_N, GLB_RESET or the transition to RMA has asked for takes place. -/
def execWarmReset (f : BootFacts) (s : State) : Host.Outcome State Fault Refusal :=
  if resetDue s (· != 4) then nextW (warmReset (resetCause s.m.resets) 1800000000 f s) else .next s

/-- AUTO_RESET: 10 ms after a fatal fault with AUTO_RESET set (R440). -/
def execAutoReset (f : BootFacts) (s : State) : Host.Outcome State Fault Refusal :=
  if resetDue s (· == 4) then nextW (warmReset (resetCause s.m.resets) 1800000000 f s) else .next s

end Sys2Proof.Machine
end

