-- ==== Sys2Proof/Machine/Reliability.lean ====
section
/-!
DEFINITION. Chapter 20: SRAM words and slice records that fail, quadrant takeover, the loss of an HBM stack, Postmaster switchover,
fatal faults, and the RAS log's HEAD; and the Postmaster's own requests (R273).
-/

namespace Sys2Proof.Machine
open Sys2Proof

/-! ### Fatal faults (R440) -/

/-- R440, R377: a fatal fault: its record, ALERT_N, and with AUTO_RESET a warm reset 10 ms after the record. -/
def fatalFault (code : Nat) (s : State) : State :=
  let s := rasFatal 0x1B 0 code s
  let m := sf s.m F.RAS_ALERT_FATAL [] 1
  if gfb m F.RAS_LOG_CFG_AUTO_RESET && !m.resets.any (fun r => r.1 == 4) then
    { s with m := { m with resets := m.resets ++ [(4, s.time.now.toNat + 40000000)] } }
  else { s with m := m }

/-- The meaning of FATAL_FAULT: 1 quadrant pair, 2 Postmaster, 3 resonator, 4 cell buffer. -/
def execFatalFault (code : Nat) (s : State) : Host.Outcome State Fault Refusal :=
  if 1 ≤ code && code ≤ 4 then nextW (fatalFault code s) else .next s

/-! ### Storage (R429, R430) -/

/-- The entry of KIND 0x01 (R442): the block of an address, and a location. -/
def sramEntry (now : Nat) (m : Mach) (block : Nat) (pm : Postmark) (addr loc : Nat) : Mach :=
  rasLog m now 0x01 2 block pm addr 0 0 0 (loc % 2 ^ 32)

/-- SRAM_UNCORRECTABLE, first part: the table entry at `addr` is invalid; the second part is the Postmaster's rewriting of it
from the running configuration (R429). -/
def sramUncorrectable (addr : Nat) (rewritten : Bool) (now : Nat) (m : Mach) : Mach :=
  match regFind addr with
  | none => m
  | some (r, ix) =>
    let c := BitVec.ofNat 64 r.cfg
    let old := rd m r ix
    let kept := m.sram.any (fun x => x.1 == addr)
    if r.cfg == 0 then m
    else if !rewritten then
      if kept then m
      else sramEntry now (wr { m with sram := tset 0 m.sram addr (old &&& c) } r ix (old &&& ~~~c)) (addr / 2 ^ 24) pmNone 0 addr
    else if !kept then m
    else
      -- a value that was written meanwhile is the running configuration's own
      let was := tget 0 m.sram addr
      let m := { m with sram := m.sram.filter (fun x => x.1 != addr) }
      if old &&& c == 0 then wr m r ix (old ||| was) else m

/-- The meaning of SRAM_UNCORRECTABLE. -/
def execSramUncorrectable (addr : Nat) (rewritten : Bool) (s : State) := onMachW (sramUncorrectable addr rewritten) s

/-- R430: what item `i` still owes its requester is answered: poison for a read, UR for a non-posted CXL.io request, and
the ordinary completion for a write. -/
def settleAnswers (now s : Nat) (m : Mach) (i : Item) : Mach :=
  let x := i.msg
  let reads := match i.work with | .caching _ d => d | .ncRead | .atomic => true | _ => false
  if isIo x.h.kind && isNonPosted x.h.kind then
    if m.home.splits.any (fun p => p.pm == x.pm) then
      let m := { m with home := { m.home with splits := m.home.splits.filter (fun p => p.pm != x.pm) } }
      sendReply now m x (replyTo m x (sliceAtt s) .cpl false true .ur [] (derivedPm x.pm i.tick) (answerSc m s x))
    else m
  else
    let m := if reads && !i.dataSent && !(i.work == .atomic && i.ndrSent) then sendData now s m i (0, true) else m
    if i.ndrSent || (reads && !isMem x.h.kind) then m
    else sendDone now s m i (if i.work == .conflict then .biConflictAck else .cmp) i.tick false

/-- R430: both copies of the record of item `seq` fail: it is settled at once, and a write whose data was accepted writes its
line as poison. The spec does not code the location. -/
def sliceRecordFailure (s seq : Nat) (now : Nat) (m : Mach) : Mach :=
  match itemOf m s seq with
  | none => m
  | some i =>
    let (loc, m) := takeFree m
    let m := sramEntry now m 3 i.msg.pm i.line loc.toNat
    let m := settleAnswers now s m i
    let m := if i.mask != 0 then poisonLine now s m i.line i.msg.pm else m
    let m := modSlice m s (fun sl => { sl with items := sl.items.filter (fun j => j.seq != seq) })
    let m := if lifeOpen m i.msg.pm then m else rdClose m now i.msg.pm
    advance now s i.line m

/-- The meaning of SLICE_RECORD_FAILURE. -/
def execSliceRecordFailure (s seq : Nat) (st : State) := onMachW (sliceRecordFailure s seq) st

/-! ### Quadrants (R434) -/

/-- Quadrant `n` serves its own slices. -/
def quadServing (m : Mach) (n : Nat) : Bool := !bitAt (gf m F.RAS_AVAIL_QUAD_LOST) n

/-- R434 step 1: quadrant `n` is lost: its slices stop, and its engines' parcels end. Where the other quadrant of the pair was
lost before, the slices of both stay paused. -/
def quadrantStop (n now : Nat) (m : Mach) : Mach :=
  let m := sf m F.RAS_AVAIL_QUAD_LOST [] (gf m F.RAS_AVAIL_QUAD_LOST ||| 2 ^ n)
  let m := sf m F.HQ_SLICE_MAP_PAUSED [n] 65535
  let m := if quadServing m (n ^^^ 1) then m else sf m F.HQ_SLICE_MAP_PAUSED [n ^^^ 1] 65535
  let es := (List.range 4).map (4 * n + ·)
  let m := { m with eng := { m.eng with lost := m.eng.lost ++ es } }
  stopEngines now m (fun e => es.contains e) (fencePm 0 now)

/-- Quadrant `n` is lost, and the loss of both of a pair is fatal (R440). -/
def quadrantLost (n : Nat) (s : State) : State :=
  if 4 ≤ n || !quadServing s.m n then s
  else
    let s := { s with m := quadrantStop n s.time.now.toNat s.m }
    if quadServing s.m (n ^^^ 1) then s else fatalFault 1 s

/-- R434 steps 2 and 3: the partner serves the slices of `n`: speculative results are discarded and confirming goes on. -/
def quadrantTaken (n now : Nat) (m : Mach) : Mach :=
  let q := n ^^^ 1
  let m := sf m F.HQ_SLICE_MAP_SERVED_BY [n] q
  let m := ((List.range 16).map (16 * n + ·)).foldl (fun m s => modSlice m s (fun sl =>
    { sl with items := sl.items.map (fun i => if i.started then i else { i with specOk := false, specWay := none }) })) m
  rasLog (sf m F.HQ_SLICE_MAP_PAUSED [n] 0) now 0x05 2 n pmNone 0 0 0 0 q

/-- QUADRANT_TAKEOVER of quadrant `n`: a `parity` fault in its control path stops it (step 1); once it has stopped, its partner
takes over (steps 2 and 3). -/
def execQuadrantTakeover (n : Nat) (parity : Bool) (s : State) : Host.Outcome State Fault Refusal :=
  if 4 ≤ n then .next s
  else if quadServing s.m n then
    if parity then nextW (quadrantLost n { s with m := rasLog s.m s.time.now.toNat 0x03 2 3 pmNone 0 0 0 0 n }) else .next s
  else if quadServing s.m (n ^^^ 1) && gf s.m F.HQ_SLICE_MAP_SERVED_BY [n] == n then
    nextW { s with m := quadrantTaken n s.time.now.toNat s.m }
  else .next s

/-! ### HBM stacks (R435, R437) -/

/-- Dirty lines of Fabric Cache set `fs` in a slice. -/
def dirtyIn (sl : Slice) (fs : Nat) : Nat := ((ways sl fs).filter (fun w => w.st == .dirty)).length

/-- R435: a slice loses stack `b`: clean ways and mirrors of its sets are gone, and cleaning of what is left with one copy begins at
the next multiple of 16 ticks. -/
def sliceLoses (b now s : Nat) (m : Mach) : Mach :=
  let m := modSlice m s (fun sl => (sl.cache.filter (fun x => x.1 % 8 == b)).foldl (fun sl x =>
    setWays sl x.1 (x.2.map (fun w => if w.st == .dirty then w else {}))) sl)
  if (sliceOf m s).cleanDue == 0 && !(strandedSets m s).isEmpty then
    modSlice m s (fun sl => { sl with cleanDue := tickAdd (tick48 now / 16 * 16) 16 + 1, cleanFrom := (now / 16 + 1) * 16 })
  else m

/-- R437: a slice has lost both stacks of the pair of `b`: its dirty lines there become poison, and the Carbon sets there are
empty and censused. -/
def sliceLosesPair (b now s : Nat) (m : Mach) : Mach :=
  let pm : Postmark := ⟨tick48 now, 145, 0⟩
  let sets := ((sliceOf m s).cache.filter (fun x => x.1 % 4 == b % 4)).map (·.1)
  let m := sets.foldl (fun m fs =>
    ((List.range 16).zip (ways (sliceOf m s) fs)).foldl (fun m x =>
      let (w, y) := x
      if y.st != .dirty then m
      else
        let line := lineOfWay s y.tag
        let m := modSlice m s (fun sl => modWay (freeMirror sl fs w y.tag) fs w (fun _ => {}))
        poisonLine now s m line pm) m) m
  let ck := kOf m s
  let m := modSlice m s (fun sl => (sl.carbon.filter (fun x => x.1 % 4 == b % 4)).foldl (fun sl x =>
    let sl := (x.2.filter (·.wide)).foldl (fun sl e => freeVec sl e.vec) sl
    setSlots ck sl x.1 []) sl)
  { m with home := { m.home with
      pairCensus := m.home.pairCensus ++ [⟨s, b % 4, 0, 0, tick48 now, now⟩]
      setCensus := m.home.setCensus.filter (fun c => !(c.slice == s && c.set % 4 == b % 4)) } }

/-- R435, R437: stack `b` is lost. -/
def stackLost (b now : Nat) (m : Mach) : Mach :=
  if 8 ≤ b || bitAt (gf m F.RAS_AVAIL_HBM_LOST) b then m
  else
    let pair := bitAt (gf m F.RAS_AVAIL_HBM_LOST) (b ^^^ 4)
    let count (p : Nat → Bool) : Nat :=
      (m.home.slices.map (fun x => ((x.2.cache.filter (fun c => p c.1)).map (fun c => dirtyIn x.2 c.1)).sum)).sum
    let restored := if pair then 0 else count (fun fs => fs % 8 == b)
    let poisoned := if pair then count (fun fs => fs % 4 == b % 4) else 0
    let m := markLost now m b restored poisoned
    let m := { m with pmu := { m.pmu with rd := m.pmu.rd.filter (fun x => Config.rdStack (x.1 / 4) % 8 != b) } }
    let ss := m.home.slices.map (·.1)
    if pair then
      let m := if m.home.setCensus.isEmpty && m.home.pairCensus.isEmpty then wr m Reg.RAS_CENSUS_STATUS [] (statusWord 0 2 0 0) else m
      (List.range 64).foldl (fun m s => sliceLosesPair b now s m) m
    else ss.foldl (fun m s => sliceLoses b now s m) m

/-- The meaning of HBM_STACK_LOSS: its interface fails its link checks, or 1,024 of its lines are uncorrectable within one second. -/
def execHbmStackLoss (b : Nat) (s : State) := onMachW (stackLost b) s

/-! ### Postmaster pairs (R358, R389, R392, R436) -/

/-- Ticks that a handover takes: its bound of 50 ms. -/
def handoverTicks : Nat := 200000000

/-- R358, R389 step 3: the state of the Postmaster begins to pass to the other pair. -/
def beginHandover (now act : Nat) (m : Mach) : Mach :=
  let m := sf m F.MBX_STATUS_HANDOVER [] 1
  { m with fw := { m.fw with act := act, handEnd := now + handoverTicks + 1 } }

/-- R373, R389: the activation ends with a STATE and REASON. -/
def endActivation (now : Nat) (m : Mach) (state reason : Nat) : Mach :=
  let m := sf (sf m F.MBX_FW_ACT_STATUS_STATE [] state) F.MBX_FW_ACT_STATUS_REASON [] reason
  opEnded m now 0xE (rd m Reg.MBX_FW_ACT_STATUS)

/-- R392, R382: a trial ends in a handover back to the old pair: its slot is rejected. -/
def handBack (reason : Nat) (s : State) : State :=
  let now := s.time.now.toNat
  let k := s.m.fw.actSlot
  let m := beginHandover now 5 s.m
  let m := endActivation now m 4 reason
  { s with
    mram := putFwRecord s.mram k 5 (fwRecord s.mram k).2
    m := fwEvent now m 4 (fwVersion (fwHeader s.mram k)) reason 0 }

/-- An activation that has not reached its handover ends (R385). -/
def dropActivation (now state reason : Nat) (m : Mach) : Mach :=
  if m.fw.act == 1 || m.fw.act == 2 then endActivation now { m with fw := { m.fw with act := 0 } } state reason else m

/-- POSTMASTER_FAILOVER: a lockstep mismatch in the active pair: its standby takes over, in a trial the old pair; with no
standby the last pair has faulted. -/
def execPostmasterFailover (s : State) : Host.Outcome State Fault Refusal :=
  let now := s.time.now.toNat
  let pairs := gf s.m F.RAS_AVAIL_PM_PAIRS
  let noted (m : Mach) : Mach := { m with fw := { m.fw with faulted := gf m F.MBX_STATUS_ACTIVE_PAIR + 1 } }
  if pairs == 0 then .next s
  else if pairs == 1 || s.m.fw.faulted != 0 then nextW (fatalFault 2 { s with m := sf s.m F.RAS_AVAIL_PM_PAIRS [] 0 })
  else if s.m.fw.handEnd != 0 then .next { s with m := noted s.m }
  else if s.m.fw.act == 4 then nextW (handBack 0x80B { s with m := noted s.m })
  else
    let m := dropActivation now 4 0x809 s.m
    nextW { s with m := beginHandover now m.fw.act (noted m) }

/-- POSTMASTER_PAIR_SELF_TEST_DONE: the faulted pair becomes the standby, or stays out. -/
def execPostmasterPairSelfTestDone (ok : Bool) (s : State) : Host.Outcome State Fault Refusal :=
  let k := s.m.fw.faulted
  if k == 0 then .next s
  else
    let m := rasLog s.m s.time.now.toNat 0x08 2 (k - 1) pmNone 0 0 0 0 (b2n ok)
    let m := { m with fw := { m.fw with faulted := 0 } }
    nextW { s with m := if ok then m else sf m F.RAS_AVAIL_PM_PAIRS [] (gf m F.RAS_AVAIL_PM_PAIRS - 1) }

/-- POSTMASTER_REQUEST_TIMEOUT: the Postmaster's oldest CXL.io request has had no completion for 50 ms; whoever asked for it is answered.
The spec names no return code for it. -/
def execPostmasterRequestTimeout (s : State) : Host.Outcome State Fault Refusal :=
  match s.m.pmReqs.find? (fun r => decide (r.since + 200000000 ≤ s.time.now.toNat)) with
  | none => .next s
  | some r =>
    let m := { s.m with pmReqs := s.m.pmReqs.erase r }
    match r.who with
    | none => .next { s with m := m }
    | some w =>
      let (v, m) := takeFree m
      .next { s with m := { m with replies := m.replies ++ [{ whom := w, ret := .unstated (v.toNat % 2 ^ 16) }] } }

/-! ### The RAS log (R441) -/

/-- The meaning of RAS_LOG_HEAD_WRITE. -/
def execRasLogHeadWrite (v : Nat) (s : State) :=
  onMachW (fun _ m => headWrite m F.RAS_LOG_PTR_HEAD F.RAS_LOG_PTR_TAIL 8192 (v % 8192)) s

end Sys2Proof.Machine
end

