-- ==== Sys2Proof/Machine/Domains.lean ====
section
/-!
DEFINITION. Chapter 19: the switched power domains: turning them on and off, and their isolation (R421-R423).
-/

namespace Sys2Proof.Machine
open Sys2Proof

/-- The event of type 0x32 (R428): domain `d` and its new state. -/
def domainEvent (now : Nat) (m : Mach) (d sev detail : Nat) : Mach :=
  event m now 0x32 sev d pmNone (domainState m d + detail)

/-- R394: the stations of group `d` have lost their microcode. -/
def dropUcode (m : Mach) (d : Nat) : Mach := { m with fw := { m.fw with ucode := m.fw.ucode.filter (fun x => x.1 / 4 != d) } }

/-- R422: software turns domain `d` off. -/
def domainOff (now : Nat) (m : Mach) (d : Nat) : Mach :=
  let m := if d < 8 then dropUcode (groupDown now m d) d
    else if 20 ≤ d && gf m (planeField (d - 20)) == 0 then retirePlane (d - 20) now m else m
  let m := setDomain m d 0
  let m := if d < 8 then ((List.range 16).map (16 * d + ·)).foldl (hostPresent now) m else m
  domainEvent now m d 0 0

/-- R422: software turns domain `d`, off or isolated, on. -/
def domainOn (now : Nat) (m : Mach) (d : Nat) : Mach :=
  let m := setDomain m d 1
  let m := if d < 8 then ((List.range 16).map (16 * d + ·)).foldl (hostPresent now) m else m
  domainEvent now m d 0 0

/-- R422: the domains whose bit a write clears. -/
def clearedBits (m : Mach) (v : Nat) : List Nat :=
  (List.range 24).filter (fun d => (rd m Reg.INL_PD_CTL).getLsbD d && !bitAt v d)

/-- R421, R422: the device discards the write. -/
def pdCtlRefused (m : Mach) (v : Nat) : Bool :=
  let off := clearedBits m v
  let planes := off.filter (fun d => 20 ≤ d && gf m (planeField (d - 20)) == 0)
  gfb m F.AMD_CFG_SLOT_SAFE || off.any (fun d => decide (8 ≤ d) && decide (d < 20))
    || (!planes.isEmpty && decide ((workingPlanes m).length < planes.length + 3))

/-- INL_PD_CTL is written with the whole value `v` (R422). A stack or quadrant that is isolated returns only at a reset (R423). -/
def pdCtlWrite (v now : Nat) (m : Mach) : Mach :=
  if pdCtlRefused m v then countDiscard m
  else
    let off := clearedBits m v
    let on := (List.range 24).filter (fun d => bitAt v d && (d < 8 || 20 ≤ d) && (domainState m d == 0 || domainState m d == 3))
    let m := wr m Reg.INL_PD_CTL [] (BitVec.ofNat 64 (v % 2 ^ 24))
    on.foldl (domainOn now) (off.foldl (domainOff now) m)

/-- DOMAIN_POWER_ON_DONE: domain `d` reaches the on state: the ports of a station group may train, and its stations run the
committed microcode (R394). -/
def domainPowerOnDone (d now : Nat) (m : Mach) : Mach :=
  if 24 ≤ d || domainState m d != 1 then m
  else
    let m := setDomain m d 2
    let m := if d < 8 then
        let m := { m with fw := { m.fw with ucode := (List.range 4).foldl (fun t k => tset 0 t (4 * d + k) (gf m F.MBX_FW_UCODE_UC_VERSION + 1)) m.fw.ucode } }
        ((List.range 16).map (16 * d + ·)).foldl (fun m p =>
          if portExists m p && role m p == 1 && !gfb m F.STN_LINK_STATUS_PERST (st p) then
            sf (hostPresent now m p) F.STN_LINK_STATUS_LSTATE (st p) 4
          else hostPresent now m p) m
      else m
    if started m then domainEvent now m d 0 0 else m

/-- The meaning of DOMAIN_POWER_ON_DONE. -/
def execDomainPowerOnDone (d : Nat) (s : State) := onMachW (domainPowerOnDone d) s

/-- DOMAIN_ISOLATION: the regulator of domain `d` reports overcurrent or loss of regulation (R423). -/
def execDomainIsolation (d : Nat) (oc lr : Bool) (s : State) : Host.Outcome State Fault Refusal :=
  let now := s.time.now.toNat
  if 24 ≤ d || !(oc || lr) || (domainState s.m d != 1 && domainState s.m d != 2) then .next s
  else
    let m := sf (ackEvent s.m F.INL_EVT_PD_FAIL) F.INL_EVT_LAST_DOMAIN [] d
    let m := domainEvent now (setDomain m d 3) d 2 (b2n oc * 2 ^ 8 + b2n lr * 2 ^ 9)
    let s := { s with m := m }
    nextW (
      if d < 8 then { s with m := dropUcode (groupDown now m d) d }
      else if d < 16 then { s with m := stackLost (d - 8) now m }
      else if d < 20 then quadrantLost (d - 16) s
      else if gf m (planeField (d - 20)) == 0 then { s with m := retirePlane (d - 20) now m } else s)

end Sys2Proof.Machine
end

