-- ==== Sys2Proof/Machine/Writes.lean ====
section
/-!
DEFINITION. A write to a register, and what the change of each register does beside holding its value: for single writes and for
the items of a set alike (R7-R12, R347, R348, R369).
-/

namespace Sys2Proof.Machine
open Sys2Proof

/-! ### Writes that a rule discards -/

/-- R263: bank `b` of port `p` is locked: an accepted bank, until it is no longer active. -/
def lockedBank (m : Mach) (p b : Nat) : Bool :=
  if b == gf m F.SCH_GATE_INFO_ACTIVE [p] then tget 0 m.sof.gateStart p != 0 else tget 0 m.sof.gateNext p != 0

/-- A register that takes no write now: a word of a locked rule (R249), a locked gate bank (R263), a group that the device manages
(R71). -/
def protectedWord (m : Mach) (addr : Nat) (r : RegDef) (ix : List Nat) : Bool :=
  lockedRuleWord m addr
    || ((r.base == Reg.SCH_GATE_BASE.base || r.base == Reg.SCH_GATE_ENT.base) && lockedBank m (ix.getD 0 0) (ix.getD 1 0))
    || ((r.base == Reg.RTE_MCG_LO.base || r.base == Reg.RTE_MCG_HI.base) && decide (61440 ≤ ix.getD 0 0))

/-- R180: a single write would leave CLEAN_STOP at or above CLEAN_START. -/
def cleanLimitsBad (r : RegDef) (w : Word) : Bool :=
  r.base == Reg.FCH_CFG.base
    && decide (getBits w F.FCH_CFG_CLEAN_START.hi F.FCH_CFG_CLEAN_START.lo ≤ getBits w F.FCH_CFG_CLEAN_STOP.hi F.FCH_CFG_CLEAN_STOP.lo)

/-! ### Reserved values (R7, R446) -/

/-- Fields with reserved encodings: the encodings that are not. LOCAL has a range but no reserved encoding; a PLEN above 256 is
refused by R263. -/
def reservedCodes : List FieldRange :=
  ⟨F.RTE_LOCAL_KIND, [(0, 2)]⟩ ::
    fieldRanges.filter (fun x => x.f.reg.base != Reg.RTE_PORT_ID.base && x.f.reg.base != Reg.SCH_GATE_CTL.base)

/-- A write puts a non-zero value into a reserved field or encoding; `w` is the word as it would stand. -/
def reservedHit (m : Mach) (r : RegDef) (ix : List Nat) (v mask w : Word) : Bool :=
  let put := v &&& mask
  let hits (f : FieldRef) : Bool := r.base == f.reg.base && getBits put f.hi f.lo != 0
  (put.toNat &&& r.rsv) != 0
    || reservedCodes.any (fun x => hits x.f
        && !x.ok.any (fun z => decide (z.1 ≤ getBits w x.f.hi x.f.lo) && decide (getBits w x.f.hi x.f.lo ≤ z.2)))
    || (hits F.MBX_PORT_CFG_MGMT_EN && role m (ix.getD 0 0) != 1)
    || (hits F.STN_CRL_CFG_GANG && ix.getD 0 0 % 2 == 1)
    || (hits F.STN_CFG_CLKMODE && !m.boot.refclk)
    || (hits F.PMU_RD_WSEL_SLOT && decide (gf m F.PMU_RD_CFG_CAP ≤ getBits w F.PMU_RD_WSEL_SLOT.hi F.PMU_RD_WSEL_SLOT.lo))
    || (hits F.AMD_CMD_CMD && decide (5 < getBits put F.AMD_CMD_CMD.hi F.AMD_CMD_CMD.lo))

/-- R403, R7: a write of PMU_TRK_CFG carries a reserved field or encoding that is not zero. -/
def trkReserved (m : Mach) (w : Word) : Bool :=
  reservedHit m Reg.PMU_TRK_CFG [] w (BitVec.allOnes 64) (BitVec.ofNat 64 (w.toNat &&& Reg.PMU_TRK_CFG.rw))

/-- The meaning of TRACKING_RESEED. -/
def execTrackingReseed (w : Word) (s : State) : Host.Outcome State Fault Refusal :=
  if trkReserved s.m w then .fault (.reservedWrite (regAddr Reg.PMU_TRK_CFG [])) else onMach (trackingReseed w) s

/-! ### What a changed word does -/

/-- R372, R376: with the queue empty every port is armed again. -/
def rearmPorts (m : Mach) : Mach := if evqHeld m == 0 then { m with logs := { m.logs with disarmed := [] } } else m

/-- R374: HEAD of the event queue is written. -/
def evqHeadWrite (v : Nat) (m : Mach) : Mach := rearmPorts (headWrite m F.RAS_EVQ_PTR_HEAD F.RAS_EVQ_PTR_TAIL 8192 (v % 8192))

/-- R399, R400: OVF of counter `c` after an acknowledgement; with no OVF left vector 2 of every port is armed again. -/
def ovfShown (m : Mach) (c : Nat) : Mach :=
  if gfb m F.PMU_CTR_CFG_OVF [c] then m
  else
    let w := c / 64
    let old := gf m F.PMU_OVF_SUMMARY_OVF [w]
    let m := sf m F.PMU_OVF_SUMMARY_OVF [w] (if bitAt old (c % 64) then old - 2 ^ (c % 64) else old)
    if (List.range 32).all (fun k => gf m F.PMU_OVF_SUMMARY_OVF [k] == 0) then { m with pmu := { m.pmu with disarmed := [] } } else m

/-- R266, R267: the ports of station `k` whose role, or whose existence, differs from that in `a` take their roles. -/
def rolesChanged (now : Nat) (a m : Mach) (k : Nat) : Mach :=
  ((List.range 4).map (4 * k + ·)).foldl (fun m p =>
    if role a p == role m p && portExists a p == portExists m p then m else takeRole now m p) m

/-- R228: POOL of entry `e` has been written. -/
def poolWritten (m : Mach) (e : Nat) : Mach := { m with ten := { m.ten with stale := m.ten.stale.filter (· != e) } }

/-- R231: BIND of FLD `f` of a port-based host has changed; the change has the postmark `pm`. -/
def bindChanged (now : Nat) (pm : Postmark) (m : Mach) (f : Nat) : Mach :=
  if !gfb m F.TEN_PORT_MODEL_MODEL [gf m F.TEN_FLD_CFG_PORT [f]] then m
  else if gfb m F.TEN_FLD_CFG_BIND [f] then (if gfb m F.TEN_FLD_CFG_ENABLE [f] && holdsPos m f then bindFld m f else m)
  else if gfb m F.TEN_FLD_STATUS_BOUND [f] then unbindFld now m f pm else m

/-- What follows from register `r` at `ix` having changed from its word in `a` to its word in `m`; `mask` covers the bits written. -/
def afterWrite (now : Nat) (pm : Postmark) (a m : Mach) (r : RegDef) (ix : List Nat) (mask : Word) : Mach :=
  let i := ix.getD 0 0
  let b := r.base
  let back (m : Mach) : Mach := wr m r ix (rd a r ix)
  let changed (f : FieldRef) : Bool := gf a f ix != gf m f ix
  if b == Reg.STN_CFG.base || b == Reg.STN_PORT_CFG.base then rolesChanged now a m i
  else if b == Reg.STN_PORT_CTL.base then
    if changed F.STN_PORT_CTL_PERST_ASSERT then perstAssert (4 * i + ix.getD 1 0) (gfb m F.STN_PORT_CTL_PERST_ASSERT ix) now m else m
  else if b == Reg.INL_PD_CTL.base then pdCtlWrite (rd m r ix).toNat now (back m)
  else if b == Reg.RAS_LOG_PTR.base then headWrite (back m) F.RAS_LOG_PTR_HEAD F.RAS_LOG_PTR_TAIL 8192 (gf m F.RAS_LOG_PTR_HEAD)
  else if b == Reg.RAS_DL_PTR.base then headWrite (back m) F.RAS_DL_PTR_HEAD F.RAS_DL_PTR_TAIL 4096 (gf m F.RAS_DL_PTR_HEAD)
  else if b == Reg.RAS_EVQ_PTR.base then evqHeadWrite (gf m F.RAS_EVQ_PTR_HEAD) (back m)
  else if b == Reg.PMU_TRK_PTR.base then trkHeadWrite (gf m F.PMU_TRK_PTR_HEAD) now (back m)
  else if b == Reg.PMU_RD_PTR.base then rdHeadWrite (gf m F.PMU_RD_PTR_HEAD) (gf m F.PMU_RD_PTR_HEAD_LAP) now (back m)
  else if b == Reg.PMU_TRK_CFG.base then trackingReseed (rd m r ix) now (back m)
  else if b == Reg.PMU_BW_CFG.base then
    if changed F.PMU_BW_CFG_WIN then bwWinChange (gf m F.PMU_BW_CFG_WIN) now m else m
  else if b == Reg.PMU_RD_CFG.base then
    if gf m F.PMU_RD_CFG_CAP == 0 then sf m F.PMU_RD_CFG_EN [] 0 else m
  else if b == Reg.PMU_CTR_CFG.base then ovfShown m i
  else if b == Reg.RAS_WM_CFG.base || b == Reg.RAS_WM_HYST.base then wmEval true now m i
  else if b == Reg.TEN_FLD_CFG.base then
    if changed F.TEN_FLD_CFG_BIND then bindChanged now pm m i else m
  else if b == Reg.TEN_EXT.base then
    if getBits mask F.TEN_EXT_POOL.hi F.TEN_EXT_POOL.lo == 0 then m
    else
      let m := poolWritten m i
      if gf m F.TEN_EXT_STATE ix == 0 then sf m F.TEN_EXT_KEEP ix 0 else m
  else m

/-! ### What a write to W1S and WO fields does (R11, R347) -/

/-- A field of a written word. -/
def wf (v : Word) (f : FieldRef) : Nat := getBits v f.hi f.lo

/-- The action of the W1S and WO bits in `v` written to register `r` at `ix`, at tick `now`. -/
def strobe (now : Nat) (m : Mach) (r : RegDef) (ix : List Nat) (v : Word) : Mach :=
  let i := ix.getD 0 0
  let b := r.base
  let on (f : FieldRef) : Bool := wf v f == 1
  if b == Reg.SOF_FREE.base then (if on F.SOF_FREE_LOW_RESET then lowReset now m else m)
  else if b == Reg.SOF_PLANE_CTL.base then
    let m := if wf v F.SOF_PLANE_CTL_RETIRE != 0 then sofPlaneRetire (wf v F.SOF_PLANE_CTL_RETIRE) now m else m
    if wf v F.SOF_PLANE_CTL_RESTORE != 0 then sofPlaneRestore (wf v F.SOF_PLANE_CTL_RESTORE) now m else m
  else if b == Reg.SOF_FLUSH.base then
    flushRequest (wf v F.SOF_FLUSH_MODE) (wf v F.SOF_FLUSH_TICKET) (wf v F.SOF_FLUSH_SCOPE) (wf v F.SOF_FLUSH_PORT) (wf v F.SOF_FLUSH_MC)
      (wf v F.SOF_FLUSH_SC) now m
  else if b == Reg.HQ_REMOVE.base then hqRemove i (wf v F.HQ_REMOVE_TICKET) (wf v F.HQ_REMOVE_HOST) now m
  else if b == Reg.FCH_CLEAN.base then fchClean (wf v F.FCH_CLEAN_TICKET) now m
  else if b == Reg.FCH_MIRROR_CLR.base then fchMirrorClr (wf v F.FCH_MIRROR_CLR_GROUP) now m
  else if b == Reg.SCH_GATE_CTL.base then
    if on F.SCH_GATE_CTL_SWAP then gateSwapRequest i (wf v F.SCH_GATE_CTL_TICKET) (gf m F.SCH_GATE_CTL_PLEN ix) now m else m
  else if b == Reg.PMU_CTL.base then (if on F.PMU_CTL_CLEAR then pmuClear now m else m)
  else if b == Reg.RAS_CONTAIN.base then rasContain (wf v F.RAS_CONTAIN_TICKET) (wf v F.RAS_CONTAIN_PORT) now m
  else if b == Reg.STN_PORT_CTL.base then
    let p := 4 * i + ix.getD 1 0
    let m := if on F.STN_PORT_CTL_RETRAIN then retrain p now m else m
    if on F.STN_PORT_CTL_REJOIN then rejoin p now m else m
  else m

/-- The register has W1S, WO or ACK fields (R10). -/
def wholeOnly (r : RegDef) : Bool := r.w1s != 0 || r.wo != 0 || !r.acks.isEmpty

/-- The register has a field that a write can act on. -/
def writable (r : RegDef) : Bool := r.rw != 0 || wholeOnly r

/-- R12, R369: flag bit `k` of word `w` is acknowledged by the written word `v`: it clears where the count is still the one carried. -/
def ackBit (v w : Word) (k : Nat) : Word :=
  if v.getLsbD k && getBits v (k - 1) (k - 16) == getBits w (k - 1) (k - 16) then setBits w k k 0 else w

/-- R11, R369: the word that a write of the bits `mask` of `v` leaves in a register. -/
def writtenWord (r : RegDef) (old v mask : Word) : Word :=
  let keep := mask &&& BitVec.ofNat 64 r.rw
  r.acks.foldl (ackBit v) ((old &&& ~~~keep) ||| (v &&& keep))

/-- The bits of a write that act (R11). -/
def strobeBits (r : RegDef) (v mask : Word) : Word := v &&& mask &&& BitVec.ofNat 64 (r.w1s ||| r.wo)

/-- A discarded write is counted, and a register that is written too narrowly is a framing error (R10, R445); none where the write
takes effect. -/
def writeDiscarded (m : Mach) (addr : Nat) (r : RegDef) (ix : List Nat) (w mask : Word) : Option Mach :=
  if wholeOnly r && mask != BitVec.ofNat 64 (2 ^ 64 - 1) then some (countFraming m)
  else if !writable r || protectedWord m addr r ix || cleanLimitsBad r w then some (countDiscard m)
  else none

/-- A write takes effect at tick `now`, its change postmarked `pm`. -/
def writeReg (now : Nat) (pm : Postmark) (m : Mach) (r : RegDef) (ix : List Nat) (v mask : Word) : Mach :=
  let w := writtenWord r (rd m r ix) v mask
  let n := noteRule (afterWrite now pm m (wr m r ix w) r ix mask) (regAddr r ix) (rd m r ix)
  let n := if r.base == Reg.GRD_BARRIER.base && mask.getLsbD 0 then setBarrier n (getBits w 0 0 == 1) else n
  let bits := strobeBits r v mask
  if bits == 0 && r.wo == 0 then n else strobe now n r ix (v &&& mask)

end Sys2Proof.Machine
end

