-- ==== Sys2Proof/Machine/Amend.lean ====
section
/-!
DEFINITION. Chapter 15: the software set and its commands (R340, R341), the end of its checks (R342, R344, R345), the cut-over of a
sealed set (R343, R346, R347), and PERSIST (R350).
-/

namespace Sys2Proof.Machine
open Sys2Proof

/-! ### Commands (R341) -/

/-- PHASE of the software set: 0 IDLE, 1 STAGING, 2 CHECKING, 3 WAITING. -/
def amdPhase (m : Mach) : Nat := gf m F.AMD_INFO_PHASE

/-- R341: a refused command. -/
def amdRefuse (m : Mach) (reason : Nat) : Mach := sf (ackEvent m F.AMD_EVT_REFUSE) F.AMD_EVT_LAST_REFUSAL [] reason

/-- The set ends with a STATE and REASON: IDLE, with no owner. -/
def amdEnd (now : Nat) (m : Mach) (state reason : Nat) : Mach :=
  let m := sf (sf m F.AMD_STATUS_STATE [] state) F.AMD_STATUS_REASON [] reason
  opEnded (sf (sf m F.AMD_INFO_PHASE [] 0) F.AMD_INFO_OWNER [] 0) now 0xD (rd m Reg.AMD_STATUS)

/-- A command of the set from `who`, allowed in phase `ph` alone: refused from another interface than the owner, and in another
phase. -/
def amdCommand (who : Iface) (ph : Nat) (act : Mach → Mach) (m : Mach) : Mach :=
  if amdPhase m != 0 && gf m F.AMD_INFO_OWNER != ownerCode who then amdRefuse m 0x70E
  else if amdPhase m != ph then amdRefuse m 0x70B
  else act m

/-- OPEN. -/
def amdOpen (who : Iface) (ticket : Nat) (m : Mach) : Mach :=
  amdCommand who 0 (fun m =>
    let m := { m with amd := { m.amd with stage := [], overrun := false } }
    let m := sf (sf (sf m F.AMD_INFO_PHASE [] 1) F.AMD_INFO_OWNER [] (ownerCode who)) F.AMD_INFO_ITEMS [] 0
    wr m Reg.AMD_STATUS [] (statusWord ticket 1 0 0)) m

/-- R340, R341: an item is appended; beyond 262,144 it is dropped. -/
def amdAppend (i : AmdItem) (m : Mach) : Mach :=
  if m.amd.stage.length < 262144 then
    let m := { m with amd := { m.amd with stage := m.amd.stage ++ [i] } }
    sf m F.AMD_INFO_ITEMS [] m.amd.stage.length
  else { m with amd := { m.amd with overrun := true } }

/-- An item from `who` with the VALUE and MASK last written. -/
def amdStageItem (who : Iface) (addr : Nat) (m : Mach) : Mach :=
  amdCommand who 1 (amdAppend ⟨rd m Reg.AMD_STAGE_VALUE, rd m Reg.AMD_STAGE_MASK, addr % 2 ^ 32⟩) m

/-- The checks begin: of a CHECK, or of a DISPATCH with its requested cut-over. -/
def amdBegin (dispatch : Bool) (m : Mach) : Mach :=
  let m := { m with amd := { m.amd with dispatch := dispatch, cut := gf m F.AMD_CUTOVER_REQUESTED } }
  sf (sf (sf m F.AMD_INFO_PHASE [] 2) F.AMD_STATUS_STATE [] 2) F.AMD_STATUS_DONE_UNITS [] 0

/-- CHECK. -/
def amdCheck (who : Iface) (m : Mach) : Mach := amdCommand who 1 (amdBegin false) m

/-- DISPATCH; refused where it would make a seventeenth sealed set (R344). -/
def amdDispatch (who : Iface) (m : Mach) : Mach :=
  amdCommand who 1 (fun m => if m.amd.sets.length ≥ 16 then amdRefuse m 0x70C else amdBegin true m) m

/-- DISCARD. -/
def amdDiscard (who : Iface) (now : Nat) (m : Mach) : Mach :=
  amdCommand who 1 (fun m =>
    amdEnd now (sf { m with amd := { m.amd with stage := [], overrun := false } } F.AMD_INFO_ITEMS [] 0) 5 0) m

/-! ### The end of the checks (R342, R344, R345) -/

/-- The failure of a set with a REASON, and the item that is to blame for it. -/
def amdFailed (now : Nat) (m : Mach) (reason : Nat) : Mach :=
  match firstBad now m m.amd.stage m.amd.cut reason with
  | some k => sf (sf m F.AMD_CHECK_INFO_NONE [] 0) F.AMD_CHECK_INFO_ITEM [] k
  | none => sf m F.AMD_CHECK_INFO_NONE [] 1

/-- R345: the set is sealed and dispatched. -/
def amdSeal (now : Nat) (m : Mach) : Mach :=
  let (cut, late) := cutFor m now m.amd.cut
  let m := sealSet m ⟨cut, m.amd.stage, true, []⟩ late
  sf (sf (sf m F.AMD_RESULT_CUTOVER [] cut) F.AMD_CHECK_INFO_LATE [] (b2n late)) F.AMD_INFO_PHASE [] 3

/-- AMD_CHECK_DONE: the checks of the software set finish. -/
def amdCheckDone (now : Nat) (m : Mach) : Mach :=
  if amdPhase m != 2 then m
  else
    let r := checkSet now m m.amd.stage m.amd.overrun m.amd.cut false
    let m := sf m F.AMD_STATUS_DONE_UNITS [] m.amd.stage.length
    let m := match r with | some x => amdFailed now m x | none => m
    if !m.amd.dispatch then
      sf (sf (sf m F.AMD_STATUS_STATE [] 1) F.AMD_STATUS_REASON [] (r.getD 0)) F.AMD_INFO_PHASE [] 1
    else match r with
      | some x => amdEnd now m 4 x
      | none => if m.amd.sets.length ≥ 16 then amdEnd now m 4 0x70C else amdSeal now m

/-- The meaning of AMD_CHECK_DONE. -/
def execAmdCheckDone (s : State) := onMachW amdCheckDone s

/-! ### The cut-over (R343, R346, R347) -/

/-- An item's register part, unless a rule discards the write. -/
def commitItem (m : Mach) (a : AmdItem) : Mach :=
  match regFind a.addr with
  | some (r, ix) => if protectedWord m a.addr r ix then countDiscard m else applyItem m a
  | none => m

/-- The items take effect together at cut-over `c`: the registers, then what follows from their change, then the writes to W1S and
WO fields in staging order. -/
def commitSet (now c : Nat) (m : Mach) (items : List AmdItem) : Mach :=
  let pm : Postmark := ⟨tick48 c, 144, 0⟩
  let n := items.foldl commitItem m
  let touched := (items.map (·.addr)).eraseDups
  let n := touched.foldl (fun n a => match regFind a with
    | some (r, ix) => afterWrite now pm m n r ix ((items.filter (fun i => i.addr == a)).foldl (fun k i => k ||| i.mask) 0)
    | none => n) n
  items.foldl (fun n i => match regFind i.addr with
    | some (r, ix) => if i.mask.toNat &&& (r.w1s ||| r.wo) != 0 then strobe c n r ix (i.value &&& i.mask) else n
    | none => n) n

/-- R77, R346: what a set that cut over at `c` replaced, kept until the messages postmarked before it are past their stale limit (R37);
`m` is the machine before it, `n` after it. -/
def keepReplaced (m n : Mach) (x : SealedSet) : Mach :=
  let named := x.items.map (·.addr) ++ x.acts.filterMap (fun a => match a with
    | .bind f => some (regAddr Reg.TEN_FLD_STATUS [f])
    | .unbind f => some (regAddr Reg.TEN_FLD_STATUS [f])
    | _ => none)
  let status := named.filterMap (fun a => match regFind a with
    | some (r, ix) => if r.base == Reg.TEN_FLD_CFG.base then some (regAddr Reg.TEN_FLD_STATUS ix) else none
    | none => none)
  let old := (named ++ status).eraseDups.map (fun a => (a, tget (resetAt a) m.regs a))
  let ports := x.acts.filterMap (fun a => match a with | .bindPort p v _ => some (64 * p + v, tget 0 m.vppb (64 * p + v)) | _ => none)
  { n with amd := { n.amd with
      past := n.amd.past.filter (fun y => decide (x.cut < y.cut + 2 ^ 37))
        ++ [⟨x.cut, old.filter (fun y => y.2 != tget (resetAt y.1) n.regs y.1), ports⟩] } }

/-- A Postmaster set that fails at its cut-over ends the background operation that asked for it. -/
def rejectAct (m : Mach) : CutAct → Mach
  | .recall f e => m.cci.foldl (fun m x => match x.2.bg with
    | some b => if b.done || b.fld != f || !b.left.contains e then m
      else bgSignal { m with cci := tmod {} m.cci x.1 (fun c => { c with bg := some { b with done := true, ret := .invalidInput } }) } x.1
    | none => m) m
  | _ => m

/-- AMENDMENT_CUTOVER: the set sealed first takes effect as a whole, or is rejected as a whole. -/
def amendmentCutover (now : Nat) (m : Mach) : Mach :=
  match m.amd.sets with
  | [] => m
  | x :: rest =>
    if now < x.cut then m
    else
      let m := { m with amd := { m.amd with sets := rest } }
      let m := sf m F.AMD_INFO_SEALED [] rest.length
      let bad := stateFault m (applyItems m x.items) x.items (!x.software)
        || x.acts.any (fun a => !actOk m (fun f => gfb m F.TEN_FLD_STATUS_BOUND [f]) a)
      let m := if bad then x.acts.foldl rejectAct m
        else keepReplaced m (x.acts.foldl (doAct now ⟨tick48 x.cut, 144, 0⟩) (commitSet now x.cut m x.items)) x
      if !x.software then m
      else if bad then amdEnd now m 4 0x709 else amdEnd now m 3 0

/-- R57, R346: every set whose cut-over Fabric Time has reached takes effect, in the order they were sealed (DEDUCED: log entry 183). -/
def cutoversDue (now : Nat) : Nat → Mach → Mach
  | 0, m => m
  | n + 1, m => cutoversDue now n (amendmentCutover now m)

/-- The meaning of AMENDMENT_CUTOVER. -/
def execAmendmentCutover (s : State) := onMachW amendmentCutover s

/-! ### PERSIST (R338, R350) -/

/-- R338: a configuration slot is being written. -/
def slotBusy (m : Mach) : Bool := m.load.isSome || m.amd.persist.isSome

/-- The field that shows a configuration slot's SEQUENCE. -/
def seqField (k : Nat) : FieldRef := if k == 0 then F.AMD_SLOT_SEQ0_SEQUENCE else F.AMD_SLOT_SEQ1_SEQUENCE

/-- R338: MAGIC of configuration slot `k` becomes zero. -/
def clearMagic (k : Nat) (s : State) : State :=
  { s with mram := mwrite s.mram (cfgSlot k) [0, 0, 0, 0], m := sf s.m (seqField k) [] 0 }

/-- The configuration slot that is not active. -/
def inactiveSlot (m : Mach) : Nat := 1 - gf m F.AMD_CFG_SLOT_ACTIVE

/-- PERSIST: the configuration at this tick begins to go into the inactive slot. -/
def amdPersist (ticket : Nat) (s : State) : State :=
  let now := s.time.now.toNat
  if slotBusy s.m then { s with m := amdRefuse s.m 0x70D }
  else if gfb s.m F.SEC_OWNER_OWNER then
    let w := statusWord ticket 4 0x70F 0
    { s with m := opEnded (wr s.m Reg.AMD_PERSIST_STATUS [] w) now 0xD w }
  else
    let k := inactiveSlot s.m
    let b := gf s.m F.RTE_SELF_BOARD_ID
    let seq := max (gf s.m F.AMD_SLOT_SEQ0_SEQUENCE) (gf s.m F.AMD_SLOT_SEQ1_SEQUENCE) + 1
    let m := wr s.m Reg.AMD_PERSIST_STATUS [] (statusWord ticket 2 0 0)
    clearMagic k { s with m := { m with amd := { m.amd with persist := some (k, imageBytes (persistData s.m b) b seq) } } }

/-- The meaning of PERSIST_DONE: the last block has been written, or an MRAM write has failed. -/
def execPersistDone (ok : Bool) (s : State) : Host.Outcome State Fault Refusal :=
  match s.m.amd.persist with
  | none => .next s
  | some (k, bs) =>
    let now := s.time.now.toNat
    let m := { s.m with amd := { s.m.amd with persist := none } }
    let w0 := rd m Reg.AMD_PERSIST_STATUS
    if ok then
      let w := statusWord (getBits w0 63 48) 3 0 (bs.length / 4096)
      let m := sf (wr m Reg.AMD_PERSIST_STATUS [] w) (seqField k) [] (imgSeq bs)
      nextW { s with mram := mwrite s.mram (cfgSlot k) bs, m := opEnded m now 0xD w }
    else
      let w := statusWord (getBits w0 63 48) 4 0x70D 0
      nextW { s with m := opEnded (wr m Reg.AMD_PERSIST_STATUS [] w) now 0xD w }

end Sys2Proof.Machine
end

