-- ==== Sys2Proof/Machine/Access.lean ====
section
/-!
DEFINITION. The path of a management access (R9, R10, R243-R249, R352-R354, R477-R481): who may reach the Postmaster, what a register
shows, reads and writes of 1 to 64 bytes, and the event queue's pop.
-/

namespace Sys2Proof.Machine
open Sys2Proof

/-! ### What a register shows -/

/-- WITH OCC: the queue's letters on die and its blocks (R90, R96). -/
def showQueue (m : Mach) (q : Nat) (w : Word) : Word :=
  let k := queueOf m q
  setBits (setBits w 55 32 k.blocks.length) 20 0 (occupancy m.sof q)

/-- Sum over the 16 slices of quadrant `q`. -/
def quadSum (m : Mach) (q : Nat) (f : Slice → Nat) : Nat := ((List.range 16).map (fun k => f (sliceOf m (16 * q + k)))).sum

/-- HQn_HOST_STATUS: entries charged to host `h`, and whether it is over quota in some slice. -/
def showHost (m : Mach) (q h : Nat) (w : Word) : Word :=
  let overrun := (List.range 16).any (fun k => excess m (16 * q + k) (sliceOf m (16 * q + k)) h != 0)
  setBits (setBits w 63 34 (quadSum m q (fun s => usedBy (carbonK m (16 * q)) s h))) 33 33 (b2n overrun)

/-- FCH_SLICE of slice `s`. -/
def showSlice (m : Mach) (s : Nat) (w : Word) : Word :=
  let d := dirtyCount (sliceOf m s)
  setBits (setBits (setBits w 54 32 d) 1 1 (b2n (decide (budgetOf m ≤ d)))) 0 0 (b2n ((sliceOf m s).cleanDue != 0))

/-- R188: TICKs of writes to mirror group `g` that are on their way, or still owe a copy; a CXL.io write may reach any group. -/
def undrained (m : Mach) (g : Nat) : List Nat :=
  let writes (k : MsgKind) : Bool := isRwD k || k == .mwr || isAtomicOp k || k == .lineWr || k == .lineAtomic
  (m.sof.transit.filter (fun t => underWay t && writes t.msg.h.kind && (t.msg.attr.mirror == g || isIo t.msg.h.kind)
      && (match t.tgt with | .slice _ => true | _ => false))).map (fun t => t.msg.pm.tick)
    ++ (m.home.slices.map (fun x => (x.2.items.filter (fun i => i.msg.attr.mirror == g
      && (!i.copiesDue.isEmpty || (writes i.msg.h.kind && !i.committed)))).map (fun i => i.msg.pm.tick))).flatten

/-- FCH_MGRP_STATUS of group `g`: copies outstanding; and DRAINED, before which every write to the group is committed and its copies have
completed: no later than what an engine may still give (R188). -/
def showGroup (m : Mach) (now g : Nat) (w : Word) : Word :=
  let l := m.home.copies.filter (fun c => c.group == g)
  let t := ((List.range 16).map (fun e => localMark now m (128 + e) (tick48 now)) ++ l.map (·.tick) ++ undrained m g).foldl earlierTick (tick48 now)
  setBits (setBits w 62 48 l.length) 47 0 t

/-- SOF_DEVLOAD_STATUS of port `p`: unbound positions read 0 (R134). -/
def showDevload (m : Mach) (p : Nat) (w : Word) : Word :=
  (List.range 32).foldl (fun w k =>
    if (fldAt m p k).any (fun f => gfb m F.TEN_FLD_STATUS_BOUND [f]) then w else setBits w (2 * k + 1) (2 * k) 0) w

/-- R377: some held record has a SEVERITY of at least `sev`. -/
def heldSeverity (m : Mach) (sev : Nat) : Bool :=
  let h := gf m F.RAS_EVQ_PTR_HEAD
  (List.range (evqHeld m)).any (fun k => decide (sev ≤ getBits (tget 0 m.logs.evq (4 * ((h + k) % 4096))) 9 8))

/-- RAS_ALERT: the conditions that drive ALERT_N (R377, R400, R440). -/
def showAlert (m : Mach) (w : Word) : Word :=
  let wm := (List.range 64).any (fun k => gfb m F.RAS_WM_CFG_ALERT [k] && gfb m F.RAS_WM_STATUS_CROSS [k])
  let ctr := m.regs.any (fun x => decide (0xA010000 ≤ x.1) && decide (x.1 < 0xA014000) && getBits x.2 61 61 == 1 && getBits x.2 16 16 == 1)
  let w := setBits (setBits w 0 0 (b2n (gfb m F.RAS_EVQ_CFG_ALERT_EN && heldSeverity m (gf m F.RAS_EVQ_CFG_ALERT_SEV)))) 1 1 (b2n wm)
  setBits (setBits w 2 2 (b2n ctr)) 3 3 (b2n (gfb m F.AMD_CFG_SLOT_SAFE))

/-- R377: ALERT_N is pulled low. -/
def alertLow (s : State) : Bool := s.m.inl.on && (s.m.fw.recovery || getBits (showAlert s.m (rd s.m Reg.RAS_ALERT)) 4 0 != 0)

/-- MBX_FW_SLOTk. -/
def showFwSlot (s : State) (k : Nat) : Word :=
  let h := fwHeader s.mram k
  let hit := h.take 4 == hkfw
  BitVec.ofNat 64 ((if hit then fwVersion h * 2 ^ 32 + fwSvn h * 2 ^ 16 else 0) + (fwRecord s.mram k).1 % 16)

/-- MBX_FW_UCODE: a bit for each station that runs UC_VERSION. -/
def showUcode (m : Mach) (w : Word) : Word :=
  let v := gf m F.MBX_FW_UCODE_UC_VERSION
  setBits w 31 0 ((List.range 32).map (fun k => if tget 0 m.fw.ucode k == v + 1 then 2 ^ k else 0)).sum

/-- Blocks of FLD `f` in ACTIVE or RELEASING. -/
def mappedCount (m : Mach) (f : Nat) : Nat :=
  ((fldEntries m f).map (fun s => (m.regs.filter (fun x =>
    decide (0x6200000 + 8 * s.1 ≤ x.1) && decide (x.1 < 0x6200000 + 8 * (s.1 + s.2)) && getBits x.2 63 63 == 1)).length)).sum

/-- The ordering point that FTM_HZ_SEL selects (R43). -/
def selectedPoint (m : Mach) : Nat :=
  let p := gf m F.FTM_HZ_SEL_POINT
  if p < 128 then 8 * p + gf m F.FTM_HZ_SEL_CLASS else 1024 + (p - 128)

/-- A word of the ring of words `t`, read by slot without removing it. -/
def ringWord (t : Table Word) (width i w : Nat) : Word := tget 0 t (width * i + w)

/-- A word of the recorded-delivery window (R407). -/
def showRd (m : Mach) (k w : Nat) : Word :=
  let cap := gf m F.PMU_RD_CFG_CAP
  if cap == 0 then 0 else tget 0 m.pmu.rd (4 * ((gf m F.PMU_RD_WSEL_SLOT + k) % cap) + w)

/-- What register `r` at `ix` shows at the tick of a read (R11): its word, with the fields that follow other state put in. -/
def liveWord (s : State) (r : RegDef) (ix : List Nat) : Word :=
  let m := s.m
  let now := s.time.now.toNat
  let w := rd m r ix
  let i := ix.getD 0 0
  let j := ix.getD 1 0
  let b := r.base
  if b == Reg.FTM_NOW.base then s.time.now
  else if b == Reg.SOF_FREE.base then setBits w 20 0 (freeLetters m.sof)
  else if b == Reg.SOF_MAILBAG.base then setBits w 23 0 (mailbagUsed m.sof)
  else if b == Reg.SOF_DEVLOAD_STATUS.base then showDevload m i w
  else if b == Reg.SOF_PORT_STATUS.base then setBits w 42 32 (sorterUsed m i)
  else if b == Reg.SOF_Q_OCC.base then showQueue m i w
  else if b == Reg.SOF_ING_STATUS.base then
    setBits (setBits w 63 56 (withheldMask m i)) 48 40 (m.sof.unreceipted.filter (fun u => u.port == i)).length
  else if b == Reg.HQ_CARBON_STATUS.base then
    setBits (setBits w 51 32 (quadSum m i (fun k => k.wideUsed.length))) 23 17
      (((List.range 16).map (fun k => (sliceOf m (16 * i + k)).evb.length)).foldl max 0)
  else if b == Reg.HQ_HOST_STATUS.base then showHost m i j w
  else if b == Reg.FCH_STATUS.base then setBits w 60 32 (m.home.slices.map (fun x => dirtyCount x.2)).sum
  else if b == Reg.FCH_SLICE.base then showSlice m i w
  else if b == Reg.FCH_MGRP_STATUS.base then showGroup m now i w
  else if b == Reg.PCL_SLOT_STATUS.base then
    let a := (tget {} m.eng.slots (16 * i + j)).cur
    statusWord a.ticket a.state a.reason (min a.progress (2 ^ 32 - 1))
  else if b == Reg.PCL_ENG_STATUS.base then setBits w 48 32 (m.eng.parcels.filter (fun p => p.engine == i)).length
  else if b == Reg.TEN_FLD_STATUS.base then setBits w 51 32 (mappedCount m i)
  else if b == Reg.RTE_PORT_ID.base then setBits w 17 12 (gf m F.RTE_SELF_DISTRICT)
  else if b == Reg.RAS_DL_ENTRY.base then ringWord m.logs.dl 8 i j
  else if b == Reg.RAS_LOG_ENTRY.base then ringWord m.logs.ras 8 i j
  else if b == Reg.RAS_EVQ_ENTRY.base then ringWord m.logs.evq 4 i j
  else if b == Reg.PMU_TRK_ENTRY.base then ringWord m.pmu.trk 2 i j
  else if b == Reg.PMU_RD_WIN.base then showRd m i j
  else if b == Reg.RAS_EVQ_STATUS.base then setBits w 36 24 (evqHeld m)
  else if b == Reg.RAS_ALERT.base then showAlert m w
  else if b == Reg.RAS_PLOG_STATUS.base then BitVec.ofNat 64 (s.nvm.plogNext * 2 ^ 32 + s.nvm.boot)
  else if b == Reg.RAS_PLOG_REC.base then BitVec.ofNat 64 (mnat s.mram (plogAddr (gf m F.RAS_PLOG_SEL_SLOT) + 8 * i) 8)
  else if b == Reg.INL_TEMP.base then setBits w 63 48 (min 65535 (heatNow m.inl s.time.up / 8000000000))
  else if b == Reg.MBX_FW_SLOT0.base then showFwSlot s 0
  else if b == Reg.MBX_FW_SLOT1.base then showFwSlot s 1
  else if b == Reg.MBX_FW_UCODE.base then showUcode m w
  else w

/-- A read of the 8-byte word at `a`, and whether it holds no register (R8, R478). FTM_HZ before every active source has given a
mark shows a horizon that no rule states. The NVM window shows the configuration slots (R480). -/
def readWord (s : State) (a : Nat) : (Word × Bool) × State :=
  if 0x10000000 ≤ a then ((0, true), s)
  else if 0xF000000 ≤ a then ((BitVec.ofNat 64 (mnat s.mram (0x4000000 + (a - 0xF000000)) 8), false), s)
  else match regFind a with
    | none => ((0, true), s)
    | some (r, ix) =>
      if r.base == Reg.FTM_HZ.base then match horizonHolder s.m (selectedPoint s.m) with
        | some (t, src) => ((BitVec.ofNat 64 (t % 2 ^ 48 + src * 2 ^ 48), false), s)
        | none => let (v, m) := takeFree s.m; ((v &&& BitVec.ofNat 64 (2 ^ 56 - 1), false), { s with m := m })
      else if r.base == Reg.RAS_EVQ_POP.base then ((0, false), s)
      else ((liveWord s r ix, false), s)

/-! ### Who reaches the Postmaster (R352, R383) -/

/-- The Postmaster serves accesses: step 4 is reached, a pair works, and its firmware runs. -/
def serving_ (s : State) : Bool := s.m.inl.on && !s.m.fw.recovery && gf s.m F.RAS_AVAIL_PM_PAIRS != 0

/-- R453: a port on which IDE is required carries management traffic only while its streams are Secure. -/
def ideClear (m : Mach) (p : Nat) : Bool :=
  !gfb m F.SEC_IDE_CFG_IDE_REQ [p] || role m p == 3 || (gfb m F.SEC_IDE_STATUS_CM_SECURE [p] && gfb m F.SEC_IDE_STATUS_LINK_SECURE [p])

/-- The interface leads to the Postmaster now. -/
def reaches (s : State) : Iface → Bool
  | .cci p => serving_ s && !gfb s.m F.GLB_STATUS_SAFE && gfb s.m F.MBX_PORT_CFG_MGMT_EN [p] && role s.m p == 1
      && gfb s.m F.STN_LINK_STATUS_READY (st p) && ideClear s.m p
  | .pcie p => serving_ s && !gfb s.m F.GLB_STATUS_SAFE && gfb s.m F.MBX_PORT_CFG_MCTP_EN [p]
      && gfb s.m F.STN_LINK_STATUS_READY (st p) && ideClear s.m p
  | .i3c => serving_ s && s.m.i3cAddr != 0
  | .brumin mac sess => serving_ s && (!sess || s.m.sec.sessions.contains (.brumin mac false))
  | _ => false

/-- R456: the debug token in force binds the address `mac`; an access in the tick of expiry is refused. -/
def tokenOf (s : State) (mac : Nat) : Option Token :=
  match s.m.sec.token with
  | some t => if t.mac == mac && decide (s.time.now.toNat < t.ends) then some t else none
  | none => none

/-- R238: the source group of an interface. -/
def groupOf (s : State) : Iface → Nat
  | .cci p => gf s.m F.GRD_PORT_SG_SGROUP [p]
  | .pcie p => gf s.m F.GRD_PORT_SG_SGROUP [p]
  | .i3c => gf s.m F.GRD_MGMT_SG_I3C
  | .brumin mac sess => if !sess && (tokenOf s mac).isSome then gf s.m F.GRD_MGMT_SG_DEBUG else gf s.m F.GRD_MGMT_SG_BRUMIN
  | _ => 0

/-- The postcode that a fault record names: the port's, or 0 where the interface is no port. -/
def codeOf (m : Mach) : Iface → Nat
  | .cci p => portPostcode m p
  | .pcie p => portPostcode m p
  | _ => 0

/-! ### The gate (R9, R243, R247, R248, R354) -/

/-- R354: an access-denied answer is counted. -/
def noteDenied (m : Mach) : Mach := ackEvent m F.MBX_STATUS_DENIED

/-- R248: the address lies in a locked region. -/
def lockedRegion (m : Mach) (a : Nat) : Bool :=
  (decide (0xC800000 ≤ a) && decide (a < 0xD000000))
    || (validRules m).any (fun i => gfb m F.GRD_RULE_MATCH_LOCK [i] && ruleCovers m i 1 a)

/-- R248: an access to a locked region is logged. -/
def lockedAccess (now : Nat) (m : Mach) (a sg src : Nat) (write : Bool) : Mach :=
  let m := sf (sf (sf m F.GRD_LOCK_ERR_LAST_ADDR [] a) F.GRD_LOCK_ERR_LAST_SG [] sg) F.GRD_LOCK_ERR_LAST_WRITE [] (b2n write)
  rasLog (ackEvent m F.GRD_LOCK_ERR_LOCKED) now 0x13 2 0 ⟨tick48 now, 144, 0⟩ a 2 sg src (b2n write)

/-- R9: 1 to 64 bytes that cross no 64-byte boundary. -/
def framed (a len : Nat) : Bool := decide (1 ≤ len) && decide (len ≤ 64) && decide (a / 64 == (a + len - 1) / 64) && decide (a < 2 ^ 32)

/-- The gate that every access passes: the STATUS of one that goes no further, and the machine. -/
def gate (who : Iface) (a len : Nat) (write : Bool) (s : State) : Option Nat × Mach :=
  let now := s.time.now.toNat
  let m := s.m
  if !framed a len then (some 2, m)
  else if lockedRegion m a then (some 0, lockedAccess now m a (groupOf s who) (codeOf m who) write)
  else match guardCheck (cfgAt m ⟨tick48 now, 144, 0⟩) 1 a 2 (groupOf s who) ⟨!write, write⟩ with
    | .deny cause rule =>
      let m := noteDenied (guardFault m now ⟨tick48 now, 144, 0⟩ (codeOf m who) 2 (groupOf s who) a cause rule)
      (some 1, if write then countDiscard m else m)
    | .allow => (none, m)

/-- The 8-byte words that an access touches, in ascending order (R479). -/
def wordsOf (a len : Nat) : List Nat := ((List.range 9).map (fun k => a / 8 * 8 + 8 * k)).filter (fun w => w < a + len)

/-! ### The event queue (R374) -/

/-- The oldest record leaves the queue; a blank record where it is empty. -/
def evqPop (m : Mach) : List Byte × Mach :=
  if evqHeld m == 0 then (List.replicate 32 0, m)
  else
    let h := gf m F.RAS_EVQ_PTR_HEAD
    let bs := ((tgetList 0 m.logs.evq (4 * (h % 4096)) 4).map (fun w => natLe 8 w.toNat)).flatten
    (bs, rearmPorts (sf m F.RAS_EVQ_PTR_HEAD [] ((h + 1) % 8192)))

/-- Up to `k` records leave the queue. -/
def evqTake : Nat → Mach → List (List Byte) × Mach
  | 0, m => ([], m)
  | k + 1, m =>
    if evqHeld m == 0 then ([], m)
    else
      let (b, m) := evqPop m
      let (l, m) := evqTake k m
      (b :: l, m)

/-! ### Reads -/

/-- R479: the words are read in one snapshot. -/
def readWords : List Nat → State → (List Byte × Bool) × State
  | [], s => (([], false), s)
  | a :: as, s =>
    let ((w, gap), s) := readWord s a
    let ((bs, gap'), s) := readWords as s
    ((natLe 8 w.toNat ++ bs, gap || gap'), s)

/-- A management read: STATUS, data and the state. -/
def regRead (who : Iface) (a len : Nat) (s : State) : Nat × List Byte × State :=
  match gate who a len false s with
  | (some k, m) => (k, if k == 2 then [] else List.replicate len 0, { s with m := m })
  | (none, _) =>
    if a == Reg.RAS_EVQ_POP.base && len == 32 then
      let (bs, m) := evqPop s.m
      (0, bs, { s with m := wmAll s.time.now.toNat m })
    else
      let ((bs, gap), s) := readWords (wordsOf a len) s
      (0, bytesAt bs (a % 8) len, if gap then { s with m := countUnmapped s.m } else s)

/-! ### TSP lock and reset (R454, R481) -/

/-- R454: every member and Courier port requires IDE, and every Courier session has it on. -/
def tspAllowed (m : Mach) : Bool :=
  (livePorts m).all (fun p => (role m p != 2 && role m p != 3) || (gfb m F.SEC_IDE_CFG_IDE_REQ [p]
    && (role m p != 3 || gf m F.STN_CRL_STATUS_CSTATE (st p) != 3 || gfb m F.STN_CRL_STATUS_IDE_ON (st p))))

/-- R454: a request for the TSP lock, with the ticket written, or 0 for a host's. -/
def tspLock (ticket : Nat) (m : Mach) : Mach :=
  let ok := gfb m F.SEC_TSP_LOCK || tspAllowed m
  let w := if ok then statusWord ticket 3 0 0 else statusWord ticket 4 0x709 0
  let m := wr m Reg.SEC_TSP_STATUS [] w
  if ok then sf m F.SEC_TSP_LOCK [] 1 else m

/-- R454, R373: software's request; a refusal of it writes an event. -/
def tspSoftware (ticket now : Nat) (m : Mach) : Mach :=
  let m := tspLock ticket m
  let w := rd m Reg.SEC_TSP_STATUS
  if stState w == 4 then event m now 3 1 0xC pmNone w.toNat else m

/-- R481: WARM of GLB_RESET: a warm reset 1 ms on; a second write has no further effect. -/
def glbReset (now : Nat) (m : Mach) : Mach :=
  if m.resets.any (fun r => r.1 == 3) then m else { m with resets := m.resets ++ [(3, now + 4000000)] }

/-- R29: a write of FTM_LOAD. An offset still being slewed is dropped (DESIGN CHOICE: log entry 172). -/
def ftmLoad (v : Word) (s : State) : State :=
  if s.time.locked then { s with m := countDiscard s.m } else { s with time := { s.time with now := v, slew := 0 } }

/-! ### Writes -/

/-- R419: the written word asks for REARM over another interface than Brumin or I3C. -/
def rearmDenied (who : Iface) (r : RegDef) (v : Word) : Bool :=
  r.base == Reg.INL_CTL.base && wf v F.INL_CTL_REARM == 1 && (match who with | .brumin _ _ => false | .i3c => false | _ => true)

/-- R348, R354, R419, R454: an access is discarded with the access-denied status for the word at `a`. -/
def wordDenied (who : Iface) (m : Mach) (a : Nat) (v : Word) : Bool :=
  match regFind a with
  | some (r, ix) => sealedAddr m a || tspWord m r ix || rearmDenied who r v
  | none => false

/-- The commands of AMD_CMD, of which PERSIST alone touches MRAM. -/
def amdCmd (who : Iface) (cmd ticket : Nat) (s : State) : State :=
  match cmd with
  | 1 => { s with m := amdOpen who ticket s.m }
  | 2 => { s with m := amdDispatch who s.m }
  | 3 => { s with m := amdCheck who s.m }
  | 4 => { s with m := amdDiscard who s.time.now.toNat s.m }
  | 5 => amdPersist ticket s
  | _ => s

/-- A write that takes effect: registers whose W1S and WO fields reach beyond the machine's tables act here. -/
def commitWord (who : Iface) (r : RegDef) (ix : List Nat) (v mask : Word) (s : State) : State :=
  let now := s.time.now.toNat
  let b := r.base
  let s := if b == Reg.FTM_LOAD.base || b == Reg.GLB_RESET.base || b == Reg.SEC_TSP.base || b == Reg.AMD_CMD.base
      || b == Reg.AMD_STAGE_ADDR.base then s
    else { s with m := writeReg now ⟨tick48 now, 144, 0⟩ s.m r ix v mask }
  if b == Reg.FTM_LOAD.base then ftmLoad v s
  else if b == Reg.GLB_RESET.base then (if wf v F.GLB_RESET_WARM == 1 then { s with m := glbReset now s.m } else s)
  else if b == Reg.SEC_TSP.base then
    if wf v F.SEC_TSP_LOCK == 1 then { s with m := tspSoftware (wf v F.SEC_TSP_TICKET) now s.m } else s
  else if b == Reg.INL_CTL.base then
    if wf v F.INL_CTL_REARM == 1 then { s with m := clearLatch now s.m } else s
  else if b == Reg.AMD_CMD.base then amdCmd who (wf v F.AMD_CMD_CMD) (wf v F.AMD_CMD_TICKET) s
  else if b == Reg.AMD_STAGE_ADDR.base then { s with m := amdStageItem who (wf v F.AMD_STAGE_ADDR_ADDRESS) s.m }
  else s

/-- One register of a write: a fault where it puts a non-zero value into a reserved field or encoding (R7, R446); the second
component says that the word holds no register. -/
def writeWord (who : Iface) (a : Nat) (v mask : Word) (s : State) : Sum Fault (State × Bool) :=
  if 0x10000000 ≤ a then .inr (s, true)
  else if 0xF000000 ≤ a then .inr ({ s with m := countDiscard s.m }, false)
  else match regFind a with
    | none => .inr (s, true)
    | some (r, ix) =>
      let w := writtenWord r (rd s.m r ix) v mask
      match writeDiscarded s.m a r ix w mask with
      | some m => .inr ({ s with m := m }, false)
      | none => if reservedHit s.m r ix v mask w then .inl (.reservedWrite a) else .inr (commitWord who r ix v mask s, false)

/-- The part of a write that falls in the word at `w`: value and mask. -/
def wordPart (a : Nat) (bs : List Byte) (w : Nat) : Word × Word :=
  let at_ (k : Nat) : Option Byte := if a ≤ w + k then bs[w + k - a]? else none
  let sum (f : Byte → Nat) : Nat := ((List.range 8).map (fun k => ((at_ k).elim 0 f) * 256 ^ k)).sum
  (BitVec.ofNat 64 (sum (·.toNat)), BitVec.ofNat 64 (sum (fun _ => 255)))

/-- R479: the registers of a write, in ascending address order at its tick. -/
def writeWords (who : Iface) (a : Nat) (bs : List Byte) : List Nat → State → Bool → Sum Fault (State × Bool)
  | [], s, gap => .inr (s, gap)
  | w :: ws, s, gap =>
    match writeWord who w (wordPart a bs w).1 (wordPart a bs w).2 s with
    | .inl f => .inl f
    | .inr (s, g) => writeWords who a bs ws s (gap || g)

/-- A management write: STATUS and the state. -/
def regWrite (who : Iface) (a : Nat) (bs : List Byte) (s : State) : Sum Fault (Nat × State) :=
  match gate who a bs.length true s with
  | (some k, m) => .inr (k, { s with m := m })
  | (none, _) =>
    if (wordsOf a bs.length).any (fun w => wordDenied who s.m w (wordPart a bs w).1) then
      .inr (1, { s with m := noteDenied (countDiscard s.m) })
    else match writeWords who a bs (wordsOf a bs.length) s false with
      | .inl f => .inl f
      | .inr (s, gap) =>
        let m := if gap then countUnmapped s.m else s.m
        .inr (0, { s with m := wmAll s.time.now.toNat m })

/-! ### Commands and the handover (R353, R358) -/

/-- Opcode of a mailbox command, as CXL 3.1 numbers them, for the background operation it becomes during a handover. -/
def opcodeFor : Instr → Nat
  | .identify .. => 0x0001 | .backgroundOperationStatus .. => 0x0002
  | .getResponseMessageLimit .. => 0x0003 | .setResponseMessageLimit .. => 0x0004
  | .getEventRecords .. => 0x0100 | .clearEventRecords .. => 0x0101
  | .getEventInterruptPolicy .. => 0x0102 | .setEventInterruptPolicy .. => 0x0103
  | .getFwInfo .. => 0x0200 | .transferFw .. => 0x0201 | .activateFw .. => 0x0202
  | .getDynamicCapacityConfiguration .. => 0x4800 | .getDynamicCapacityExtentList .. => 0x4801
  | .addDynamicCapacityResponse .. => 0x4802 | .releaseDynamicCapacity .. => 0x4803
  | .getTimestamp .. => 0x0300 | .setTimestamp .. => 0x0301
  | .physicalPortControl .. => 0x5102 | .bindVppb .. => 0x5201 | .unbindVppb .. => 0x5202
  | .tunnelManagementCommand .. => 0x5300 | .sendLdCxlIoConfigurationRequest .. => 0x5301
  | .sendLdCxlIoMemoryRequest .. => 0x5302 | .getLdInfo .. => 0x5400
  | .getLdAllocations .. => 0x5401 | .setLdAllocations .. => 0x5402
  | .setDcRegionConfiguration .. => 0x5602 | .initiateDynamicCapacityAdd .. => 0x5604
  | .initiateDynamicCapacityRelease .. => 0x5605 | .pbrIdAssignment .. => 0x5701
  | .registerRead .. => 0xC000 | .registerWrite .. => 0xC001 | .eventQueueRead .. => 0xC002
  | .amendmentCommand .. => 0xC003 | .stageItems .. => 0xC004
  | _ => 0xC001

/-- R358: a command that arrives during a handover: a mailbox command is answered Background Command Started, or Busy where the CCI
has one already; every other request is held. -/
def holdCommand (who : Iface) (i : Instr) (m : Mach) : Mach :=
  let later (m : Mach) : Mach := { m with fw := { m.fw with held_ := m.fw.held_ ++ [i] } }
  match who with
  | .cci _ | .fld _ =>
    if ((cciOf m who).bg).any (fun b => !b.done) then answer m who .busy
    else answer (later (modCci m who (fun c => { c with bg := some ⟨opcodeFor i, false, .success, 0, []⟩ }))) who .background
  | _ => later m

/-- R392: new firmware on trial serves a management access of its own. -/
def noteServed (s : State) : State := if s.m.fw.act == 4 then { s with m := { s.m with fw := { s.m.fw with served := true } } } else s

/-- A management command from `who`: nothing where the interface does not lead to the Postmaster; later where a handover runs. -/
def managed (who : Iface) (i : Instr) (act : State → Host.Outcome State Fault Refusal) (s : State) : Host.Outcome State Fault Refusal :=
  if !reaches s who then .next s
  else if s.m.fw.handEnd != 0 then .next { s with m := holdCommand who i s.m }
  else act (noteServed s)

/-- R219, R231: a command reaches the mailbox of FLD `f`, behind its BAR: the FLD is bound and its port READY. -/
def fldReached (s : State) (f : Nat) : Bool :=
  serving_ s && !gfb s.m F.GLB_STATUS_SAFE && fldServes s.m f && gfb s.m F.STN_LINK_STATUS_READY (st (gf s.m F.TEN_FLD_CFG_PORT [f]))

/-- R219, R358: a command of the mailbox of FLD `f`. -/
def fldMailbox (f : Nat) (i : Instr) (act : State → Host.Outcome State Fault Refusal) (s : State) : Host.Outcome State Fault Refusal :=
  if !fldReached s f then .next s
  else if s.m.fw.handEnd != 0 then .next { s with m := holdCommand (.fld f) i s.m }
  else act s

/-- The same for a command that cannot fault. -/
def managedNext (who : Iface) (i : Instr) (act : State → State) (s : State) : Host.Outcome State Fault Refusal :=
  managed who i (fun s => .next (act s)) s

/-- A write of one whole register from `who`, with its response. -/
def putReg (who : Iface) (a : Nat) (v : Word) (s : State) : Host.Outcome State Fault Refusal :=
  match regWrite who a (natLe 8 v.toNat) s with
  | .inl f => .fault f
  | .inr (k, s) => .next { s with m := respond s.m { whom := who, status := k } }

/-- The meaning of MGMT_REGISTER_WRITE: a write of register `a` takes effect at its tick of issue (R353). -/
def execMgmtRegisterWrite (who : Iface) (a : Nat) (v : Word) (s : State) :=
  managed who (.mgmtRegisterWrite who a v) (putReg who a v) s

/-- The meaning of ACK_FLAG_WRITE: each flag whose count is still the one written back clears (R369). -/
def execAckFlagWrite (who : Iface) (a : Nat) (v : Word) (s : State) :=
  managed who (.ackFlagWrite who a v) (putReg who a v) s

/-- The meaning of FTM_LOAD (R29). -/
def execFtmLoad (who : Iface) (v : Word) (s : State) :=
  managed who (.ftmLoad who v) (putReg who Reg.FTM_LOAD.base v) s

/-- The meaning of GLB_RESET: WARM is written (R481). -/
def execGlbReset (who : Iface) (s : State) := managed who (.glbReset who) (putReg who Reg.GLB_RESET.base 1) s

/-- The word that AMD_CMD takes. -/
def amdWord (cmd ticket : Nat) : Word := BitVec.ofNat 64 (cmd % 16 + ticket % 65536 * 2 ^ 48)

/-- The meaning of AMD_OPEN. -/
def execAmdOpen (who : Iface) (ticket : Nat) (s : State) :=
  managed who (.amdOpen who ticket) (putReg who Reg.AMD_CMD.base (amdWord 1 ticket)) s

/-- The meaning of AMD_STAGE_ITEM: AMD_STAGE_ADDR is written with `a`. -/
def execAmdStageItem (who : Iface) (a : Nat) (s : State) :=
  managed who (.amdStageItem who a) (putReg who Reg.AMD_STAGE_ADDR.base (BitVec.ofNat 64 (a % 2 ^ 32))) s

/-- The meaning of AMD_CHECK. -/
def execAmdCheck (who : Iface) (s : State) := managed who (.amdCheck who) (putReg who Reg.AMD_CMD.base (amdWord 3 0)) s

/-- The meaning of AMD_DISPATCH. -/
def execAmdDispatch (who : Iface) (s : State) := managed who (.amdDispatch who) (putReg who Reg.AMD_CMD.base (amdWord 2 0)) s

/-- The meaning of AMD_DISCARD. -/
def execAmdDiscard (who : Iface) (s : State) := managed who (.amdDiscard who) (putReg who Reg.AMD_CMD.base (amdWord 4 0)) s

/-- The meaning of AMD_PERSIST. -/
def execAmdPersist (who : Iface) (ticket : Nat) (s : State) :=
  managed who (.amdPersist who ticket) (putReg who Reg.AMD_CMD.base (amdWord 5 ticket)) s

/-- The meaning of REARM: REARM is written with the other fields of INL_CTL as they stand (R419). -/
def execRearm (who : Iface) (s : State) :=
  managed who (.rearm who) (fun s => putReg who Reg.INL_CTL.base (setBits (rd s.m Reg.INL_CTL) 16 16 1) s) s

/-- The meaning of INL_PD_CTL_WRITE (R422). -/
def execInlPdCtlWrite (who : Iface) (v : Word) (s : State) :=
  managed who (.inlPdCtlWrite who v) (putReg who Reg.INL_PD_CTL.base v) s

/-- The meaning of TSP_LOCK: LOCK is written with a ticket (R454). -/
def execTspLock (who : Iface) (ticket : Nat) (s : State) :=
  managed who (.tspLock who ticket) (putReg who Reg.SEC_TSP.base (BitVec.ofNat 64 (1 + ticket % 65536 * 2 ^ 48))) s

/-- The meaning of EVQ_POP: the 32-byte read at RAS_EVQ_POP0 (R374). -/
def execEvqPop (who : Iface) (s : State) :=
  managedNext who (.evqPop who) (fun s =>
    let (k, bs, s) := regRead who Reg.RAS_EVQ_POP.base 32 s
    { s with m := respond s.m { whom := who, status := k, body := bs } }) s

/-- The meaning of EVQ_HEAD_WRITE (R374, R376). -/
def execEvqHeadWrite (who : Iface) (v : Nat) (s : State) :=
  managed who (.evqHeadWrite who v) (putReg who Reg.RAS_EVQ_PTR.base (BitVec.ofNat 64 (v % 8192 * 2 ^ 32))) s

/-- The meaning of WM_CONFIG_WRITE: RAS_WM_CFG, or RAS_WM_HYST, of monitor `k` is written (R370). -/
def execWmConfigWrite (who : Iface) (k : Nat) (hyst : Bool) (v : Word) (s : State) :=
  managed who (.wmConfigWrite who k hyst v) (putReg who (0xB310000 + 32 * k + (if hyst then 8 else 0)) v) s

end Sys2Proof.Machine
end

