-- ==== Sys2Proof/Machine/Management.lean ====
section
/-!
DEFINITION. Chapter 16: the commands of the Switch CCI and the FM API (R355, R356, R228, R231, R62) and the vendor commands (R357).
-/

namespace Sys2Proof.Machine
open Sys2Proof

/-- R352, R355, R359: the interfaces that carry the FM API. -/
def fmApi : Iface → Bool
  | .cci _ => true
  | .pcie _ => true
  | .i3c => true
  | _ => false

/-- A command of the FM API; the mailbox of an FLD does not support it. -/
def cciCommand (who : Iface) (i : Instr) (act : State → Host.Outcome State Fault Refusal) (s : State) : Host.Outcome State Fault Refusal :=
  match who with
  | .fld f => fldMailbox f i (fun s => .next { s with m := answer s.m who .unsupported }) s
  | _ => if fmApi who then managed who i act s else .next s

/-- A command that the mailbox of an FLD serves too (R219: DESIGN CHOICE, log entry 182). -/
def deviceCommand (who : Iface) (i : Instr) (act : State → Host.Outcome State Fault Refusal) (s : State) :
    Host.Outcome State Fault Refusal :=
  match who with
  | .fld f => fldMailbox f i act s
  | _ => cciCommand who i act s

/-- The same for a command whose effect is on the machine alone. -/
def deviceMach (who : Iface) (i : Instr) (act : Nat → Mach → Mach) (s : State) : Host.Outcome State Fault Refusal :=
  deviceCommand who i (onMachW act) s

/-- The same for a command whose effect is on the machine alone. -/
def cciMach (who : Iface) (i : Instr) (act : Nat → Mach → Mach) (s : State) : Host.Outcome State Fault Refusal :=
  cciCommand who i (onMachW act) s

/-! ### Dynamic capacity, binding and PBR (R219, R228, R231, R349, R62) -/

/-- A dynamic-capacity command of the mailbox of FLD `f`. -/
def fldMach (f : Nat) (i : Instr) (act : Nat → Mach → Mach) (s : State) : Host.Outcome State Fault Refusal := fldMailbox f i (onMachW act) s

/-- The meaning of GET_DYNAMIC_CAPACITY_CONFIGURATION. -/
def execGetDynamicCapacityConfiguration (f : Nat) (s : State) :=
  fldMach f (.getDynamicCapacityConfiguration f) (getDynamicCapacityConfiguration f) s

/-- The meaning of GET_DYNAMIC_CAPACITY_EXTENT_LIST. -/
def execGetDynamicCapacityExtentList (f : Nat) (s : State) :=
  fldMach f (.getDynamicCapacityExtentList f) (getDynamicCapacityExtentList f) s

/-- The meaning of ADD_DYNAMIC_CAPACITY_RESPONSE. -/
def execAddDynamicCapacityResponse (f tick : Nat) (acc rej : List (Nat × Nat)) (s : State) :=
  fldMach f (.addDynamicCapacityResponse f tick acc rej) (addDynamicCapacityResponse f tick acc rej) s

/-- The meaning of RELEASE_DYNAMIC_CAPACITY. -/
def execReleaseDynamicCapacity (f tick : Nat) (xs : List (Nat × Nat)) (s : State) :=
  fldMach f (.releaseDynamicCapacity f tick xs) (releaseDynamicCapacity f tick xs) s

/-- The meaning of INITIATE_DYNAMIC_CAPACITY_ADD. -/
def execInitiateDynamicCapacityAdd (who : Iface) (f : Nat) (prescriptive : Bool) (xs : List (Nat × Nat)) (s : State) :=
  cciMach who (.initiateDynamicCapacityAdd who f prescriptive xs) (initiateAdd who f prescriptive xs) s

/-- The meaning of INITIATE_DYNAMIC_CAPACITY_RELEASE. -/
def execInitiateDynamicCapacityRelease (who : Iface) (f : Nat) (prescriptive forced : Bool) (xs : List (Nat × Nat)) (s : State) :=
  cciMach who (.initiateDynamicCapacityRelease who f prescriptive forced xs) (initiateRelease who f prescriptive forced xs) s

/-- The meaning of BIND_VPPB. -/
def execBindVppb (who : Iface) (p v q : Nat) (s : State) := cciMach who (.bindVppb who p v q) (bindVppb who p v q) s

/-- The meaning of UNBIND_VPPB. -/
def execUnbindVppb (who : Iface) (p v opt : Nat) (s : State) := cciMach who (.unbindVppb who p v opt) (unbindVppb who p v opt) s

/-- The meaning of SET_DC_REGION_CONFIGURATION. -/
def execSetDcRegionConfiguration (who : Iface) (f r bsz : Nat) (sor : Bool) (s : State) :=
  cciMach who (.setDcRegionConfiguration who f r bsz sor) (setDcRegion who f r bsz sor) s

/-- The meaning of PBR_ID_ASSIGNMENT. -/
def execPbrIdAssignment (who : Iface) (p id : Nat) (s : State) := cciMach who (.pbrIdAssignment who p id) (pbrAssign who p id) s

/-! ### Information and status -/

/-- Return code of a mailbox command, as CXL 3.1 numbers them. -/
def retCode : Ret → Nat
  | .success => 0
  | .background => 1
  | .invalidInput => 2
  | .unsupported => 3
  | .busy => 6
  | .unstated c => c

/-- R219, R355: the payload of a mailbox as a power of two: 4 KiB of an FLD's, 8 KiB of a Switch CCI's. -/
def payloadOf : Iface → Nat
  | .fld _ => 12
  | _ => 13

/-- CXL 3.1's type of the component that a mailbox belongs to: a switch, or a Type 3 device. -/
def componentOf : Iface → Nat
  | .fld _ => 3
  | _ => 0

/-- R355: IDENTIFY: vendor ID, serial number, the payload's size as a power of two, and the type of component. -/
def identify (who : Iface) (_now : Nat) (m : Mach) : Mach :=
  answer m who .success [gf m F.GLB_ID_VENDOR, gf m F.SEC_LIFECYCLE_SERIAL, payloadOf who, componentOf who]

/-- The meaning of IDENTIFY. -/
def execIdentify (who : Iface) (s : State) := deviceMach who (.identify who) (identify who) s

/-- R355: BACKGROUND_OPERATION_STATUS: whether one runs, its opcode, and how it ended. -/
def backgroundOperationStatus (who : Iface) (_now : Nat) (m : Mach) : Mach :=
  answer m who .success (match (cciOf m who).bg with
    | some b => [b2n (!b.done), b.opcode, if b.done then retCode b.ret else 0]
    | none => [0, 0, 0])

/-- The meaning of BACKGROUND_OPERATION_STATUS. -/
def execBackgroundOperationStatus (who : Iface) (s : State) :=
  deviceMach who (.backgroundOperationStatus who) (backgroundOperationStatus who) s

/-- R355: GET_RESPONSE_MESSAGE_LIMIT. -/
def getResponseMessageLimit (who : Iface) (_now : Nat) (m : Mach) : Mach := answer m who .success [min (cciOf m who).limit (payloadOf who)]

/-- The meaning of GET_RESPONSE_MESSAGE_LIMIT. -/
def execGetResponseMessageLimit (who : Iface) (s : State) := deviceMach who (.getResponseMessageLimit who) (getResponseMessageLimit who) s

/-- R355: SET_RESPONSE_MESSAGE_LIMIT: 256 bytes up to the mailbox's payload, as powers of two. -/
def setResponseMessageLimit (who : Iface) (n : Nat) (_now : Nat) (m : Mach) : Mach :=
  if 8 ≤ n && n ≤ payloadOf who then answer (modCci m who (fun c => { c with limit := n })) who .success [n] else answer m who .invalidInput

/-- The meaning of SET_RESPONSE_MESSAGE_LIMIT. -/
def execSetResponseMessageLimit (who : Iface) (n : Nat) (s : State) :=
  deviceMach who (.setResponseMessageLimit who n) (setResponseMessageLimit who n) s

/-! ### Events -/

/-- R355: GET_EVENT_RECORDS: the handles of the records in one of the CCI's CXL event logs. -/
def getEventRecords (who : Iface) (log : Nat) (_now : Nat) (m : Mach) : Mach :=
  if 5 ≤ log then answer m who .invalidInput
  else answer m who .success (((cciOf m who).events.filter (fun e => e.1 == log)).map (·.2))

/-- The meaning of GET_EVENT_RECORDS. -/
def execGetEventRecords (who : Iface) (log : Nat) (s : State) := deviceMach who (.getEventRecords who log) (getEventRecords who log) s

/-- R355: CLEAR_EVENT_RECORDS: all of a log, or the records with the given handles. -/
def clearEventRecords (who : Iface) (log : Nat) (all : Bool) (hs : List Nat) (_now : Nat) (m : Mach) : Mach :=
  if 5 ≤ log then answer m who .invalidInput
  else answer (modCci m who (fun c => { c with events := c.events.filter (fun e => e.1 != log || !(all || hs.contains e.2)) })) who .success

/-- The meaning of CLEAR_EVENT_RECORDS. -/
def execClearEventRecords (who : Iface) (log : Nat) (all : Bool) (hs : List Nat) (s : State) :=
  deviceMach who (.clearEventRecords who log all hs) (clearEventRecords who log all hs) s

/-- R355: GET_EVENT_INTERRUPT_POLICY. -/
def getEventInterruptPolicy (who : Iface) (_now : Nat) (m : Mach) : Mach := answer m who .success [(cciOf m who).policy.toNat]

/-- The meaning of GET_EVENT_INTERRUPT_POLICY. -/
def execGetEventInterruptPolicy (who : Iface) (s : State) := deviceMach who (.getEventInterruptPolicy who) (getEventInterruptPolicy who) s

/-- R355: SET_EVENT_INTERRUPT_POLICY. -/
def setEventInterruptPolicy (who : Iface) (v : Word) (_now : Nat) (m : Mach) : Mach :=
  answer (modCci m who (fun c => { c with policy := v })) who .success

/-- The meaning of SET_EVENT_INTERRUPT_POLICY. -/
def execSetEventInterruptPolicy (who : Iface) (v : Word) (s : State) :=
  deviceMach who (.setEventInterruptPolicy who v) (setEventInterruptPolicy who v) s

/-! ### Timestamp (R356) -/

/-- R356: GET_TIMESTAMP in ns. -/
def getTimestamp (who : Iface) (now : Nat) (m : Mach) : Mach :=
  answer m who .success [(rd m Reg.MBX_TS_OFFSET + BitVec.ofNat 64 (now / 4)).toNat]

/-- The meaning of GET_TIMESTAMP. -/
def execGetTimestamp (who : Iface) (s : State) := deviceMach who (.getTimestamp who) (getTimestamp who) s

/-- R356: SET_TIMESTAMP: MBX_TS_OFFSET is what makes Get Timestamp return `v` now. -/
def setTimestamp (who : Iface) (v : Word) (now : Nat) (m : Mach) : Mach :=
  answer (wr m Reg.MBX_TS_OFFSET [] (v - BitVec.ofNat 64 (now / 4))) who .success

/-- The meaning of SET_TIMESTAMP. -/
def execSetTimestamp (who : Iface) (v : Word) (s : State) := deviceMach who (.setTimestamp who v) (setTimestamp who v) s

/-! ### Member ports and logical devices -/

/-- R355: PHYSICAL_PORT_CONTROL of member port `p`: assert PERST, deassert PERST, reset the PPB. -/
def physicalPortControl (who : Iface) (p op : Nat) (now : Nat) (m : Mach) : Mach :=
  if !portExists m p || role m p != 2 then answer m who .invalidInput
  else match op with
    | 0 => answer (perstAssert p true now m) who .success
    | 1 => answer (perstAssert p false now m) who .success
    | 2 => answer (hotReset p now m) who .success
    | _ => answer m who .invalidInput

/-- The meaning of PHYSICAL_PORT_CONTROL. -/
def execPhysicalPortControl (who : Iface) (p op : Nat) (s : State) :=
  cciMach who (.physicalPortControl who p op) (physicalPortControl who p op) s

/-- R355: port `p` leads to a multi-logical member. -/
def multiLogical (m : Mach) (p : Nat) : Bool :=
  portExists m p && role m p == 2 && gfb m F.STN_LINK_STATUS_DL_UP (st p) && (portOf m p).multiLd

/-- The member on port `p` offers LD-ID `ld`. -/
def offersLd (m : Mach) (p ld : Nat) : Bool := decide (ld < 16) && bitAt ((portOf m p).partner.getD {}).lds ld

/-- R273: the next of the Postmaster's 256 tags that is free. -/
def freeTag (m : Mach) : Option Nat := (List.range 256).find? (fun t => !m.pmReqs.any (fun r => r.tag % 256 == t))

/-- R278: a message of the Postmaster to the member on port `p`: over a contained port nothing else crosses, and it goes straight
to the link. -/
def pmSend (now : Nat) (m : Mach) (p : Nat) (h : Hdr) (mc : Nat) : Mach :=
  let (pm, m) := internalPm m 144 (tick48 now)
  let x : Msg := {
    h := { h with src := ownPostcode m, dst := portPostcode m p, mc := mc, sc := 1 }
    pm := pm, mc := mc, sc := 1, src := ownPostcode m, dst := portPostcode m p, world := 2, att := 148, n := lettersOf h false, credit := false }
  let m := onPostmark m now x [p]
  if contained m p then rdClose { m with sof := { m.sof with wire := m.sof.wire ++ [(p, x)] } } now pm (some p) else enter now m x (.egress p)

/-- R273, R355: a request that the Postmaster issues for `who`, which gets its completion. -/
def pmRequest (now : Nat) (m : Mach) (who : Iface) (p : Nat) (h : Hdr) (mc tagBase : Nat) : Mach :=
  match freeTag m with
  | none => answer m who .busy
  | some t =>
    let m := { m with pmReqs := m.pmReqs ++ [⟨p, tagBase + t, now, some who⟩] }
    pmSend now m p { h with tag := tagBase + t } mc

/-- R355: TUNNEL_MANAGEMENT_COMMAND toward the multi-logical member on port `p`. -/
def tunnelManagementCommand (who : Iface) (p : Nat) (body : List Byte) (now : Nat) (m : Mach) : Mach :=
  if !multiLogical m p then answer m who .invalidInput
  else pmRequest now m who p { kind := .msgD, len := body.length, data := body } 7 256

/-- The meaning of TUNNEL_MANAGEMENT_COMMAND. -/
def execTunnelManagementCommand (who : Iface) (p : Nat) (body : List Byte) (s : State) :=
  cciMach who (.tunnelManagementCommand who p body) (tunnelManagementCommand who p body) s

/-- R355: SEND_LD_CXL_IO_CONFIGURATION_REQUEST: a configuration read, or write of `data`, of register `reg` of an LD. -/
def sendLdConfiguration (who : Iface) (p ld reg : Nat) (data : Option Nat) (now : Nat) (m : Mach) : Mach :=
  if !multiLogical m p || !offersLd m p ld then answer m who .invalidInput
  else match data with
    | none => pmRequest now m who p { kind := .cfgRd, addr := reg, ldId := ld, len := 4 } 6 0
    | some v => pmRequest now m who p { kind := .cfgWr, addr := reg, ldId := ld, len := 4, data := natLe 4 v } 6 0

/-- The meaning of SEND_LD_CXL_IO_CONFIGURATION_REQUEST. -/
def execSendLdCxlIoConfigurationRequest (who : Iface) (p ld reg : Nat) (data : Option Nat) (s : State) :=
  cciMach who (.sendLdCxlIoConfigurationRequest who p ld reg data) (sendLdConfiguration who p ld reg data) s

/-- R355: SEND_LD_CXL_IO_MEMORY_REQUEST: a memory read of `len` bytes, or a write of `data`, at an offset of an LD. -/
def sendLdMemory (who : Iface) (p ld off len : Nat) (data : Option (List Byte)) (now : Nat) (m : Mach) : Mach :=
  if !multiLogical m p || !offersLd m p ld then answer m who .invalidInput
  else match data with
    | none => pmRequest now m who p { kind := .mrd, addr := off, ldId := ld, len := len } 6 0
    | some bs => answer (pmSend now m p { kind := .mwr, addr := off, ldId := ld, len := bs.length, data := bs } 5) who .success

/-- The meaning of SEND_LD_CXL_IO_MEMORY_REQUEST. -/
def execSendLdCxlIoMemoryRequest (who : Iface) (p ld off len : Nat) (data : Option (List Byte)) (s : State) :=
  cciMach who (.sendLdCxlIoMemoryRequest who p ld off len data) (sendLdMemory who p ld off len data) s

/-- R220: the host ports whose virtual switches an interface sees: its own, or every one of the device. -/
def switchesOf (m : Mach) (who : Iface) : List Nat :=
  let ports := match who with | .cci p => [p] | .pcie p => [p] | _ => List.range 128
  ports.filter (fun p => role m p == 1 && !gfb m F.TEN_PORT_MODEL_MODEL [p])

/-- R220: the logical devices that an interface sees: number, port, position and FLD. The FLD at position `k` is LD `k` mod 16 of virtual
MLD `k` div 16; LDs are numbered along their MLDs, and 32 to a port where several ports are seen. -/
def ldView (m : Mach) (who : Iface) : List (Nat × Nat × Nat × Nat) :=
  let ps := switchesOf m who
  (ps.map (fun p => (List.range 32).filterMap (fun k =>
    (fldAt m p k).map (fun f => ((match who with | .cci _ | .pcie _ => k | _ => 32 * p + k), p, k, f))))).flatten

/-- R355: GET_LD_INFO: the LDs that the interface sees (R220); the spec states no memory size for it. -/
def getLdInfo (who : Iface) (_now : Nat) (m : Mach) : Mach :=
  let (v, m) := takeFree m
  answer m who .success [v.toNat, (ldView m who).length]

/-- The meaning of GET_LD_INFO. -/
def execGetLdInfo (who : Iface) (s : State) := cciMach who (.getLdInfo who) (getLdInfo who) s

/-- R220, R355: GET_LD_ALLOCATIONS: of the LDs that the interface sees from number `first`, at most `n`: virtual MLD, LD in it and the bytes
that dynamic capacity gives it. -/
def getLdAllocations (who : Iface) (first n : Nat) (_now : Nat) (m : Mach) : Mach :=
  answer m who .success ((((ldView m who).filter (fun x => first ≤ x.1)).take n).map (fun x =>
    [x.2.2.1 / 16, x.2.2.1 % 16, ((extentList m x.2.2.2).map (·.2)).sum])).flatten

/-- The meaning of GET_LD_ALLOCATIONS. -/
def execGetLdAllocations (who : Iface) (first n : Nat) (s : State) :=
  cciMach who (.getLdAllocations who first n) (getLdAllocations who first n) s

/-- R355: a command that is not supported. -/
def unsupported (who : Iface) (_now : Nat) (m : Mach) : Mach := answer m who .unsupported

/-- The meaning of SET_LD_ALLOCATIONS. -/
def execSetLdAllocations (who : Iface) (s : State) := cciMach who (.setLdAllocations who) (unsupported who) s

/-! ### Firmware -/

/-- The meaning of GET_FW_INFO: two slots, the one that runs, and their versions (R355, R378). -/
def execGetFwInfo (who : Iface) (s : State) :=
  deviceCommand who (.getFwInfo who) (fun s =>
    let v (k : Nat) : Nat := getBits (showFwSlot s k) 63 32
    nextW { s with m := answer s.m who .success [2, s.m.fw.run, v 0, v 1] }) s

/-- The meaning of TRANSFER_FW (R355). -/
def execTransferFw (who : Iface) (s : State) := deviceMach who (.transferFw who) (unsupported who) s

/-- The meaning of ACTIVATE_FW (R355). -/
def execActivateFw (who : Iface) (s : State) := deviceMach who (.activateFw who) (unsupported who) s

/-! ### Vendor commands (R357) -/

/-- A management read with its response. -/
def readReply (who : Iface) (a len : Nat) (s : State) : State :=
  let (k, bs, s) := regRead who a len s
  { s with m := respond s.m { whom := who, status := k, body := bs } }

/-- The meaning of REGISTER_READ. -/
def execRegisterRead (who : Iface) (a len : Nat) (s : State) :=
  cciCommand who (.registerRead who a len) (fun s => nextW (readReply who a len s)) s

/-- A management write with its response. -/
def writeReply (who : Iface) (a : Nat) (bs : List Byte) (s : State) : Host.Outcome State Fault Refusal :=
  match regWrite who a bs s with
  | .inl f => .fault f
  | .inr (k, s) => .next { s with m := respond s.m { whom := who, status := k } }

/-- The meaning of REGISTER_WRITE. -/
def execRegisterWrite (who : Iface) (a : Nat) (data : List Byte) (s : State) :=
  cciCommand who (.registerWrite who a data) (writeReply who a data) s

/-- R357, R363: up to `max` event records leave the queue, judged as a read of RAS_EVQ_POP0; an empty queue gives one blank record. -/
def eventsReply (who : Iface) (max : Nat) (s : State) : State :=
  match gate who Reg.RAS_EVQ_POP.base 32 false s with
  | (some k, m) => { s with m := respond m { whom := who, status := k } }
  | (none, m) =>
    let (l, m) := if evqHeld m == 0 then ([List.replicate 32 0], m) else evqTake max m
    { s with m := respond m { whom := who, vals := [l.length], body := l.flatten } }

/-- R357: records that the response message limit lets one Event Queue Read return. -/
def limitedMax (m : Mach) (who : Iface) (max : Nat) : Nat := min max ((2 ^ (cciOf m who).limit - 16) / 32)

/-- The meaning of EVENT_QUEUE_READ: a MAX outside 1 to 255 is a framing error. -/
def execEventQueueRead (who : Iface) (max : Nat) (s : State) :=
  cciCommand who (.eventQueueRead who max) (fun s =>
    if max == 0 || 255 < max then .next { s with m := respond s.m { whom := who, status := 2 } }
    else nextW (eventsReply who (limitedMax s.m who max) s)) s

/-- The meaning of AMENDMENT_COMMAND: as a write of AMD_CMD, for DISPATCH after one of AMD_CUTOVER. -/
def execAmendmentCommand (who : Iface) (cmd ticket : Nat) (cut : Word) (s : State) :=
  cciCommand who (.amendmentCommand who cmd ticket cut) (fun s =>
    match (if cmd == 2 then regWrite who Reg.AMD_CUTOVER.base (natLe 8 cut.toNat) s else .inr (0, s)) with
    | .inl f => .fault f
    | .inr (k, s) =>
      if k != 0 then .next { s with m := respond s.m { whom := who, status := k } }
      else match regWrite who Reg.AMD_CMD.base (natLe 8 (amdWord cmd ticket).toNat) s with
        | .inl f => .fault f
        | .inr (k, s) => .next { s with m := respond s.m { whom := who, status := k, vals := [(rd s.m Reg.AMD_STATUS).toNat] } }) s

/-- R357: items (VALUE, MASK, ADDRESS) are staged as writes of AMD_STAGE_ADDR stage them. -/
def stageItems (who : Iface) (items : List (Word × Word × Nat)) (m : Mach) : Mach :=
  amdCommand who 1 (fun m => items.foldl (fun m i => amdAppend ⟨i.1, i.2.1, i.2.2 % 2 ^ 32⟩ m) m) m

/-- The meaning of STAGE_ITEMS: a count outside 1 to 341 is a framing error. -/
def execStageItems (who : Iface) (items : List (Word × Word × Nat)) (s : State) :=
  cciCommand who (.stageItems who items) (fun s =>
    if items.isEmpty || 341 < items.length then .next { s with m := respond s.m { whom := who, status := 2 } }
    else match gate who Reg.AMD_STAGE_ADDR.base 8 true s with
      | (some k, m) => .next { s with m := respond m { whom := who, status := k } }
      | (none, m) =>
        let m := stageItems who items m
        nextW { s with m := respond m { whom := who, vals := [gf m F.AMD_INFO_ITEMS] } }) s

end Sys2Proof.Machine
end

