-- ==== Sys2Proof/Machine/Sensors.lean ====
section
/-!
DEFINITION. MCTP control, the PLDM repository and its sensors, and the I3C target (R359-R361).
-/

namespace Sys2Proof.Machine
open Sys2Proof

/-! ### I3C (R360) -/

/-- I3C_DYNAMIC_ADDRESS_ASSIGNMENT: the controller gives the target the 7-bit address `a`, once the target answers (R324 step 4). -/
def i3cAddress (a : Nat) (_now : Nat) (m : Mach) : Mach :=
  if m.inl.on && !m.fw.recovery && a % 128 != 0 then { m with i3cAddr := a % 128 } else m

/-- The meaning of I3C_DYNAMIC_ADDRESS_ASSIGNMENT. -/
def execI3cDynamicAddressAssignment (a : Nat) (s : State) := onMach (i3cAddress a) s

/-! ### MCTP control (R359) -/

/-- R359: the interfaces that are MCTP transports of their own. -/
def mctp : Iface → Bool
  | .pcie _ => true
  | .i3c => true
  | _ => false

/-- R359: the message types that the device accepts. -/
def mctpTypes : List Nat := [0, 1, 5, 6, 7, 0x7E]

/-- R359: an MCTP control request from `who`: the bus owner assigns an endpoint ID; others are not supported. -/
def mctpControl (who : Iface) (r : MctpCtl) (m : Mach) : Mach :=
  match r with
  | .setEid e => answer { m with eids := tset 0 m.eids (cciKey who) (e % 256) } who .success [e % 256]
  | .getEid => answer m who .success [tget 0 m.eids (cciKey who)]
  | .getTypes => answer m who .success mctpTypes
  | .other _ => answer m who .unsupported

/-- The meaning of MCTP_CONTROL. -/
def execMctpControl (who : Iface) (r : MctpCtl) (s : State) : Host.Outcome State Fault Refusal :=
  if mctp who then managedNext who (.mctpControl who r) (fun s => { s with m := mctpControl who r s.m }) s else .next s

/-! ### PLDM (R361) -/

/-- Whole degrees of a signed reading in tenths, as a 16-bit number. -/
def degrees (t : Int) : Nat := signedField (t / 10)

/-- R361: the value of PLDM sensor `n` at this moment, `hbm` the temperatures of the HBM stacks in tenths of a degree: sensors 0 to 12
are numeric, in the order of the rule's table (1 to 8 the stacks), 13 and 14 state sensors. -/
def liveReading (m : Mach) (hbm : List Int) (n : Nat) : Nat :=
  match n with
  | 0 => degrees (signed16 (gf m F.INL_THERM_TJ))
  | 9 => degrees (signed16 (gf m F.INL_TEMP_FET_SENSOR))
  | 10 => gf m F.INL_MEAS_VIN
  | 11 => gf m F.INL_MEAS_IIN
  | 12 => gf m F.INL_MEAS_PIN
  | 13 => gf m F.INL_STATUS_STATE
  | 14 => b2n (gfb m F.GLB_STATUS_SAFE)
  | k => degrees (hbm.getD (k - 1) 0)

/-- R361: what PLDM sensor `n` shows, the value of its last update (the present one before the first: DESIGN CHOICE, log entry 190). -/
def sensed (m : Mach) (n : Nat) : Nat := m.sensed.getD n (liveReading m [] n)

/-- R361: what numeric sensor `n` reads. -/
def sensorReading (m : Mach) (n : Nat) : Option Nat := if n ≤ 12 then some (sensed m n) else none

/-- R361: what state sensor `n` shows. -/
def sensorState (m : Mach) (n : Nat) : Option Nat := if n == 13 || n == 14 then some (sensed m n) else none

/-- R361, R371: QUANTITY of the monitors over what numeric sensor `n` reads; 0 for none. -/
def sensorQuantity (n : Nat) : Nat :=
  match n with
  | 0 => 11
  | 10 => 12
  | 12 => 13
  | _ => 0

/-- R361: the thresholds of numeric sensor `n`: LEVELs of the monitors over the same quantity. -/
def sensorThresholds (m : Mach) (n : Nat) : List Nat :=
  if sensorQuantity n == 0 then []
  else ((List.range 64).filter (fun k => gfb m F.RAS_WM_CFG_EN [k] && gf m F.RAS_WM_CFG_QUANTITY [k] == sensorQuantity n)).map
    (fun k => gf m F.RAS_WM_CFG_LEVEL [k])

/-- R361: a PLDM request from `who`; a PDR shows its sensor and whether it is a state sensor. -/
def pldmRequest (who : Iface) (r : PldmReq) (m : Mach) : Mach :=
  match r with
  | .setTid t => answer { m with tids := tset 0 m.tids (cciKey who) (t % 256) } who .success
  | .getTid => answer m who .success [tget 0 m.tids (cciKey who)]
  | .getVersion => let (v, m) := takeFree m; answer m who .success [v.toNat % 2 ^ 32]
  | .getTypes => answer m who .success [0, 2]
  | .getReading n => match sensorReading m n with
    | some v => answer m who .success [v]
    | none => answer m who .invalidInput
  | .getState n => match sensorState m n with
    | some v => answer m who .success [v]
    | none => answer m who .invalidInput
  | .getThresholds n => if (sensorReading m n).isSome then answer m who .success (sensorThresholds m n) else answer m who .invalidInput
  | .getPdr n => if 15 ≤ n then answer m who .invalidInput else answer m who .success [n, b2n (13 ≤ n)]
  | .other => answer m who .unsupported

/-- The meaning of PLDM_REQUEST. -/
def execPldmRequest (who : Iface) (r : PldmReq) (s : State) : Host.Outcome State Fault Refusal :=
  if mctp who then managedNext who (.pldmRequest who r) (fun s => { s with m := pldmRequest who r s.m }) s else .next s

/-- R361: the 10 ms update of the sensors. -/
def sensorUpdate (v : Sensors) (now : Nat) (m : Mach) : Mach :=
  if !m.inl.on then m
  else
    let m := sf (sf m F.INL_MEAS_VIN [] (min v.vin 65535)) F.INL_MEAS_VOUT [] (min v.vout 65535)
    let m := sf (sf m F.INL_MEAS_IIN [] (min v.iin 65535)) F.INL_MEAS_PIN [] (min v.pin 65535)
    let m := noteTj now m v.tj
    { m with sensed := (List.range 15).map (liveReading m v.hbm) }

/-- The meaning of SENSOR_UPDATE. -/
def execSensorUpdate (v : Sensors) (s : State) := onMachW (sensorUpdate v) s

end Sys2Proof.Machine
end

