-- ==== Sys2Proof/Machine/Spdm.lean ====
section
/-!
DEFINITION. Chapter 21: the SPDM responder (R448-R451): requests, measurements, the owner chain; and IDE key management with its
check failures (R453).
-/

namespace Sys2Proof.Machine
open Sys2Proof

/-! ### Who reaches the responder (R450, R383, R285) -/

/-- An SPDM connection leads to the responder: the mask ROM answers over Brumin alone. -/
def spdmReaches (s : State) (who : Iface) : Bool :=
  match who with
  | .brumin _ _ => s.m.inl.on && (s.m.fw.recovery || reaches s who)
  | .pcie _ => reaches s who
  | .i3c => reaches s who
  | .doe p => serving_ s && portExists s.m p && (role s.m p == 1 || role s.m p == 2) && gfb s.m F.STN_LINK_STATUS_DL_UP (st p)
  | .courier p => serving_ s && portExists s.m p && role s.m p == 3 && gfb s.m F.STN_LINK_STATUS_DL_UP (st p)
  | _ => false

/-- The connection that a message in a session belongs to. -/
def connOf : Iface → Iface
  | .brumin mac _ => .brumin mac false
  | i => i

/-- A request of SPDM: nothing where the connection does not lead to the responder; later where a handover runs. -/
def spdm (who : Iface) (i : Instr) (act : State → State) (s : State) : Host.Outcome State Fault Refusal :=
  if !spdmReaches s who then .next s
  else if s.m.fw.handEnd != 0 then .next { s with m := holdCommand who i s.m }
  else .next (act s)

/-- The machine with the security state changed. -/
def modSec (m : Mach) (f : Sec → Sec) : Mach := { m with sec := f m.sec }

/-! ### Requests (R450) -/

/-- R448: certificate slots that hold a chain. -/
def chainSlots (s : State) : List Nat := 0 :: (if s.nvm.ownerChain.isEmpty then [] else [1])

/-- GET_CERTIFICATE: bytes of a chain. The state does not hold the Gulnak chain; what is sent of it is a free value. -/
def getCertificate (who : Iface) (slot off len : Nat) (s : State) : State :=
  if !(chainSlots s).contains slot then { s with m := answer s.m who .invalidInput }
  else if slot == 1 then { s with m := answer s.m who .success [slot] ((s.nvm.ownerChain.drop off).take len) }
  else
    let (v, m) := takeFree s.m
    { s with m := answer m who .success [slot, v.toNat] }

/-- A response that carries a signature or verification data under the device identity key, which a part without the key does
not send (R457). -/
def signedReply (who : Iface) (vals : List Nat) (s : State) : State :=
  if !s.nvm.identity then s
  else
    let (v, m) := takeFree s.m
    { s with m := answer m who .success (vals ++ [v.toNat]) }

/-- R450: the responder answers `r` on the connection of `who`. -/
def spdmAct (who : Iface) (r : SpdmReq) (s : State) : State :=
  let c := connOf who
  let m := s.m
  let open_ := m.sec.sessions.contains c
  match r with
  | .getVersion =>
    { s with m := answer (modSec m (fun k => { k with versions := k.versions.filter (fun x => x.1 != c) })) who .success [0x12, 0x13] }
  | .getCapabilities v =>
    if v < 0x12 then { s with m := answer m who .unsupported }
    else { s with m := answer (modSec m (fun k => { k with
      versions := k.versions.filter (fun x => x.1 != c) ++ [(c, min v 0x13)] })) who .success [min v 0x13] }
  | .negotiateAlgorithms => { s with m := answer m who (if m.sec.versions.any (fun x => x.1 == c) then .success else .invalidInput) }
  | .getDigests => { s with m := answer m who .success (chainSlots s) }
  | .getCertificate slot off len => getCertificate who slot off len s
  | .challenge slot => if (chainSlots s).contains slot then signedReply who [slot] s else { s with m := answer m who .invalidInput }
  | .keyExchange =>
    if !s.nvm.identity then s
    else signedReply who [] { s with m := modSec m (fun k => { k with opening := k.opening.filter (· != c) ++ [c] }) }
  | .finish ok known =>
    if !m.sec.opening.contains c then { s with m := answer m who .invalidInput }
    else
      let m := modSec m (fun k => { k with opening := k.opening.filter (· != c) })
      if !ok then { s with m := answer m who .invalidInput }
      else
        let m := modSec m (fun k => { k with
          sessions := k.sessions.filter (· != c) ++ [c]
          mutual_ := k.mutual_.filter (· != c) ++ (if known then [c] else []) })
        { s with m := answer m who .success }
  | .keyUpdate => { s with m := answer m who (if open_ then .success else .invalidInput) }
  | .endSession =>
    if !open_ then { s with m := answer m who .invalidInput }
    else
      -- the acknowledgement ends the session
      let m := answer m who .success
      { s with m := modSec m (fun k => { k with sessions := k.sessions.filter (· != c), mutual_ := k.mutual_.filter (· != c) }) }
  | .other => { s with m := answer m who .unsupported }

/-- The meaning of SPDM_REQUEST. -/
def execSpdmRequest (who : Iface) (r : SpdmReq) (s : State) := spdm who (.spdmRequest who r) (spdmAct who r) s

/-! ### Measurements (R451) -/

/-- R451: the rule words of the guard rules whose WORLDS has the trusted bit. -/
def trustedWords (m : Mach) : List Nat :=
  (((validRules m).filter (fun i => trustedRule m i)).map (fun i =>
    [(rd m Reg.GRD_RULE_BASE [i]).toNat, (rd m Reg.GRD_RULE_SIZE [i]).toNat, (rd m Reg.GRD_RULE_MATCH [i]).toNat,
      (rd m Reg.GRD_RULE_ATTR [i]).toNat])).flatten

/-- R451: what measurement block `k` digests: values, and bytes of MRAM. The mask ROM's contents are a free value. -/
def measured (s : State) (k : Nat) : (List Nat × List Byte) × Mach :=
  let m := s.m
  let h := fwHeader s.mram m.fw.run
  let slot := fwSlot m.fw.run
  match k with
  | 1 => let (v, m) := takeFree m; (([v.toNat], []), m)
  | 2 => (([fwVersion h, fwSvn h], mread s.mram (slot + leAt h 36 4) (leAt h 40 4)), m)
  | 3 => (([gf m F.MBX_FW_UCODE_UC_VERSION], mread s.mram (slot + leAt h 44 4) (leAt h 48 4)), m)
  | 4 =>
    let a := cfgSlot (gf m F.AMD_CFG_SLOT_ACTIVE)
    let c := mread s.mram a 256
    (([], c.take 32 ++ mread s.mram (a + imgOff c) (4096 * imgBlocks c)), m)
  | 5 => ((((cfgRegs m).map (·.2)), []), m)
  | 6 => (([gf m F.SEC_LIFECYCLE_STATE, s.nvm.minSvn, gf m F.SEC_OWNER_OWNER], []), m)
  | _ => ((gf m F.SEC_TSP_LOCK :: trustedWords m, []), m)

/-- R451: GET_MEASUREMENTS: block `index`, or for 0xFF all seven, at the present tick, each shown as what it digests. A part without
its identity key signs nothing, and answers without a signature. -/
def getMeasurements (who : Iface) (index : Nat) (s : State) : State :=
  if index == 0 then { s with m := answer s.m who .success [7] }
  else if index == 0xFF then
    (List.range 7).foldl (fun s k =>
      let (x, m) := measured s (k + 1)
      { s with m := answer m who .success ([k + 1] ++ x.1) x.2 }) s
  else if 7 < index then { s with m := answer s.m who .invalidInput }
  else
    let (x, m) := measured s index
    { s with m := answer m who .success ([index] ++ x.1) x.2 }

/-- The meaning of GET_MEASUREMENTS. -/
def execGetMeasurements (who : Iface) (index : Nat) (s : State) := spdm who (.getMeasurements who index) (getMeasurements who index) s

/-! ### The owner chain (R448) -/

/-- R448: SET_CERTIFICATE installs the chain of slot 1 within a session whose requester has authenticated itself. -/
def setCertificate (who : Iface) (slot : Nat) (chain : List Byte) (s : State) : State :=
  let c := connOf who
  if slot != 1 || chain.isEmpty || !s.m.sec.sessions.contains c || !s.m.sec.mutual_.contains c then { s with m := answer s.m who .invalidInput }
  else { s with nvm := { s.nvm with ownerChain := chain }, m := answer (sf s.m F.SEC_OWNER_CHAIN1 [] 1) who .success }

/-- The meaning of SET_CERTIFICATE. In ROM recovery SPDM serves to open a session alone (R383). -/
def execSetCertificate (who : Iface) (slot : Nat) (chain : List Byte) (s : State) :=
  spdm who (.setCertificate who slot chain) (setCertificate who slot chain) s

/-! ### IDE on host and member ports (R453) -/

/-- The streams of port `p` that are Secure change: those named become so. -/
def secureStreams (m : Mach) (p : Nat) (cm link : Bool) (sel : Nat) : Mach :=
  let m := if cm then sf m F.SEC_IDE_STATUS_CM_SECURE [p] 1 else m
  let m := if link then sf m F.SEC_IDE_STATUS_LINK_SECURE [p] 1 else m
  let m := sf m F.SEC_IDE_STATUS_SEL_SECURE [p] (gf m F.SEC_IDE_STATUS_SEL_SECURE [p] ||| sel % 16)
  modPort m p (fun k => { k with ideOn := gfb m F.SEC_IDE_STATUS_CM_SECURE [p] && gfb m F.SEC_IDE_STATUS_LINK_SECURE [p] })

/-- R453: IDE_KM: keys of the named streams of host or member port `p` are set up or refreshed inside a session over DOE. On a
member port the device itself opens the session. -/
def ideKm (p : Nat) (cm link : Bool) (sel : Nat) (s : State) : State :=
  if spdmReaches s (.doe p) && (role s.m p == 2 || s.m.sec.sessions.contains (.doe p)) then
    { s with m := secureStreams s.m p cm link sel }
  else s

/-- The meaning of IDE_KM. -/
def execIdeKm (p : Nat) (cm link : Bool) (sel : Nat) (s : State) : Host.Outcome State Fault Refusal := .next (ideKm p cm link sel s)

/-- Some stream of port `p` is Secure. -/
def ideActive (m : Mach) (p : Nat) : Bool :=
  gfb m F.SEC_IDE_STATUS_CM_SECURE [p] || gfb m F.SEC_IDE_STATUS_LINK_SECURE [p] || gf m F.SEC_IDE_STATUS_SEL_SECURE [p] != 0

/-- R453: IDE_CHECK_FAILURE at host or member port `p`: the stream is Insecure, the link goes down, and the failure is logged. -/
def ideCheckFailure (p : Nat) (now : Nat) (m : Mach) : Mach :=
  if !portExists m p || (role m p != 1 && role m p != 2) || !ideActive m p then m
  else
    let m := ackEvent m F.SEC_IDE_STATUS_IDE_FAIL [p]
    linkDownOf now (portError now m p pmNone (portPostcode m p)) p

/-- The meaning of IDE_CHECK_FAILURE. -/
def execIdeCheckFailure (p : Nat) (s : State) := onMachW (ideCheckFailure p) s

end Sys2Proof.Machine
end

