-- ==== Sys2Proof/Machine/Brumin.lean ====
section
/-!
DEFINITION. The Brumin service port (R362-R366): who is served, the responses held for retransmitted requests, register and event
queue operations, image loads, and MCTP packets.
-/

namespace Sys2Proof.Machine
open Sys2Proof

/-! ### The path of a Brumin request (R362, R364, R365, R383) -/

/-- What a request asks of the port: an operation that needs a session where an owner key is set, one that ROM recovery serves. -/
structure BrumOp where
  writes : Bool := false
  rom : Bool := false
  deriving DecidableEq, Repr

/-- The port answers requests: step 4 is reached (R324). -/
def bruminUp (s : State) (rom : Bool) : Bool := s.m.inl.on && ((s.m.fw.recovery && rom) || serving_ s)

/-- R364: the peer with address `mac`, least recently heard first; a fifth displaces the first. -/
def heard (m : Mach) (mac : Nat) : Mach :=
  let old := (m.brumin.find? (fun b => b.mac == mac)).getD ⟨mac, []⟩
  let rest := m.brumin.filter (fun b => b.mac != mac)
  { m with brumin := (if 4 ≤ rest.length then rest.drop 1 else rest) ++ [old] }

/-- R364: the response held for a request of `mac` with SEQ `seq`. -/
def heldReply (m : Mach) (mac seq : Nat) : Option Reply :=
  match m.brumin.find? (fun b => b.mac == mac) with
  | some b => b.held.find? (fun r => r.seq == seq)
  | none => none

/-- R364: the last 16 responses are kept. -/
def hold (m : Mach) (mac : Nat) (r : Reply) : Mach :=
  { m with brumin := m.brumin.map (fun b => if b.mac == mac then
      { b with held := (b.held ++ [r]).drop (b.held.length + 1 - 16) } else b) }

/-- A response that is sent and held. -/
def sendHeld (m : Mach) (mac : Nat) (r : Reply) : Mach := respond (hold m mac r) r

/-- R365: the request lacks the session that it needs; a debug token of the address serves register writes without one (R456). -/
def lacksSession (s : State) (op : BrumOp) (mac : Nat) (sess : Bool) : Bool :=
  op.writes && gfb s.m F.SEC_OWNER_OWNER && !sess && (tokenOf s mac).isNone

/-- A request of SEQ `seq` from `who`, whose action gives its response. Over MCTP the frame is the body of a message of type 0x7E
(R359), with no session or duplicate to judge. -/
def bruminRequest (who : Iface) (seq : Nat) (op : BrumOp) (i : Instr) (act : State → Sum Fault (Reply × State)) (s : State) :
    Host.Outcome State Fault Refusal :=
  match who with
  | .brumin mac sess =>
    if !bruminUp s op.rom || (sess && !s.m.sec.sessions.contains (.brumin mac false)) then .next s
    else if s.m.fw.handEnd != 0 then .next { s with m := holdCommand who i s.m }
    else
      let s := noteServed { s with m := heard s.m mac }
      match heldReply s.m mac seq with
      | some r => .next { s with m := respond s.m r }
      | none =>
        if lacksSession s op mac sess then .next { s with m := respond s.m { whom := who, status := 4, seq := seq } }
        else match act s with
          | .inl f => .fault f
          | .inr (r, s) => nextW { s with m := sendHeld s.m mac { r with whom := who, seq := seq } }
  | _ =>
    if !mctp who then .next s
    else managed who i (fun s => match act s with
      | .inl f => .fault f
      | .inr (r, s) => nextW { s with m := respond s.m { r with whom := who, seq := seq } }) s

/-- A request that comes over the Brumin port alone (R385, R455). -/
def bruminOnly (who : Iface) (seq : Nat) (op : BrumOp) (i : Instr) (act : Nat → Bool → State → Reply × State) (s : State) :
    Host.Outcome State Fault Refusal :=
  match who with
  | .brumin mac sess => bruminRequest who seq op i (fun s => .inr (act mac sess s)) s
  | _ => .next s

/-- R456: the address of `who` has a debug token in force, outside a session, that does not grant PERMS bit `k`. -/
def permLacks (s : State) (who : Iface) (k : Nat) : Bool :=
  match who with
  | .brumin mac false => match tokenOf s mac with
    | some t => !bitAt t.perms k
    | none => false
  | _ => false

/-- An access-denied response (R354). -/
def deniedReply (who : Iface) (s : State) : Reply × State := ({ whom := who, status := 1 }, { s with m := noteDenied s.m })

/-! ### DISCOVER, registers and events (R363) -/

/-- The meaning of DISCOVER: GLB_ID, the station address and two reserved bytes. -/
def execDiscover (who : Iface) (seq : Nat) (s : State) :=
  bruminRequest who seq { rom := true } (.discover who seq) (fun s =>
    .inr ({ whom := who, body := natLe 8 (rd s.m Reg.GLB_ID).toNat ++ natLe 6 (gf s.m F.MBX_BRUMIN_MAC) ++ [0, 0] }, s)) s

/-- The meaning of REG_READ. -/
def execRegRead (who : Iface) (seq a len : Nat) (s : State) :=
  bruminRequest who seq {} (.regRead who seq a len) (fun s =>
    if permLacks s who 0 then .inr (deniedReply who s)
    else
      let (k, bs, s) := regRead who a len s
      .inr ({ whom := who, status := k, body := bs }, s)) s

/-- The meaning of REG_WRITE. -/
def execRegWrite (who : Iface) (seq a : Nat) (data : List Byte) (s : State) :=
  bruminRequest who seq { writes := true } (.regWrite who seq a data) (fun s =>
    if permLacks s who 1 then .inr (deniedReply who s)
    else match regWrite who a data s with
      | .inl f => .inl f
      | .inr (k, s) => .inr ({ whom := who, status := k }, s)) s

/-- The meaning of EVQ_READ: a MAX outside 1 to 31 is a framing error. -/
def execEvqRead (who : Iface) (seq max : Nat) (s : State) :=
  bruminRequest who seq {} (.evqRead who seq max) (fun s =>
    if max == 0 || 31 < max then .inr ({ whom := who, status := 2 }, s)
    else match gate who Reg.RAS_EVQ_POP.base 32 false s with
      | (some k, m) => .inr ({ whom := who, status := k }, { s with m := m })
      | (none, m) =>
        let (l, m) := if evqHeld m == 0 then ([List.replicate 32 0], m) else evqTake max m
        .inr ({ whom := who, vals := [l.length], body := l.flatten }, { s with m := m })) s

/-! ### Image loads (R338, R366) -/

/-- STATUS of a request that an operation refuses with a REASON: no rule states one. -/
def refusedReply (who : Iface) (s : State) : Reply × State :=
  let (v, m) := takeFree s.m
  ({ whom := who, status := v.toNat % 256 }, { s with m := m })

/-- R456: an image or firmware request of the address that holds a debug token, outside a session, is denied. -/
def tokenBars (s : State) (who : Iface) : Bool :=
  match who with
  | .brumin mac false => (tokenOf s mac).isSome
  | _ => false

/-- R366: the REASON with which BEGIN of an image is refused. -/
def imageBad (m : Mach) (len slot : Nat) : Option Nat :=
  if slotBusy m then some 0x70D
  else if 2 ≤ slot || (!gfb m F.AMD_CFG_SLOT_SAFE && slot != inactiveSlot m) then some 1
  else if len < 8192 || 8388608 < len || len % 4096 != 0 then some 0x101
  else none

/-- A submission that is refused: while the operation runs it is discarded and counted (R367); otherwise its status word shows
the REASON. -/
def refuseSubmission (now : Nat) (m : Mach) (r : RegDef) (ticket reason units : Nat) : Mach :=
  if stBusy (rd m r) then countDiscard m
  else
    let w := statusWord ticket 4 reason units
    opEnded (wr m r [] w) now 0xE w

/-- R366: BEGIN of an image load. -/
def imageBegin (who : Iface) (len ticket slot : Nat) (s : State) : Reply × State :=
  if tokenBars s who then deniedReply who s
  else match imageBad s.m len slot with
    | some r => refusedReply who { s with m := refuseSubmission s.time.now.toNat s.m Reg.MBX_IMG_STATUS ticket r 0 }
    | none =>
      let s := clearMagic slot s
      let m := wr { s.m with load := some ⟨slot, len, [], []⟩ } Reg.MBX_IMG_STATUS [] (statusWord ticket 2 0 0)
      ({ whom := who }, { s with m := m })

/-- The meaning of IMAGE_BEGIN. -/
def execImageBegin (who : Iface) (seq len ticket slot : Nat) (s : State) :=
  bruminRequest who seq { writes := true } (.imageBegin who seq len ticket slot) (fun s => .inr (imageBegin who len ticket slot s)) s

/-- Part `i` among those held, in place of one received before. -/
def holdPart (held : List (Nat × List Byte)) (i : Nat) (b : List Byte) : List (Nat × List Byte) :=
  held.filter (fun x => x.1 != i) ++ [(i, b)]

/-- Parts received, with part `i`. -/
def addPart (got : List Nat) (i : Nat) : List Nat := if got.contains i then got else got ++ [i]

/-- R366: DATA of an image load: part `idx` is written, or held where it lies in the first 4 KiB. -/
def imageData (who : Iface) (idx : Nat) (body : List Byte) (s : State) : Reply × State :=
  match s.m.load with
  | none => ({ whom := who, status := 2 }, s)
  | some l =>
    if tokenBars s who then deniedReply who s
    else if body.length != 1024 then ({ whom := who, status := 2 }, s)
    else if l.len ≤ 1024 * idx then refusedReply who { s with m := sf s.m F.MBX_IMG_STATUS_REASON [] 0x102 }
    else
      let got := addPart l.got idx
      let l := { l with got := got, held := if idx < 4 then holdPart l.held idx body else l.held }
      let m := sf { s.m with load := some l } F.MBX_IMG_STATUS_DONE_UNITS [] got.length
      ({ whom := who }, { s with m := m, mram := if idx < 4 then s.mram else mwrite s.mram (cfgSlot l.slot + 1024 * idx) body })

/-- The meaning of IMAGE_DATA. -/
def execImageData (who : Iface) (seq idx : Nat) (body : List Byte) (s : State) :=
  bruminRequest who seq { writes := true } (.imageData who seq idx body) (fun s => .inr (imageData who idx body s)) s

/-- MRAM with held parts written from `base`. -/
def writeHeld (mram : List Host.Cell) (base : Nat) (held : List (Nat × List Byte)) : List Host.Cell :=
  held.foldl (fun t x => mwrite t (base + 1024 * x.1) x.2) mram

/-- The parts of `len` bytes that are missing. -/
def missing (len : Nat) (got : List Nat) : Bool := (List.range (len / 1024)).any (fun i => !got.contains i)

/-- R366: END of an image load, with the verdict on the image's signatures. -/
def imageEnd (who : Iface) (sig : Bool) (s : State) : Reply × State :=
  match s.m.load with
  | none => ({ whom := who, status := 2 }, s)
  | some l =>
    if tokenBars s who then deniedReply who s
    else
      let lost := missing l.len l.got
      let mram := if lost then s.mram else writeHeld s.mram (cfgSlot l.slot) l.held
      let b := gf s.m F.RTE_SELF_BOARD_ID
      let t := (slotFault mram s.m l.slot b sig (gfb s.m F.SEC_OWNER_OWNER) false).1
      let reason := if lost then 0x103 else if t != 0 then 0x110 + t else 0
      let w := statusWord (gf s.m F.MBX_IMG_STATUS_TICKET) (if reason == 0 then 3 else 4) reason l.got.length
      let m := wr { s.m with load := none } Reg.MBX_IMG_STATUS [] w
      let m := sf m (seqField l.slot) [] (slotSeq mram l.slot)
      ({ whom := who }, { s with mram := mram, m := opEnded m s.time.now.toNat 0xE w })

/-- The meaning of IMAGE_END. -/
def execImageEnd (who : Iface) (seq : Nat) (sig : Bool) (s : State) :=
  bruminRequest who seq { writes := true } (.imageEnd who seq sig) (fun s => .inr (imageEnd who sig s)) s

/-! ### MCTP packets (R363 OP 6, R383, R450) -/

/-- R363, R383: what an MCTP packet carried by `who` does; the mask ROM serves SPDM alone. Of the types that are left, those of R359
have rows of their own, and others are discarded. -/
def bruminPacket (who : Iface) (r : McMsg) (s : State) : State :=
  match r with
  | .control c => if s.m.fw.recovery then s else { s with m := mctpControl who c s.m }
  | .pldm q => if s.m.fw.recovery then s else { s with m := pldmRequest who q s.m }
  | .spdm q => spdmAct who q s
  | .measurements k => getMeasurements who k s
  | .setCertificate k c => if s.m.fw.recovery then s else setCertificate who k c s
  | .other _ => s

/-- The meaning of BRUMIN_MCTP: the frame's own response carries what the packet answers. -/
def execBruminMctp (who : Iface) (seq : Nat) (r : McMsg) (s : State) :=
  bruminOnly who seq { rom := true } (.bruminMctp who seq r) (fun _ _ s =>
    let n := s.m.replies.length
    let s := bruminPacket who r s
    let out := s.m.replies.drop n
    ({ whom := who, ret := ((out.head?).map (·.ret)).getD .success, vals := (out.map (·.vals)).flatten, body := (out.map (·.body)).flatten },
      { s with m := { s.m with replies := s.m.replies.take n } })) s

end Sys2Proof.Machine
end

