-- ==== Sys2Proof/Machine/Firmware.lean ====
section
/-!
DEFINITION. Chapter 17: the transfer of a firmware bundle, its activation on the standby pair, trial, commit and the microcode
rollout (R384-R394).
-/

namespace Sys2Proof.Machine
open Sys2Proof

/-- The machine with the firmware state changed. -/
def modFw (m : Mach) (f : Fw → Fw) : Mach := { m with fw := f m.fw }

/-- A firmware request, over the Brumin port alone; the mask ROM serves it too (R383, R385). -/
def fwRequest (who : Iface) (seq : Nat) (i : Instr) (act : State → Reply × State) (s : State) : Host.Outcome State Fault Refusal :=
  bruminOnly who seq { writes := true, rom := true } i (fun _ _ s => if tokenBars s who then deniedReply who s else act s) s

/-! ### Transfer (R385-R388) -/

/-- R386: the slot that holds neither the running firmware nor a trial. -/
def targetSlot (m : Mach) : Nat := 1 - m.fw.run % 2

/-- R378, R388: the REASON with which BEGIN is refused. -/
def fwBeginBad (m : Mach) (len : Nat) : Option Nat :=
  if m.fw.xfer.isSome || m.fw.act != 0 || slotBusy m then some 0x804
  else if len < 16384 || 33550336 < len || len % 4096 != 0 then some 1
  else none

/-- BEGIN: the target slot's record and MAGIC are zero. -/
def fwBegin (who : Iface) (len ticket : Nat) (s : State) : Reply × State :=
  match fwBeginBad s.m len with
  | some r => refusedReply who { s with m := refuseSubmission s.time.now.toNat s.m Reg.MBX_FW_XFER_STATUS ticket r 0 }
  | none =>
    let k := targetSlot s.m
    let mram := mwrite (putFwRecord s.mram k 0 (fwRecord s.mram k).2) (fwSlot k) [0, 0, 0, 0]
    let m := modFw s.m (fun f => { f with xfer := some (k, len), got := [], held := [], bad := [] })
    ({ whom := who }, { s with mram := mram, m := wr m Reg.MBX_FW_XFER_STATUS [] (statusWord ticket 2 0 0) })

/-- The meaning of FW_BEGIN. -/
def execFwBegin (who : Iface) (seq len ticket : Nat) (s : State) :=
  fwRequest who seq (.fwBegin who seq len ticket) (fwBegin who len ticket) s

/-- MRAM as it will stand with the held parts of the transfer in place. -/
def withHeld (mram : List Host.Cell) (k : Nat) (f : Fw) : List Host.Cell := writeHeld mram (fwSlot k) f.held

/-- R386: block `i` of the bundle and its table entry have arrived. -/
def blockArrived (h : List Byte) (got : List Nat) (i : Nat) : Bool :=
  got.contains ((256 + 4 * i) / 1024) && (List.range 4).all (fun j => got.contains ((fwOff h + 4096 * i) / 1024 + j))

/-- R386: the blocks to check as part `idx` arrives: the one it belongs to, or all where it holds table entries. -/
def blocksOfPart (h : List Byte) (idx : Nat) : List Nat :=
  if 1024 * idx < fwOff h then List.range (min 8191 (fwBlocks h)) else [(1024 * idx - fwOff h) / 4096]

/-- R386: the blocks that fail their check, with those that part `idx` brings judged again. -/
def markBad (mram : List Host.Cell) (k idx : Nat) (f : Fw) : List Nat :=
  let t := withHeld mram k f
  let h := fwHeader t k
  if !f.got.contains 0 then f.bad
  else (blocksOfPart h idx).foldl (fun bad i =>
    if !blockArrived h f.got i then bad
    else
      let rest := bad.filter (· != i)
      if fwBlockOk t k i then rest else rest ++ [i]) f.bad

/-- DATA: part `idx` is written, or held where it lies in the first 4 KiB. -/
def fwData (who : Iface) (idx : Nat) (body : List Byte) (s : State) : Reply × State :=
  match s.m.fw.xfer with
  | none => ({ whom := who, status := 2 }, s)
  | some (k, len) =>
    if body.length != 1024 then ({ whom := who, status := 2 }, s)
    else if len ≤ 1024 * idx then refusedReply who { s with m := sf s.m F.MBX_FW_XFER_STATUS_REASON [] 0x102 }
    else
      let f := s.m.fw
      let f := { f with got := addPart f.got idx, held := if idx < 4 then holdPart f.held idx body else f.held }
      let mram := if idx < 4 then s.mram else mwrite s.mram (fwSlot k + 1024 * idx) body
      let m := modFw s.m (fun _ => { f with bad := markBad mram k idx f })
      ({ whom := who }, { s with mram := mram, m := sf m F.MBX_FW_XFER_STATUS_DONE_UNITS [] f.got.length })

/-- The meaning of FW_DATA. -/
def execFwData (who : Iface) (seq idx : Nat) (body : List Byte) (s : State) :=
  fwRequest who seq (.fwData who seq idx body) (fwData who idx body) s

/-- R387: the first check that the bundle in slot `k` of `mram` fails; 0 for none. -/
def fwEndFault (s : State) (mram : List Host.Cell) (k len : Nat) (sig : Bool) : Nat :=
  let h := fwHeader mram k
  if missing len s.m.fw.got then 0x103
  else if !s.m.fw.bad.isEmpty then 0x802
  else if fwMalformed h (fwTable mram k) then 0x801
  else if !fwSigned mram k sig then 0x803
  else if fwSvn h < s.nvm.minSvn then 0x806
  else 0

/-- R373, R387: the transfer ends with a STATE and REASON, for a bundle of the given version. -/
def endTransfer (now : Nat) (m : Mach) (state reason version : Nat) : Mach :=
  let m := modFw m (fun f => { f with xfer := none, held := [], bad := [] })
  let m := sf (sf m F.MBX_FW_XFER_STATUS_STATE [] state) F.MBX_FW_XFER_STATUS_REASON [] reason
  fwEvent now (opEnded m now 0xE (rd m Reg.MBX_FW_XFER_STATUS)) 1 version reason 0

/-- R383: a bundle that ROM recovery has received is committed and booted, from step 4. -/
def bootRecovered (k : Nat) (f : BootFacts) (s : State) : State :=
  let s := runFirmware { s with mram := putFwRecord s.mram k 3 ((fwRecord s.mram (1 - k)).2 + 1) } k
  if powered s.m then readConfig f 1800000000 s else s

/-- END: the held parts are written and the bundle is verified, or the slot stays empty. -/
def fwEnd (who : Iface) (sig : Bool) (f : BootFacts) (s : State) : Reply × State :=
  match s.m.fw.xfer with
  | none => ({ whom := who, status := 2 }, s)
  | some (k, len) =>
    let now := s.time.now.toNat
    let mram := withHeld s.mram k s.m.fw
    let version := fwVersion (fwHeader mram k)
    let reason := fwEndFault s mram k len sig
    if reason != 0 then ({ whom := who }, { s with m := endTransfer now s.m 4 reason version })
    else
      let t := { s with mram := putFwRecord mram k 1 (fwRecord mram k).2, m := endTransfer now s.m 3 0 version }
      ({ whom := who }, if s.m.fw.recovery then bootRecovered k f t else t)

/-- The meaning of FW_END. -/
def execFwEnd (who : Iface) (seq : Nat) (sig : Bool) (f : BootFacts) (s : State) :=
  fwRequest who seq (.fwEnd who seq sig f) (fwEnd who sig f) s

/-- ABORT: a transfer ends, and an activation that has not reached its handover. -/
def fwAbort (who : Iface) (s : State) : Reply × State :=
  let now := s.time.now.toNat
  let m := if s.m.fw.xfer.isSome then endTransfer now s.m 5 0x80C (fwVersion (fwHeader (withHeld s.mram (targetSlot s.m) s.m.fw) (targetSlot s.m)))
    else s.m
  ({ whom := who }, { s with m := dropActivation now 5 0x80C m })

/-- The meaning of FW_ABORT. -/
def execFwAbort (who : Iface) (seq : Nat) (s : State) := fwRequest who seq (.fwAbort who seq) (fwAbort who) s

/-! ### Activation (R389-R391) -/

/-- The Courier ports in session or hold. -/
def sessionPorts (m : Mach) : List Nat :=
  (livePorts m).filter (fun p => role m p == 3 && (gf m F.STN_CRL_STATUS_CSTATE (st p) == 3 || gf m F.STN_CRL_STATUS_CSTATE (st p) == 4))

/-- R390: the versions of a peer and of the bundle accept each other. -/
def peerFits (h : List Byte) (f : SessionFlit) : Bool :=
  decide (fwOldest h ≤ f.ver) && decide (f.ver ≤ fwNewest h) && decide (f.oldest ≤ fwCourier h) && decide (fwCourier h ≤ f.newest)

/-- R390: the REASON with which an activation of the bundle in slot `k` is refused. -/
def activateBad (s : State) (k : Nat) : Option Nat :=
  let h := fwHeader s.mram k
  if s.m.fw.act != 0 then some 0x804
  else if (fwRecord s.mram k).1 != 1 then some 0x807
  else if (sessionPorts s.m).any (fun p => !peerFits h (crlOf s.m p).peer) then some 0x805
  else none

/-- R391: a Courier link is in its hold interval or in admission. -/
def unsettled (m : Mach) : Bool :=
  (livePorts m).any (fun p => role m p == 3 && (gf m F.STN_CRL_STATUS_CSTATE (st p) == 4 || gf m F.STN_CRL_STATUS_CSTATE (st p) == 2))

/-- R389: step `n` of the activation is reached. -/
def reachedStep (m : Mach) (n : Nat) : Mach := sf m F.MBX_FW_ACT_STATUS_DONE_UNITS [] n

/-- R389 step 2: with the links settled the standby pair begins to boot; with no standby pair its boot fails. -/
def beginBoot (now : Nat) (m : Mach) : Mach :=
  if m.fw.act != 1 || unsettled m then m
  else
    let m := reachedStep (modFw m (fun f => { f with act := 2, actAt := now })) 2
    if gf m F.RAS_AVAIL_PM_PAIRS < 2 || m.fw.faulted != 0 then dropActivation now 4 0x809 m else m

/-- ACTIVATE: step 1. -/
def fwActivate (who : Iface) (ticket : Nat) (s : State) : Reply × State :=
  let now := s.time.now.toNat
  let k := targetSlot s.m
  match activateBad s k with
  | some r => refusedReply who { s with m := refuseSubmission now s.m Reg.MBX_FW_ACT_STATUS ticket r 1 }
  | none =>
    let m := modFw s.m (fun f => { f with act := 1, actSlot := k, actAt := now, served := false })
    ({ whom := who }, { s with m := beginBoot now (wr m Reg.MBX_FW_ACT_STATUS [] (statusWord ticket 1 0 1)) })

/-- The meaning of FW_ACTIVATE. -/
def execFwActivate (who : Iface) (seq ticket : Nat) (s : State) :=
  fwRequest who seq (.fwActivate who seq ticket) (fwActivate who ticket) s

/-- R391: COURIER_SETTLE_TIMEOUT: after 1 s the links are still unsettled. -/
def courierSettleTimeout (now : Nat) (m : Mach) : Mach :=
  if m.fw.act == 1 && unsettled m && decide (m.fw.actAt + 4000000000 ≤ now) then dropActivation now 4 0x808 m else m

/-- The meaning of COURIER_SETTLE_TIMEOUT. -/
def execCourierSettleTimeout (s : State) := onMachW courierSettleTimeout s

/-- STANDBY_BOOT_DONE: the standby pair has booted the target slot, which the ROM has verified with the verdict `sig` on its
signatures, and the handover begins; or the boot has failed. -/
def execStandbyBootDone (ok sig : Bool) (s : State) : Host.Outcome State Fault Refusal :=
  let now := s.time.now.toNat
  if s.m.fw.act != 2 then .next s
  else if ok && fwPasses s s.m.fw.actSlot sig then
    let m := modFw s.m (fun f => { f with sessions := sessionPorts s.m })
    nextW { s with m := beginHandover now 3 (reachedStep m 3) }
  else nextW { s with m := dropActivation now 4 0x809 s.m }

/-! ### Trial and commit (R392, R384) -/

/-- R392: the state that must hold before the trial reports healthy. -/
def trialFit (m : Mach) : Bool :=
  m.fw.served && m.fw.sessions.all (fun p => gf m F.STN_CRL_STATUS_CSTATE (st p) == 3 || gf m F.STN_CRL_STATUS_CSTATE (st p) == 4
    || contained m p)

/-- R389 step 5: the trial is committed. -/
def commitTrial (s : State) : State :=
  let now := s.time.now.toNat
  let k := s.m.fw.actSlot
  let h := fwHeader s.mram k
  let mram := putFwRecord s.mram k 3 ((fwRecord s.mram (1 - k)).2 + 1)
  let mram := putFwRecord mram (1 - k) 4 (fwRecord mram (1 - k)).2
  let svn := max s.nvm.minSvn (fwFloor h)
  let m := sf (sf s.m F.MBX_FW_INFO_MIN_SVN [] svn) F.MBX_FW_UCODE_UC_VERSION [] (fwUcVersion h)
  let m := reachedStep (modFw m (fun f => { f with act := 6 })) 5
  { s with mram := mram, nvm := { s.nvm with minSvn := svn }, m := fwEvent now (endActivation now m 3 0) 3 (fwVersion h) 0 0 }

/-- FW_HEALTHY: the new firmware's self-test has passed, and it reports healthy. -/
def execFwHealthy (ok : Bool) (s : State) : Host.Outcome State Fault Refusal :=
  if s.m.fw.act == 4 && s.m.fw.handEnd == 0 && ok && trialFit s.m then nextW (commitTrial s) else .next s

/-- FW_HEALTH_TIMEOUT: 10 s after step 3 there is no report. -/
def execFwHealthTimeout (s : State) : Host.Outcome State Fault Refusal :=
  if s.m.fw.act == 4 && decide (s.m.fw.actAt + 40000000000 ≤ s.time.now.toNat) then nextW (handBack 0x80A s) else .next s

/-! ### Reload and rollout (R389 steps 6 and 7, R394) -/

/-- R394: the powered stations that do not run UC_VERSION, in ascending order. -/
def staleStations (m : Mach) : List Nat :=
  (List.range 32).filter (fun k => domainState m (k / 4) == 2 && tget 0 m.fw.ucode k != gf m F.MBX_FW_UCODE_UC_VERSION + 1)

/-- R389: the rollout goes on, or its end is reached. -/
def rollOn (m : Mach) : Mach :=
  let m := reachedStep m 7
  modFw m (fun f => { f with act := if (staleStations m).isEmpty then 0 else 7 })

/-- STANDBY_RELOAD_DONE: the standby pair has reloaded, and the rollout starts. -/
def standbyReloadDone (_now : Nat) (m : Mach) : Mach := if m.fw.act == 6 then rollOn (reachedStep m 6) else m

/-- The meaning of STANDBY_RELOAD_DONE. -/
def execStandbyReloadDone (s : State) := onMachW standbyReloadDone s

/-- UCODE_STATION_LOAD: the next station's load ends; one that fails stops the rollout. -/
def execUcodeStationLoad (k : Nat) (ok : Bool) (s : State) : Host.Outcome State Fault Refusal :=
  let now := s.time.now.toNat
  if s.m.fw.act != 7 || (staleStations s.m).head? != some k then .next s
  else if ok then
    nextW { s with m := rollOn (modFw s.m (fun f => { f with ucode := tset 0 f.ucode k (gf s.m F.MBX_FW_UCODE_UC_VERSION + 1) })) }
  else
    let m := endActivation now (modFw s.m (fun f => { f with act := 0 })) 4 0x80E
    nextW { s with m := fwEvent now m 5 (fwVersion (fwHeader s.mram s.m.fw.run)) 0x80E k }

end Sys2Proof.Machine
end

