-- ==== Sys2Proof/Machine/Debug.lean ====
section
/-!
DEFINITION. Chapter 21: debug authorisation (R455, R456), the owner key (R449), the transition to RMA (R457), a host's TSP lock
request (R454), and JTAG (R458).
-/

namespace Sys2Proof.Machine
open Sys2Proof

/-- A debug request, over the Brumin port alone. -/
def debugRequest (who : Iface) (seq : Nat) (i : Instr) (act : Nat → Bool → State → Reply × State) (s : State) :
    Host.Outcome State Fault Refusal :=
  bruminOnly who seq {} i act s

/-! ### Nonce and token (R455, R456) -/

/-- 60 s in ticks. -/
def nonceTicks : Nat := 240000000000

/-- CHALLENGE: a new nonce voids the one before. Its bytes are free values. -/
def challenge (s : State) : Reply × State :=
  let (a, m) := takeFree s.m
  let (b, m) := takeFree m
  let (c, m) := takeFree m
  let (d, m) := takeFree m
  let n := ([a, b, c, d].map (fun w => natLe 8 w.toNat)).flatten
  let m := modSec m (fun k => { k with nonce := some (n, s.time.now.toNat + nonceTicks), expired := none })
  ({ whom := .brumin 0 false, body := n ++ natLe 8 (gf m F.SEC_LIFECYCLE_SERIAL) }, { s with m := m })

/-- The meaning of CHALLENGE. -/
def execChallenge (who : Iface) (seq : Nat) (s : State) := debugRequest who seq (.challenge who seq) (fun _ _ s => challenge s) s

/-- The token in force ends. -/
def endToken (m : Mach) : Mach := sf (sf (modSec m (fun k => { k with token := none })) F.SEC_DEBUG_ACTIVE [] 0) F.SEC_DEBUG_PERMS [] 0

/-- R456: REASON with which a token is rejected; 0 where it is accepted. -/
def tokenFault (s : State) (t : DebugToken) : Nat :=
  let now := s.time.now.toNat
  let live := match s.m.sec.nonce with | some (n, e) => n == t.nonce && decide (now < e) | none => false
  let late := (match s.m.sec.nonce with | some (n, e) => n == t.nonce && decide (e ≤ now) | none => false) || s.m.sec.expired == some t.nonce
  if t.serial != gf s.m F.SEC_LIFECYCLE_SERIAL || !(live || late) then 1
  else if late then 5
  else if t.signer == 1 && !gfb s.m F.SEC_OWNER_OWNER then 3
  else if !t.sig then 2
  else if t.signer == 1 && bitsOf t.perms 4 2 != 0 then 4
  else 0

/-- R456: fields outside the token's format. -/
def tokenMalformed (t : DebugToken) : Bool := t.life == 0 || 3600 < t.life || 32 ≤ t.perms || 2 ≤ t.signer

/-- PRESENT from `mac`: the nonce is used, and the token before ends. -/
def present (mac : Nat) (t : DebugToken) (s : State) : Reply × State :=
  let fault := tokenFault s t
  let m := modSec (endToken s.m) (fun k => { k with nonce := none, expired := none })
  let r : Reply := { whom := .brumin mac false }
  if tokenMalformed t then ({ r with status := 2 }, { s with m := m })
  else if fault != 0 then
    ({ r with status := 1 }, { s with m := ackEvent (sf m F.SEC_DEBUG_REASON [] fault) F.SEC_DEBUG_REJECT })
  else
    let m := modSec m (fun k => { k with token := some ⟨mac, t.perms, s.time.now.toNat + t.life * 4000000000⟩ })
    (r, { s with m := sf (sf m F.SEC_DEBUG_ACTIVE [] 1) F.SEC_DEBUG_PERMS [] t.perms })

/-- The meaning of PRESENT. -/
def execPresent (who : Iface) (seq : Nat) (t : DebugToken) (s : State) :=
  debugRequest who seq (.present who seq t) (fun mac _ s => present mac t s) s

/-- END from the address that the token binds. -/
def debugEnd (mac : Nat) (s : State) : Reply × State :=
  match s.m.sec.token with
  | some t => if t.mac == mac then ({ whom := .brumin mac false }, { s with m := endToken s.m }) else deniedReply (.brumin mac false) s
  | none => ({ whom := .brumin mac false }, s)

/-- The meaning of DEBUG_END. -/
def execDebugEnd (who : Iface) (seq : Nat) (s : State) := debugRequest who seq (.debugEnd who seq) (fun mac _ s => debugEnd mac s) s

/-- DEBUG_TOKEN_EXPIRY: the tick of expiry has come. -/
def debugTokenExpiry (now : Nat) (m : Mach) : Mach :=
  match m.sec.token with
  | some t => if t.ends ≤ now then endToken m else m
  | none => m

/-- The meaning of DEBUG_TOKEN_EXPIRY. -/
def execDebugTokenExpiry (s : State) := onMach debugTokenExpiry s

/-- NONCE_EXPIRY: 60 s have passed since the CHALLENGE. -/
def nonceExpiry (now : Nat) (m : Mach) : Mach :=
  match m.sec.nonce with
  | some (n, e) => if e ≤ now then modSec m (fun k => { k with nonce := none, expired := some n }) else m
  | none => m

/-- The meaning of NONCE_EXPIRY. -/
def execNonceExpiry (s : State) := onMach nonceExpiry s

/-! ### MRAM under a token (R455, R456) -/

/-- The address `mac` holds a token with PERMS bit `k`. -/
def permitted (s : State) (mac k : Nat) : Bool :=
  match tokenOf s mac with
  | some t => bitAt t.perms k
  | none => false

/-- R327: the identity and key-store region of MRAM. -/
def mramLocked (off len : Nat) : Bool := decide (off < 0x7000000) && decide (0x6000000 < off + len)

/-- R248: an access to the locked region of MRAM is logged. -/
def mramDenied (off : Nat) (write : Bool) (s : State) : State :=
  { s with m := lockedAccess s.time.now.toNat s.m off (gf s.m F.GRD_MGMT_SG_DEBUG) 0 write }

/-- MRAM_READ from `mac`. -/
def mramRead (mac off len : Nat) (s : State) : Reply × State :=
  let r : Reply := { whom := .brumin mac false }
  if !permitted s mac 2 then deniedReply (.brumin mac false) s
  else if len == 0 || 1024 < len || mramSize < off + len then ({ r with status := 2 }, s)
  else if mramLocked off len then ({ r with body := List.replicate len 0 }, mramDenied off false s)
  else ({ r with body := mread s.mram off len }, s)

/-- The meaning of MRAM_READ. -/
def execMramRead (who : Iface) (seq off len : Nat) (s : State) :=
  debugRequest who seq (.mramRead who seq off len) (fun mac _ s => mramRead mac off len s) s

/-- MRAM_WRITE from `mac`. -/
def mramWrite (mac off : Nat) (data : List Byte) (s : State) : Reply × State :=
  let r : Reply := { whom := .brumin mac false }
  if !permitted s mac 3 then deniedReply (.brumin mac false) s
  else if data.isEmpty || 1024 < data.length || mramSize < off + data.length then ({ r with status := 2 }, s)
  else if mramLocked off data.length then (r, mramDenied off true s)
  else
    let mram := mwrite s.mram off data
    (r, { s with mram := mram, m := sf (sf s.m (seqField 0) [] (slotSeq mram 0)) (seqField 1) [] (slotSeq mram 1) })

/-- The meaning of MRAM_WRITE. -/
def execMramWrite (who : Iface) (seq off : Nat) (data : List Byte) (s : State) :=
  debugRequest who seq (.mramWrite who seq off data) (fun mac _ s => mramWrite mac off data s) s

/-! ### Owner key and RMA (R449, R457) -/

/-- OWNER_SET: once, in a session. -/
def ownerSet (mac : Nat) (sess : Bool) (keys : List Byte) (s : State) : Reply × State :=
  let r : Reply := { whom := .brumin mac sess }
  if !sess then ({ r with status := 4 }, s)
  else if gfb s.m F.SEC_OWNER_OWNER || !s.nvm.ownerKey.isEmpty then deniedReply (.brumin mac sess) s
  else if keys.isEmpty then ({ r with status := 2 }, s)
  else (r, { s with nvm := { s.nvm with ownerKey := keys }, m := sf s.m F.SEC_OWNER_OWNER [] 1 })

/-- The meaning of OWNER_SET. -/
def execOwnerSet (who : Iface) (seq : Nat) (keys : List Byte) (s : State) :=
  debugRequest who seq (.ownerSet who seq keys) (fun mac sess s => ownerSet mac sess keys s) s

/-- R457 steps 1 and 2: the key store, owner key and owner chain are gone, and the fuse is blown. -/
def blowRma (s : State) : State :=
  identity { s with nvm := { s.nvm with identity := false, ownerKey := [], ownerChain := [], lifecycle := 3 } }

/-- RMA from `mac`, under a token with PERMS bit 4; then a warm reset, for which LAST_RESET has no code. -/
def rma (mac : Nat) (f : BootFacts) (s : State) : Reply × State :=
  if !permitted s mac 4 then deniedReply (.brumin mac false) s
  else
    let s := blowRma s
    let (v, m) := takeFree s.m
    let cause := 16 + v.toNat % 16
    let s := { s with m := m }
    ({ whom := .brumin mac false },
      if powered s.m then warmReset cause 1800000000 f s
      else { s with m := { s.m with resets := s.m.resets ++ [(cause, s.time.now.toNat)] } })

/-- The meaning of RMA. -/
def execRma (who : Iface) (seq : Nat) (f : BootFacts) (s : State) :=
  debugRequest who seq (.rma who seq f) (fun mac _ s => rma mac f s) s

/-! ### TSP lock by a host, JTAG (R454, R458) -/

/-- R454: TSP_LOCK_REQUEST: a host asks over the DOE of its port; a refusal is answered with the error of TSP. -/
def tspLockRequest (p : Nat) (s : State) : State :=
  if spdmReaches s (.doe p) && role s.m p == 1 then
    let m := tspLock 0 s.m
    let w := rd m Reg.SEC_TSP_STATUS
    { s with m := answer m (.doe p) (if stState w == 3 then .success else .invalidInput) [stState w] }
  else s

/-- The meaning of TSP_LOCK_REQUEST. -/
def execTspLockRequest (p : Nat) (s : State) := spdm (.doe p) (.tspLockRequest p) (tspLockRequest p) s

/-- R458: while an EXTEST instruction is selected every link is down. -/
def jtagExtest (on : Bool) (now : Nat) (m : Mach) : Mach :=
  let m := modSec m (fun k => { k with extest := on })
  if on then ((List.range 128).filter (fun p => portExists m p)).foldl (linkDownOf now) m else m

/-- The meaning of JTAG_EXTEST. -/
def execJtagExtest (on : Bool) (s : State) := onMachW (jtagExtest on) s

end Sys2Proof.Machine
end

