-- ==== Sys2Proof/Machine/Time.lean ====
section
/-!
DEFINITION. What Fabric Time drives (R29-R31): the tick, with the end of a handover (R358, R389) and step 8 of start-up; and the edge of
PPS_IN (R468).
-/

namespace Sys2Proof.Machine
open Sys2Proof

/-! ### The end of a handover (R358, R389, R392) -/

/-- A management command that was held. -/
def runManaged (i : Instr) (s : State) : Host.Outcome State Fault Refusal :=
  match i with
  | .ftmLoad who v => execFtmLoad who v s
  | .getDynamicCapacityConfiguration f => execGetDynamicCapacityConfiguration f s
  | .getDynamicCapacityExtentList f => execGetDynamicCapacityExtentList f s
  | .addDynamicCapacityResponse f tick acc rej => execAddDynamicCapacityResponse f tick acc rej s
  | .releaseDynamicCapacity f tick xs => execReleaseDynamicCapacity f tick xs s
  | .initiateDynamicCapacityAdd who f prescriptive xs => execInitiateDynamicCapacityAdd who f prescriptive xs s
  | .initiateDynamicCapacityRelease who f prescriptive forced xs => execInitiateDynamicCapacityRelease who f prescriptive forced xs s
  | .bindVppb who p v q => execBindVppb who p v q s
  | .unbindVppb who p v opt => execUnbindVppb who p v opt s
  | .glbReset who => execGlbReset who s
  | .amdOpen who ticket => execAmdOpen who ticket s
  | .amdStageItem who a => execAmdStageItem who a s
  | .amdCheck who => execAmdCheck who s
  | .amdDispatch who => execAmdDispatch who s
  | .amdDiscard who => execAmdDiscard who s
  | .amdPersist who ticket => execAmdPersist who ticket s
  | .mgmtRegisterWrite who a v => execMgmtRegisterWrite who a v s
  | .ackFlagWrite who a v => execAckFlagWrite who a v s
  | .identify who => execIdentify who s
  | .backgroundOperationStatus who => execBackgroundOperationStatus who s
  | .getResponseMessageLimit who => execGetResponseMessageLimit who s
  | .setResponseMessageLimit who n => execSetResponseMessageLimit who n s
  | .getEventRecords who log => execGetEventRecords who log s
  | .clearEventRecords who log all hs => execClearEventRecords who log all hs s
  | .getEventInterruptPolicy who => execGetEventInterruptPolicy who s
  | .setEventInterruptPolicy who v => execSetEventInterruptPolicy who v s
  | .getTimestamp who => execGetTimestamp who s
  | .setTimestamp who v => execSetTimestamp who v s
  | .physicalPortControl who p op => execPhysicalPortControl who p op s
  | .tunnelManagementCommand who p body => execTunnelManagementCommand who p body s
  | .sendLdCxlIoConfigurationRequest who p ld reg data => execSendLdCxlIoConfigurationRequest who p ld reg data s
  | .sendLdCxlIoMemoryRequest who p ld off len data => execSendLdCxlIoMemoryRequest who p ld off len data s
  | .getLdInfo who => execGetLdInfo who s
  | .getLdAllocations who first n => execGetLdAllocations who first n s
  | .setLdAllocations who => execSetLdAllocations who s
  | .setDcRegionConfiguration who f r bsz sor => execSetDcRegionConfiguration who f r bsz sor s
  | .pbrIdAssignment who p id => execPbrIdAssignment who p id s
  | .getFwInfo who => execGetFwInfo who s
  | .transferFw who => execTransferFw who s
  | .activateFw who => execActivateFw who s
  | .registerRead who a len => execRegisterRead who a len s
  | .registerWrite who a data => execRegisterWrite who a data s
  | .eventQueueRead who max => execEventQueueRead who max s
  | .amendmentCommand who cmd ticket cut => execAmendmentCommand who cmd ticket cut s
  | .stageItems who items => execStageItems who items s
  | .mctpControl who r => execMctpControl who r s
  | .pldmRequest who r => execPldmRequest who r s
  | .spdmRequest who r => execSpdmRequest who r s
  | .getMeasurements who index => execGetMeasurements who index s
  | .setCertificate who slot chain => execSetCertificate who slot chain s
  | .discover who seq => execDiscover who seq s
  | .regRead who seq a len => execRegRead who seq a len s
  | .regWrite who seq a data => execRegWrite who seq a data s
  | .evqRead who seq max => execEvqRead who seq max s
  | .imageBegin who seq len ticket slot => execImageBegin who seq len ticket slot s
  | .imageData who seq idx body => execImageData who seq idx body s
  | .imageEnd who seq sig => execImageEnd who seq sig s
  | .bruminMctp who seq r => execBruminMctp who seq r s
  | .challenge who seq => execChallenge who seq s
  | .present who seq t => execPresent who seq t s
  | .debugEnd who seq => execDebugEnd who seq s
  | .mramRead who seq off len => execMramRead who seq off len s
  | .mramWrite who seq off data => execMramWrite who seq off data s
  | .rma who seq f => execRma who seq f s
  | .ownerSet who seq keys => execOwnerSet who seq keys s
  | .fwBegin who seq len ticket => execFwBegin who seq len ticket s
  | .fwData who seq idx body => execFwData who seq idx body s
  | .fwEnd who seq sig f => execFwEnd who seq sig f s
  | .fwActivate who seq ticket => execFwActivate who seq ticket s
  | .fwAbort who seq => execFwAbort who seq s
  | .evqPop who => execEvqPop who s
  | .evqHeadWrite who v => execEvqHeadWrite who v s
  | .wmConfigWrite who k hyst v => execWmConfigWrite who k hyst v s
  | .rearm who => execRearm who s
  | .inlPdCtlWrite who v => execInlPdCtlWrite who v s
  | .tspLock who ticket => execTspLock who ticket s
  | .tspLockRequest p => execTspLockRequest p s
  -- no other command is ever held
  | _ => .next s

/-- The interface that a mailbox command came from. -/
def mailboxOf (i : Instr) : Option Iface :=
  match i with
  | .getDynamicCapacityConfiguration f | .getDynamicCapacityExtentList f | .addDynamicCapacityResponse f ..
  | .releaseDynamicCapacity f .. => some (.fld f)
  | .ftmLoad who .. | .initiateDynamicCapacityAdd who .. | .initiateDynamicCapacityRelease who .. | .bindVppb who ..
  | .unbindVppb who .. | .glbReset who .. | .amdOpen who .. | .amdStageItem who .. | .amdCheck who .. | .amdDispatch who ..
  | .amdDiscard who .. | .amdPersist who .. | .mgmtRegisterWrite who .. | .ackFlagWrite who .. | .identify who ..
  | .backgroundOperationStatus who .. | .getResponseMessageLimit who .. | .setResponseMessageLimit who ..
  | .getEventRecords who .. | .clearEventRecords who .. | .getEventInterruptPolicy who .. | .setEventInterruptPolicy who ..
  | .getTimestamp who .. | .setTimestamp who .. | .physicalPortControl who .. | .tunnelManagementCommand who ..
  | .sendLdCxlIoConfigurationRequest who .. | .sendLdCxlIoMemoryRequest who .. | .getLdInfo who .. | .getLdAllocations who ..
  | .setLdAllocations who .. | .setDcRegionConfiguration who .. | .pbrIdAssignment who .. | .getFwInfo who ..
  | .transferFw who .. | .activateFw who .. | .registerRead who .. | .registerWrite who .. | .eventQueueRead who ..
  | .amendmentCommand who .. | .stageItems who .. | .mctpControl who .. | .pldmRequest who .. | .spdmRequest who ..
  | .getMeasurements who .. | .setCertificate who .. | .evqPop who .. | .evqHeadWrite who .. | .wmConfigWrite who ..
  | .rearm who .. | .inlPdCtlWrite who .. | .tspLock who .. =>
    (match who with
     | .cci _ | .fld _ => some who
     | _ => none)
  | _ => none

/-- R358: a mailbox command that was deferred is executed, and its background operation completes with its return code. -/
def completeDeferred (who : Iface) (i : Instr) (s : State) : State :=
  let ret := ((s.m.replies.getLast?).map (·.ret)).getD .success
  if (cciOf s.m who).bg.isSome then s
  else { s with m := bgSignal (modCci s.m who (fun c => { c with bg := some ⟨opcodeFor i, true, ret, 0, []⟩ })) (cciKey who) }

/-- The commands that were held, in arrival order. -/
def runHeld : List Instr → State → Host.Outcome State Fault Refusal
  | [], s => .next s
  | i :: is, s =>
    match mailboxOf i with
    | none => match runManaged i s with
      | .next s => runHeld is s
      | o => o
    | some who => match runManaged i { s with m := modCci s.m who (fun c => { c with bg := none }) } with
      | .next s => runHeld is (completeDeferred who i s)
      | o => o

/-- R389 step 3: the pairs change places; a trial begins, or its end is reached. -/
def swapPairs (s : State) : State :=
  let now := s.time.now.toNat
  let m := sf (sf s.m F.MBX_STATUS_HANDOVER [] 0) F.MBX_STATUS_ACTIVE_PAIR [] (1 - gf s.m F.MBX_STATUS_ACTIVE_PAIR)
  let m := modFw m (fun f => { f with handEnd := 0, held_ := [] })
  let k := m.fw.actSlot
  if m.fw.act == 3 then
    let m := reachedStep (modFw m (fun f => { f with act := 4, actAt := now, served := false })) 4
    let m := fwEvent now (sf m F.MBX_FW_ACT_STATUS_STATE [] 2) 2 (fwVersion (fwHeader s.mram k)) 0 0
    showRunning { s with mram := putFwRecord s.mram k 2 (fwRecord s.mram k).2, m := m } k
  else if m.fw.act == 5 then showRunning { s with m := modFw m (fun f => { f with act := 0 }) } (1 - k)
  else { s with m := m }

/-- The handover ends at its bound, and the commands that waited for it are served. -/
def endHandover (s : State) : Host.Outcome State Fault Refusal :=
  if s.m.fw.handEnd == 0 || decide (s.time.now.toNat + 1 < s.m.fw.handEnd) then .next s
  else runHeld s.m.fw.held_ (swapPairs s)

/-! ### The tick (R29, R31, R324, R391, R394, R397) -/

/-- R397: event 0x013 at each message that the ordering point has refused or a pacer holds. -/
def countHeld (now : Nat) (m : Mach) : Mach :=
  let m := (m.sof.transit.filter (fun t => t.phase == .pinned)).foldl (fun m t => count m now 0x13 1 (msgInfo t.msg (egressPorts m t.msg t.tgt))) m
  m.sof.paced.foldl (fun m c => count m now 0x13 1 { ports := [c.port], mc := some c.mc }) m

/-- R131: the FLDs with an MC2, MC4 or MC5 message that waits at its ingress, refused or held by a pacer. -/
def waitingFlds (m : Mach) : List Nat :=
  let slow (c : Nat) : Bool := c == 2 || c == 4 || c == 5
  ((m.sof.transit.filter (fun t => t.phase == .pinned && slow t.msg.mc)).filterMap (·.msg.fld)
    ++ (m.sof.paced.filter (fun c => slow c.mc)).filterMap (·.fld)).eraseDups

/-- R131: the tick that ends was a refused tick of each of those FLDs. -/
def countRefused (m : Mach) : Mach :=
  { m with sof := { m.sof with devload := (waitingFlds m).foldl (fun t f =>
    tmod {} t f (fun d => { d with refused := d.refused + 1 })) m.sof.devload } }

/-- R30: the offset that slewing has still to remove is 100 ppm of a tick less. -/
def slewStep (v : Int) : Int := if v < 0 then v + 1 else if 0 < v then v - 1 else 0

/-- R31, R468: PPS_OUT rises as Fabric Time reaches `t`. -/
def ppsRises (s : State) (t : Word) : Bool := t.toNat % 4000000000 == 0 && !s.m.fw.recovery

/-- An activation that waits goes on once what it waits for is so (R391, R394). -/
def nudgeActivation (now : Nat) (m : Mach) : Mach :=
  let m := beginBoot now m
  if m.fw.act == 7 && (staleStations m).isEmpty then modFw m (fun f => { f with act := 0 }) else m

/-- Fabric Time one tick on. -/
def advanceTime (s : State) : State :=
  let t := s.time.now + 1
  { s with time := { s.time with
      now := t, up := s.time.up + 1, slew := slewStep s.time.slew, ppsOut := s.time.ppsOut + (if ppsRises s t then 1 else 0) } }

/-- The meaning of FABRIC_TIME_TICK: Fabric Time runs while the always-on domain is up. -/
def execFabricTimeTick (s : State) : Host.Outcome State Fault Refusal :=
  if !s.m.inl.on then .next s
  else
    let s := advanceTime s
    let now := s.time.now.toNat
    let s := { s with m := cutoversDue now s.m.amd.sets.length s.m }
    let m := nudgeActivation now (countHeld now (count (countRefused s.m) now 0x001 1))
    endHandover (reachStep8 { s with m := m })

/-! ### PPS_IN (R31, R468) -/

/-- R31: the offset to the nearest multiple of 4,000,000,000 ticks, in ten-thousandths of a tick. -/
def ppsOffset (now : Nat) : Int :=
  let r := now % 4000000000
  if r ≤ 2000000000 then -(10000 * (r : Int)) else 10000 * ((4000000000 - r : Nat) : Int)

/-- The meaning of PPS_IN_EDGE: an edge less than 0.5 s after the last accepted one is ignored. -/
def execPpsInEdge (s : State) : Host.Outcome State Fault Refusal :=
  if !s.m.inl.on || (s.time.ppsIn != 0 && decide (s.time.up + 1 < s.time.ppsIn + 2000000000)) then .next s
  else
    let t := { s.time with ppsIn := s.time.up + 1 }
    .next { s with time := if gfb s.m F.FTM_CTL_PPS_EN then { t with slew := ppsOffset s.time.now.toNat } else t }

end Sys2Proof.Machine
end

