-- ==== Sys2Proof/Machine/Dispatch.lean ====
section
/-!
DEFINITION. One arm for each command: a direct call of its meaning.
-/

namespace Sys2Proof.Machine
open Sys2Proof

/-- The effect of a command on everything but the queue. -/
def exec (i : Instr) (s : State) : Host.Outcome State Fault Refusal :=
  match i with
  | .fabricTimeTick => Sys2Proof.Machine.execFabricTimeTick s
  | .ftmLoad who v => Sys2Proof.Machine.execFtmLoad who v s
  | .ppsInEdge => Sys2Proof.Machine.execPpsInEdge s
  | .flitArrival p hs => Sys2Proof.Machine.execFlitArrival p hs s
  | .staleLimit => Sys2Proof.Machine.execStaleLimit s
  | .internalMessageDue n => Sys2Proof.Machine.execInternalMessageDue n s
  | .slip src => Sys2Proof.Machine.execSlip src s
  | .blankLetter src l => Sys2Proof.Machine.execBlankLetter src l s
  | .letterHandover idx ok => Sys2Proof.Machine.execLetterHandover idx ok s
  | .letterResend idx => Sys2Proof.Machine.execLetterResend idx s
  | .planeRetire n parity => Sys2Proof.Machine.execPlaneRetire n parity s
  | .sofPlaneRetire bits => Sys2Proof.Machine.execSofPlaneRetire bits s
  | .sofPlaneRestore bits => Sys2Proof.Machine.execSofPlaneRestore bits s
  | .planeSelfTestDone n pass => Sys2Proof.Machine.execPlaneSelfTestDone n pass s
  | .admitMessage idx => Sys2Proof.Machine.execAdmitMessage idx s
  | .reoffer idx => Sys2Proof.Machine.execReoffer idx s
  | .mailbagRefill q bad => Sys2Proof.Machine.execMailbagRefill q bad s
  | .settleMessage q => Sys2Proof.Machine.execSettleMessage q s
  | .egressBegin p held => Sys2Proof.Machine.execEgressBegin p held s
  | .messageLeaveDone p => Sys2Proof.Machine.execMessageLeaveDone p s
  | .lowReset => Sys2Proof.Machine.execLowReset s
  | .flushDiscard ticket scope p mc sc => Sys2Proof.Machine.execFlushDiscard ticket scope p mc sc s
  | .flushError ticket scope p mc sc => Sys2Proof.Machine.execFlushError ticket scope p mc sc s
  | .flushAct q => Sys2Proof.Machine.execFlushAct q s
  | .mc7BucketRefill => Sys2Proof.Machine.execMc7BucketRefill s
  | .receipt n => Sys2Proof.Machine.execReceipt n s
  | .classStall p c => Sys2Proof.Machine.execClassStall p c s
  | .devloadWindowEnd f => Sys2Proof.Machine.execDevloadWindowEnd f s
  | .itemArrival n => Sys2Proof.Machine.execItemArrival n s
  | .applyBirsp sl => Sys2Proof.Machine.execApplyBirsp sl s
  | .applyMemberResponse sl => Sys2Proof.Machine.execApplyMemberResponse sl s
  | .applyHostRemoved n => Sys2Proof.Machine.execApplyHostRemoved n s
  | .confirmMemRd sl e => Sys2Proof.Machine.execConfirmMemRd sl e s
  | .confirmMemInv sl e => Sys2Proof.Machine.execConfirmMemInv sl e s
  | .confirmMemSpecRd sl => Sys2Proof.Machine.execConfirmMemSpecRd sl s
  | .confirmMemClnEvct sl e => Sys2Proof.Machine.execConfirmMemClnEvct sl e s
  | .confirmBiConflict sl => Sys2Proof.Machine.execConfirmBiConflict sl s
  | .confirmWriteback sl e => Sys2Proof.Machine.execConfirmWriteback sl e s
  | .confirmNoncachingWrite sl e => Sys2Proof.Machine.execConfirmNoncachingWrite sl e s
  | .confirmNoncachingRead sl e => Sys2Proof.Machine.execConfirmNoncachingRead sl e s
  | .confirmFarAtomic sl e => Sys2Proof.Machine.execConfirmFarAtomic sl e s
  | .confirmCxlIoPool sl e => Sys2Proof.Machine.execConfirmCxlIoPool sl e s
  | .confirmMirrorWrite sl => Sys2Proof.Machine.execConfirmMirrorWrite sl s
  | .heldSnoopIssue sl => Sys2Proof.Machine.execHeldSnoopIssue sl s
  | .evictionWaitResume sl => Sys2Proof.Machine.execEvictionWaitResume sl s
  | .sweepItem sl => Sys2Proof.Machine.execSweepItem sl s
  | .cleaningItem sl => Sys2Proof.Machine.execCleaningItem sl s
  | .hostCensus q => Sys2Proof.Machine.execHostCensus q s
  | .carbonCensus sl => Sys2Proof.Machine.execCarbonCensus sl s
  | .hqRemove q ticket h => Sys2Proof.Machine.execHqRemove q ticket h s
  | .fchClean ticket => Sys2Proof.Machine.execFchClean ticket s
  | .fchMirrorClr g => Sys2Proof.Machine.execFchMirrorClr g s
  | .descriptorWrite => Sys2Proof.Machine.execDescriptorWrite s
  | .doorbellSubmit => Sys2Proof.Machine.execDoorbellSubmit s
  | .doorbellRelease => Sys2Proof.Machine.execDoorbellRelease s
  | .doorbellAbort => Sys2Proof.Machine.execDoorbellAbort s
  | .resultAreaRead => Sys2Proof.Machine.execResultAreaRead s
  | .engineSlot e => Sys2Proof.Machine.execEngineSlot e s
  | .parcelWriteIssue e => Sys2Proof.Machine.execParcelWriteIssue e s
  | .lineOpSettle n => Sys2Proof.Machine.execLineOpSettle n s
  | .getDynamicCapacityConfiguration f => Sys2Proof.Machine.execGetDynamicCapacityConfiguration f s
  | .getDynamicCapacityExtentList f => Sys2Proof.Machine.execGetDynamicCapacityExtentList f s
  | .addDynamicCapacityResponse f tick acc rej => Sys2Proof.Machine.execAddDynamicCapacityResponse f tick acc rej s
  | .releaseDynamicCapacity f tick xs => Sys2Proof.Machine.execReleaseDynamicCapacity f tick xs s
  | .initiateDynamicCapacityAdd who f prescriptive xs => Sys2Proof.Machine.execInitiateDynamicCapacityAdd who f prescriptive xs s
  | .initiateDynamicCapacityRelease who f prescriptive forced xs => Sys2Proof.Machine.execInitiateDynamicCapacityRelease who f prescriptive forced xs s
  | .sanitizeOnRelease e => Sys2Proof.Machine.execSanitizeOnRelease e s
  | .bindVppb who p v q => Sys2Proof.Machine.execBindVppb who p v q s
  | .unbindVppb who p v opt => Sys2Proof.Machine.execUnbindVppb who p v opt s
  | .grdBarrier v => Sys2Proof.Machine.execGrdBarrier v s
  | .barrierComplete => Sys2Proof.Machine.execBarrierComplete s
  | .shaperRefill => Sys2Proof.Machine.execShaperRefill s
  | .pacerRefill => Sys2Proof.Machine.execPacerRefill s
  | .gateSwapRequest p ticket plen => Sys2Proof.Machine.execGateSwapRequest p ticket plen s
  | .gateSwap p => Sys2Proof.Machine.execGateSwap p s
  | .perstNChange p low => Sys2Proof.Machine.execPerstNChange p low s
  | .hotReset p => Sys2Proof.Machine.execHotReset p s
  | .prsntDebounced p low => Sys2Proof.Machine.execPrsntDebounced p low s
  | .perstRelease p => Sys2Proof.Machine.execPerstRelease p s
  | .linkTrained p t => Sys2Proof.Machine.execLinkTrained p t s
  | .linkDown p n cut => Sys2Proof.Machine.execLinkDown p n cut s
  | .linkStateChange p ls rate width => Sys2Proof.Machine.execLinkStateChange p ls rate width s
  | .l0pRequest p code => Sys2Proof.Machine.execL0pRequest p code s
  | .perstAssert p on => Sys2Proof.Machine.execPerstAssert p on s
  | .retrain p => Sys2Proof.Machine.execRetrain p s
  | .rejoin p => Sys2Proof.Machine.execRejoin p s
  | .dpcTriggerStatusClear p => Sys2Proof.Machine.execDpcTriggerStatusClear p s
  | .dpcUncorrectable p tick slot dpc => Sys2Proof.Machine.execDpcUncorrectable p tick slot dpc s
  | .memTimeout p => Sys2Proof.Machine.execMemTimeout p s
  | .viralIndication p tick slot => Sys2Proof.Machine.execViralIndication p tick slot s
  | .courierBringup p t => Sys2Proof.Machine.execCourierBringup p t s
  | .admissionRetry p t => Sys2Proof.Machine.execAdmissionRetry p t s
  | .courierFlitReceive p f => Sys2Proof.Machine.execCourierFlitReceive p f s
  | .nakReceive p ack => Sys2Proof.Machine.execNakReceive p ack s
  | .courierRecovery p ok => Sys2Proof.Machine.execCourierRecovery p ok s
  | .sessionOpen p f => Sys2Proof.Machine.execSessionOpen p f s
  | .sessionOpenAck p f => Sys2Proof.Machine.execSessionOpenAck p f s
  | .sessionResume p f => Sys2Proof.Machine.execSessionResume p f s
  | .sessionResumeAck p f => Sys2Proof.Machine.execSessionResumeAck p f s
  | .sessionRefuse p f => Sys2Proof.Machine.execSessionRefuse p f s
  | .sessionResend p => Sys2Proof.Machine.execSessionResend p s
  | .holdExpiry p => Sys2Proof.Machine.execHoldExpiry p s
  | .timeExchange p sub => Sys2Proof.Machine.execTimeExchange p sub s
  | .time idx => Sys2Proof.Machine.execTime idx s
  | .ideKeyUpdate p => Sys2Proof.Machine.execIdeKeyUpdate p s
  | .rasContain ticket p => Sys2Proof.Machine.execRasContain ticket p s
  | .fenceComplete p => Sys2Proof.Machine.execFenceComplete p s
  | .memberPurgeEnd p => Sys2Proof.Machine.execMemberPurgeEnd p s
  | .dlHeadWrite v => Sys2Proof.Machine.execDlHeadWrite v s
  | .vinRise vin en f => Sys2Proof.Machine.execVinRise vin en f s
  | .aonLoss => Sys2Proof.Machine.execAonLoss s
  | .rstNAssert => Sys2Proof.Machine.execRstNAssert s
  | .warmReset f => Sys2Proof.Machine.execWarmReset f s
  | .glbReset who => Sys2Proof.Machine.execGlbReset who s
  | .amdOpen who ticket => Sys2Proof.Machine.execAmdOpen who ticket s
  | .amdStageItem who a => Sys2Proof.Machine.execAmdStageItem who a s
  | .amdCheck who => Sys2Proof.Machine.execAmdCheck who s
  | .amdDispatch who => Sys2Proof.Machine.execAmdDispatch who s
  | .amdDiscard who => Sys2Proof.Machine.execAmdDiscard who s
  | .amdPersist who ticket => Sys2Proof.Machine.execAmdPersist who ticket s
  | .amdCheckDone => Sys2Proof.Machine.execAmdCheckDone s
  | .amendmentCutover => Sys2Proof.Machine.execAmendmentCutover s
  | .persistDone ok => Sys2Proof.Machine.execPersistDone ok s
  | .mgmtRegisterWrite who a v => Sys2Proof.Machine.execMgmtRegisterWrite who a v s
  | .ackFlagWrite who a v => Sys2Proof.Machine.execAckFlagWrite who a v s
  | .identify who => Sys2Proof.Machine.execIdentify who s
  | .backgroundOperationStatus who => Sys2Proof.Machine.execBackgroundOperationStatus who s
  | .getResponseMessageLimit who => Sys2Proof.Machine.execGetResponseMessageLimit who s
  | .setResponseMessageLimit who n => Sys2Proof.Machine.execSetResponseMessageLimit who n s
  | .getEventRecords who log => Sys2Proof.Machine.execGetEventRecords who log s
  | .clearEventRecords who log all hs => Sys2Proof.Machine.execClearEventRecords who log all hs s
  | .getEventInterruptPolicy who => Sys2Proof.Machine.execGetEventInterruptPolicy who s
  | .setEventInterruptPolicy who v => Sys2Proof.Machine.execSetEventInterruptPolicy who v s
  | .getTimestamp who => Sys2Proof.Machine.execGetTimestamp who s
  | .setTimestamp who v => Sys2Proof.Machine.execSetTimestamp who v s
  | .physicalPortControl who p op => Sys2Proof.Machine.execPhysicalPortControl who p op s
  | .tunnelManagementCommand who p body => Sys2Proof.Machine.execTunnelManagementCommand who p body s
  | .sendLdCxlIoConfigurationRequest who p ld reg data => Sys2Proof.Machine.execSendLdCxlIoConfigurationRequest who p ld reg data s
  | .sendLdCxlIoMemoryRequest who p ld off len data => Sys2Proof.Machine.execSendLdCxlIoMemoryRequest who p ld off len data s
  | .getLdInfo who => Sys2Proof.Machine.execGetLdInfo who s
  | .getLdAllocations who first n => Sys2Proof.Machine.execGetLdAllocations who first n s
  | .setLdAllocations who => Sys2Proof.Machine.execSetLdAllocations who s
  | .setDcRegionConfiguration who f r bsz sor => Sys2Proof.Machine.execSetDcRegionConfiguration who f r bsz sor s
  | .pbrIdAssignment who p id => Sys2Proof.Machine.execPbrIdAssignment who p id s
  | .getFwInfo who => Sys2Proof.Machine.execGetFwInfo who s
  | .transferFw who => Sys2Proof.Machine.execTransferFw who s
  | .activateFw who => Sys2Proof.Machine.execActivateFw who s
  | .registerRead who a len => Sys2Proof.Machine.execRegisterRead who a len s
  | .registerWrite who a data => Sys2Proof.Machine.execRegisterWrite who a data s
  | .eventQueueRead who max => Sys2Proof.Machine.execEventQueueRead who max s
  | .amendmentCommand who cmd ticket cut => Sys2Proof.Machine.execAmendmentCommand who cmd ticket cut s
  | .stageItems who items => Sys2Proof.Machine.execStageItems who items s
  | .mctpControl who r => Sys2Proof.Machine.execMctpControl who r s
  | .pldmRequest who r => Sys2Proof.Machine.execPldmRequest who r s
  | .sensorUpdate v => Sys2Proof.Machine.execSensorUpdate v s
  | .spdmRequest who r => Sys2Proof.Machine.execSpdmRequest who r s
  | .getMeasurements who index => Sys2Proof.Machine.execGetMeasurements who index s
  | .setCertificate who slot chain => Sys2Proof.Machine.execSetCertificate who slot chain s
  | .discover who seq => Sys2Proof.Machine.execDiscover who seq s
  | .regRead who seq a len => Sys2Proof.Machine.execRegRead who seq a len s
  | .regWrite who seq a data => Sys2Proof.Machine.execRegWrite who seq a data s
  | .evqRead who seq max => Sys2Proof.Machine.execEvqRead who seq max s
  | .imageBegin who seq len ticket slot => Sys2Proof.Machine.execImageBegin who seq len ticket slot s
  | .imageData who seq idx body => Sys2Proof.Machine.execImageData who seq idx body s
  | .imageEnd who seq sig => Sys2Proof.Machine.execImageEnd who seq sig s
  | .bruminMctp who seq r => Sys2Proof.Machine.execBruminMctp who seq r s
  | .challenge who seq => Sys2Proof.Machine.execChallenge who seq s
  | .present who seq t => Sys2Proof.Machine.execPresent who seq t s
  | .debugEnd who seq => Sys2Proof.Machine.execDebugEnd who seq s
  | .mramRead who seq off len => Sys2Proof.Machine.execMramRead who seq off len s
  | .mramWrite who seq off data => Sys2Proof.Machine.execMramWrite who seq off data s
  | .rma who seq f => Sys2Proof.Machine.execRma who seq f s
  | .ownerSet who seq keys => Sys2Proof.Machine.execOwnerSet who seq keys s
  | .fwBegin who seq len ticket => Sys2Proof.Machine.execFwBegin who seq len ticket s
  | .fwData who seq idx body => Sys2Proof.Machine.execFwData who seq idx body s
  | .fwEnd who seq sig f => Sys2Proof.Machine.execFwEnd who seq sig f s
  | .fwActivate who seq ticket => Sys2Proof.Machine.execFwActivate who seq ticket s
  | .fwAbort who seq => Sys2Proof.Machine.execFwAbort who seq s
  | .courierSettleTimeout => Sys2Proof.Machine.execCourierSettleTimeout s
  | .standbyBootDone ok sig => Sys2Proof.Machine.execStandbyBootDone ok sig s
  | .fwHealthy ok => Sys2Proof.Machine.execFwHealthy ok s
  | .fwHealthTimeout => Sys2Proof.Machine.execFwHealthTimeout s
  | .standbyReloadDone => Sys2Proof.Machine.execStandbyReloadDone s
  | .ucodeStationLoad k ok => Sys2Proof.Machine.execUcodeStationLoad k ok s
  | .evqPop who => Sys2Proof.Machine.execEvqPop who s
  | .evqHeadWrite who v => Sys2Proof.Machine.execEvqHeadWrite who v s
  | .wmConfigWrite who k hyst v => Sys2Proof.Machine.execWmConfigWrite who k hyst v s
  | .ctrValueWrite c v => Sys2Proof.Machine.execCtrValueWrite c v s
  | .pmuClear => Sys2Proof.Machine.execPmuClear s
  | .pmuFreeze on => Sys2Proof.Machine.execPmuFreeze on s
  | .bwWindowEnd => Sys2Proof.Machine.execBwWindowEnd s
  | .bwWinChange win => Sys2Proof.Machine.execBwWinChange win s
  | .trackingReseed w => Sys2Proof.Machine.execTrackingReseed w s
  | .trkHeadWrite v => Sys2Proof.Machine.execTrkHeadWrite v s
  | .rdHeadWrite slot lap => Sys2Proof.Machine.execRdHeadWrite slot lap s
  | .prechargeStart => Sys2Proof.Machine.execPrechargeStart s
  | .prechargeComplete e => Sys2Proof.Machine.execPrechargeComplete e s
  | .prechargeTimeout e => Sys2Proof.Machine.execPrechargeTimeout e s
  | .gateRampDone => Sys2Proof.Machine.execGateRampDone s
  | .pwrgdAssert f => Sys2Proof.Machine.execPwrgdAssert f s
  | .uvlo vin e => Sys2Proof.Machine.execUvlo vin e s
  | .ovlo vin e => Sys2Proof.Machine.execOvlo vin e s
  | .lockoutEnd vin => Sys2Proof.Machine.execLockoutEnd vin s
  | .currentLimitEngage => Sys2Proof.Machine.execCurrentLimitEngage s
  | .faultTimerTrip => Sys2Proof.Machine.execFaultTimerTrip s
  | .fastTrip iin => Sys2Proof.Machine.execFastTrip iin s
  | .fetSensorRead t selfTest model e => Sys2Proof.Machine.execFetSensorRead t selfTest model e s
  | .enFall e => Sys2Proof.Machine.execEnFall e s
  | .enRise => Sys2Proof.Machine.execEnRise s
  | .rearm who => Sys2Proof.Machine.execRearm who s
  | .junctionRead tj e => Sys2Proof.Machine.execJunctionRead tj e s
  | .inlPdCtlWrite who v => Sys2Proof.Machine.execInlPdCtlWrite who v s
  | .domainPowerOnDone dom => Sys2Proof.Machine.execDomainPowerOnDone dom s
  | .domainIsolation dom oc lr => Sys2Proof.Machine.execDomainIsolation dom oc lr s
  | .sramUncorrectable addr rewritten => Sys2Proof.Machine.execSramUncorrectable addr rewritten s
  | .sliceRecordFailure sl seq => Sys2Proof.Machine.execSliceRecordFailure sl seq s
  | .quadrantTakeover n parity => Sys2Proof.Machine.execQuadrantTakeover n parity s
  | .hbmStackLoss b => Sys2Proof.Machine.execHbmStackLoss b s
  | .postmasterFailover => Sys2Proof.Machine.execPostmasterFailover s
  | .fatalFault code => Sys2Proof.Machine.execFatalFault code s
  | .autoReset f => Sys2Proof.Machine.execAutoReset f s
  | .rasLogHeadWrite v => Sys2Proof.Machine.execRasLogHeadWrite v s
  | .tspLock who ticket => Sys2Proof.Machine.execTspLock who ticket s
  | .tspLockRequest p => Sys2Proof.Machine.execTspLockRequest p s
  | .ideKm p cm link sel => Sys2Proof.Machine.execIdeKm p cm link sel s
  | .ideCheckFailure p => Sys2Proof.Machine.execIdeCheckFailure p s
  | .debugTokenExpiry => Sys2Proof.Machine.execDebugTokenExpiry s
  | .nonceExpiry => Sys2Proof.Machine.execNonceExpiry s
  | .jtagExtest on => Sys2Proof.Machine.execJtagExtest on s
  | .postmasterRequestTimeout => Sys2Proof.Machine.execPostmasterRequestTimeout s
  | .currentLimitRelease => Sys2Proof.Machine.execCurrentLimitRelease s
  | .postmasterPairSelfTestDone ok => Sys2Proof.Machine.execPostmasterPairSelfTestDone ok s
  | .i3cDynamicAddressAssignment a => Sys2Proof.Machine.execI3cDynamicAddressAssignment a s

end Sys2Proof.Machine
end

