-- ==== Sys2Proof/Safety.lean ====
section
/-!
DEFINITION. The terms in which claims speak of a step: the parts of the state, what a command leaves unchanged, the
canonical form of memory, and the ways in which a command may end.
-/

namespace Sys2Proof.Machine
open Sys2Proof

/-- The parts of the state, apart from the register file. -/
inductive Part where
  | now | locked | slew | clock | shown
  | mram | nvm | pending
  | free | sof | home | eng | hdm | vppb | pmReqs | sched | ports | courier | logs | pmu | amd | ten | replies | cci | brumin | load | fw | sec | inl | resets | boot | step8 | sram | sensed | i3cAddr | eids | tids
  deriving DecidableEq, Repr

/-- A part is the same in two states. `clock` is the resonator's count with the edges of the PPS pins; `shown` is what a lookup at an earlier
postmark puts aside while it lasts, `amd` the rest of the amendment state. -/
def Part.same (s t : State) : Part → Prop
  | .now => t.time.now = s.time.now
  | .locked => t.time.locked = s.time.locked
  | .slew => t.time.slew = s.time.slew
  | .clock => t.time.up = s.time.up ∧ t.time.ppsIn = s.time.ppsIn ∧ t.time.ppsOut = s.time.ppsOut
  | .mram => t.mram = s.mram
  | .nvm => t.nvm = s.nvm
  | .pending => t.pending = s.pending
  | .free => t.m.free = s.m.free
  | .sof => t.m.sof = s.m.sof
  | .home => t.m.home = s.m.home
  | .eng => t.m.eng = s.m.eng
  | .hdm => t.m.hdm = s.m.hdm
  | .vppb => t.m.vppb = s.m.vppb
  | .pmReqs => t.m.pmReqs = s.m.pmReqs
  | .sched => t.m.sched = s.m.sched
  | .ports => t.m.ports = s.m.ports
  | .courier => t.m.courier = s.m.courier
  | .logs => t.m.logs = s.m.logs
  | .pmu => t.m.pmu = s.m.pmu
  | .amd => { t.m.amd with shown := [] } = { s.m.amd with shown := [] }
  | .shown => t.m.amd.shown = s.m.amd.shown
  | .ten => t.m.ten = s.m.ten
  | .replies => t.m.replies = s.m.replies
  | .cci => t.m.cci = s.m.cci
  | .brumin => t.m.brumin = s.m.brumin
  | .load => t.m.load = s.m.load
  | .fw => t.m.fw = s.m.fw
  | .sec => t.m.sec = s.m.sec
  | .inl => t.m.inl = s.m.inl
  | .resets => t.m.resets = s.m.resets
  | .boot => t.m.boot = s.m.boot
  | .step8 => t.m.step8 = s.m.step8
  | .sram => t.m.sram = s.m.sram
  | .sensed => t.m.sensed = s.m.sensed
  | .i3cAddr => t.m.i3cAddr = s.m.i3cAddr
  | .eids => t.m.eids = s.m.eids
  | .tids => t.m.tids = s.m.tids

/-- Every register whose address `q` does not hold of reads the same. -/
def RegsKept (q : Nat → Bool) (a b : Mach) : Prop := ∀ (d : Word) (i : Nat), q i = false → tget d b.regs i = tget d a.regs i

/-- Only the parts in `ps`, and the registers at addresses that `q` holds of, may differ. -/
def Frame (ps : List Part) (q : Nat → Bool) (s t : State) : Prop := (∀ p : Part, p ∉ ps → p.same s t) ∧ RegsKept q s.m t.m

/-- The address is that of one of these registers. -/
def isReg (rs : List (RegDef × List Nat)) (a : Nat) : Bool := rs.any (fun r => a == regAddr r.1 r.2)

/-- The registers in which the event queue, the RAS log and the dead-letter log keep their pointers and counts. -/
def logRegs : List (RegDef × List Nat) :=
  [(Reg.RAS_EVQ_PTR, []), (Reg.RAS_EVQ_STATUS, []), (Reg.RAS_LOG_PTR, []), (Reg.RAS_LOG_STATUS, []), (Reg.RAS_DL_PTR, []),
   (Reg.RAS_DL_STATUS, [])]

/-- With them the status registers of the watermark monitors. -/
def watchRegs : List (RegDef × List Nat) := logRegs ++ (List.range 64).map (fun k => (Reg.RAS_WM_STATUS, [k]))

/-- R418, R419: the guard has tripped and latched off, with bit `k` of CAUSES recorded. -/
def GuardTripped (k : Nat) (t : State) : Prop :=
  t.m.inl.latched = true ∧ t.m.inl.faultN = true ∧ t.m.inl.gate = 0 ∧ gf t.m F.INL_STATUS_STATE [] = 5 ∧
    gf t.m F.INL_STATUS_PWRGD [] = 0 ∧ bitAt (gf t.m F.INL_STATUS_CAUSES []) k = true

/-- R420: the gate is fully on, and VOUT has stood with the limit inactive for 1 ms, power-good not yet shown. -/
abbrev PowerIsGood (s : State) : Prop :=
  guardState s.m.inl = 4 ∧ gf s.m F.INL_STATUS_PWRGD [] = 0 ∧ gf s.m F.INL_STATUS_LIMIT [] = 0 ∧ s.m.inl.since + 4000000 ≤ s.time.up

/-- The number of the first header test that a configuration slot fails, 0 for none (R335). -/
def slotHeaderFault (s : State) (k : Nat) : Nat := headerFault (mread s.mram (cfgSlot k) 256)

/-- Both configuration slots fail a test of their headers. -/
abbrev SlotsFail (s : State) : Prop := slotHeaderFault s 0 ≠ 0 ∧ slotHeaderFault s 1 ≠ 0

/-- No firmware slot is on trial. -/
abbrev NoTrial (s : State) : Prop := (fwRecord s.mram 0).1 ≠ 2 ∧ (fwRecord s.mram 1).1 ≠ 2

/-- R337: safe mode at the board position that `f` names, with the first failed test of each slot shown. -/
def SafeModeEntered (f : BootFacts) (s t : State) : Prop :=
  gf t.m F.GLB_STATUS_SAFE [] = 1 ∧ gf t.m F.GLB_STATUS_STEP [] = 5 ∧ gf t.m F.AMD_CFG_SLOT_SAFE [] = 1 ∧
    gf t.m F.RTE_SELF_VALID [] = 0 ∧ gf t.m F.RTE_SELF_BOARD_ID [] = f.board % 16 ∧
    gf t.m F.AMD_CFG_SLOT_FAULT0 [] = slotHeaderFault s 0 ∧ gf t.m F.AMD_CFG_SLOT_FAULT1 [] = slotHeaderFault s 1 ∧ t.m.boot = f

/-- R324, R326: the configuration of a slot that passes every test has been read: STEP 7 with `limit` ticks to step 8, not in safe mode. -/
def ConfigRead (f : BootFacts) (limit : Nat) (s t : State) : Prop :=
  gf t.m F.GLB_STATUS_STEP [] = 7 ∧ gf t.m F.GLB_STATUS_SAFE [] = 0 ∧ t.m.step8 = s.time.now.toNat + limit + 1 ∧ t.m.boot = f ∧
    t.m.resets = [] ∧ t.time = s.time ∧ t.mram = s.mram ∧ t.nvm = s.nvm ∧ t.pending = s.pending

/-- The state from which a warm reset of the given cause reads the configuration. -/
def warmlyBegun (cause : Nat) (f : BootFacts) (s : State) : State := { s with m := warmMach s.m cause f }

/-- R14, R326: a warm reset of the given cause: what it leaves and what it clears. -/
def WarmlyReset (cause : Nat) (s t : State) : Prop :=
  gf t.m F.GLB_STATUS_LAST_RESET [] = cause % 16 ∧ gf t.m F.GLB_STATUS_WARM_COUNT [] = (gf s.m F.GLB_STATUS_WARM_COUNT [] + 1) % 65536 ∧
    t.m.sof = {} ∧ t.m.home = {} ∧ t.m.eng = {} ∧ t.m.hdm = [] ∧ t.m.amd = {} ∧ t.m.resets = [] ∧
    t.time = s.time ∧ t.mram = s.mram ∧ t.nvm = s.nvm ∧ t.pending = s.pending

/-- All 64 bits of a register. -/
def allOnes : Word := BitVec.ofNat 64 (2 ^ 64 - 1)

/-- A write of the whole word `v` at `a` over `who` passes the gate, names register `r` at `ix`, and no rule discards or denies it. -/
abbrev Accepts (who : Iface) (a : Nat) (v : Word) (r : RegDef) (ix : List Nat) (s : State) : Prop :=
  a % 8 = 0 ∧ a < 0xF000000 ∧ regFind a = some (r, ix) ∧ (gate who a 8 true s).1 = none ∧ wordDenied who s.m a v = false ∧
    writeDiscarded s.m a r ix (writtenWord r (rd s.m r ix) v allOnes) allOnes = none ∧
    reservedHit s.m r ix v allOnes (writtenWord r (rd s.m r ix) v allOnes) = false

/-- The interface leads to the Postmaster, and no handover runs (R352, R358). -/
abbrev Served (who : Iface) (s : State) : Prop := reaches s who = true ∧ s.m.fw.handEnd = 0

/-- A served write that takes effect. -/
abbrev WriteTakes (who : Iface) (a : Nat) (v : Word) (r : RegDef) (ix : List Nat) (s : State) : Prop :=
  Served who s ∧ Accepts who a v r ix (noteServed s)

/-- The same for the command register of chapter 15. -/
abbrev AmdTakes (who : Iface) (cmd ticket : Nat) (s : State) : Prop :=
  WriteTakes who Reg.AMD_CMD.base (amdWord cmd ticket) Reg.AMD_CMD [] s

/-- The software set may take a command of phase `ph` from `who` (R341). -/
abbrev AmdReady (who : Iface) (ph : Nat) (s : State) : Prop :=
  amdPhase s.m = ph ∧ (ph = 0 ∨ gf s.m F.AMD_INFO_OWNER [] = ownerCode who)

/-- A write has been answered: the monitors judged, and a response of STATUS 0 sent. -/
def writeDone (who : Iface) (s : State) : State := { s with m := respond (wmAll s.time.now.toNat s.m) { whom := who, status := 0 } }

/-- MRAM outside the `n` bytes from `a` is the same. -/
def MramKeptOutside (a n : Nat) (s t : State) : Prop := ∀ i, (i < a ∨ a + n ≤ i) → mbyte t.mram i = mbyte s.mram i

/-- R362 to R365: the Brumin port serves a request of `mac`, in a session or not, whose SEQ it has not answered yet. -/
abbrev BrumServed (op : BrumOp) (mac : Nat) (sess : Bool) (seq : Nat) (s : State) : Prop :=
  bruminUp s op.rom = true ∧ (sess = true → s.m.sec.sessions.contains (.brumin mac false) = true) ∧ s.m.fw.handEnd = 0 ∧
    heldReply s.m mac seq = none ∧ lacksSession s op mac sess = false

/-- R364: response `r` is sent, and held for a duplicate of the request. -/
def BrumAnswers (mac : Nat) (sess : Bool) (seq : Nat) (r : Reply) (s t : State) : Prop :=
  t.m.replies = s.m.replies ++ [{ r with whom := .brumin mac sess, seq := seq }] ∧
    heldReply t.m mac seq = some { r with whom := .brumin mac sess, seq := seq }

/-- A Brumin request changes, beside the parts `ps` and the registers `rs`, the peers, the responses and what the monitors do. -/
def BrumFrame (ps : List Part) (rs : List (RegDef × List Nat)) (s t : State) : Prop :=
  Frame (ps ++ [.brumin, .replies, .fw, .logs]) (isReg (rs ++ watchRegs)) s t

/-- The state as a Brumin request of `mac` finds it. -/
def bruminSeen (mac : Nat) (s : State) : State := noteServed { s with m := heard s.m mac }

/-- R363: what an operation of the debug group needs: its address holds a token in force with PERMS bit `k`. -/
abbrev Permitted (mac k : Nat) (s : State) : Prop := permitted s mac k = true

/-- The interface carries the FM API and is served (R355, R358). -/
abbrev CciServed (who : Iface) (s : State) : Prop := fmApi who = true ∧ Served who s

/-- R219: the mailbox of FLD `f` is reached, and no handover runs. -/
abbrev FldServed (f : Nat) (s : State) : Prop := fldReached s f = true ∧ s.m.fw.handEnd = 0

/-- A mailbox command answers `who` with a return code, values and bytes. -/
def Answers (who : Iface) (ret : Ret) (vals : List Nat) (body : List Byte) (s t : State) : Prop :=
  t.m.replies = s.m.replies ++ [{ whom := who, ret := ret, vals := vals, body := body }]

/-- A served management command changes, beside the parts `ps` and the registers `rs`, the responses and what the monitors do. -/
def MgmtFrame (ps : List Part) (rs : List (RegDef × List Nat)) (s t : State) : Prop :=
  Frame (ps ++ [.replies, .fw, .logs]) (isReg (rs ++ watchRegs)) s t

/-- R349: a Postmaster set of these items and acts, to be cut over at `c`, passes its checks. -/
def Seals (items : List AmdItem) (acts : List CutAct) (c : Nat) (s : State) : Prop :=
  ∃ m, sealPost s.time.now.toNat s.m items acts c = .inr m

/-- R344, R349: the set waits, last of the sealed sets, for its cut-over. -/
def Sealed (items : List AmdItem) (acts : List CutAct) (c : Nat) (s t : State) : Prop :=
  t.m.amd = { s.m.amd with sets := s.m.amd.sets ++ [⟨(cutFor s.m s.time.now.toNat c).1, items, false, acts⟩] } ∧
    gf t.m F.AMD_INFO_SEALED [] = s.m.amd.sets.length + 1

/-- The registers that sealing a set changes. -/
def sealRegs : List (RegDef × List Nat) := [(Reg.AMD_INFO, []), (Reg.AMD_EVT, [])]

/-- R307, R315: port `p` is contained, with this cause and fence postmark. -/
def FencedAt (p cause : Nat) (f : Postmark) (t : State) : Prop :=
  fstate t.m p = 1 ∧ gf t.m F.RAS_FENCE_INFO_CAUSE [p] = cause ∧ fenceOf t.m p = f ∧ gf t.m F.STN_LINK_STATUS_CONTAINED (st p) = 1 ∧
    gf t.m F.STN_LINK_STATUS_READY (st p) = 0

/-- The parts of the state that traffic, links and their containment work on. -/
def trafficParts : List Part := [.shown, .free, .sof, .home, .eng, .hdm, .pmReqs, .sched, .ports, .courier, .logs, .pmu, .replies]

/-- Nothing but those parts, and registers, has changed: Fabric Time, MRAM, the fuses, the queue, tenancy, amendments, firmware, security and
power are the same. -/
def TrafficOnly (s t : State) : Prop := ∀ p : Part, p ∉ trafficParts → p.same s t

/-- A register of the block of counters and sampling (chapter 18). -/
def pmuReg (a : Nat) : Bool := decide (0xA000000 ≤ a) && decide (a < 0xB000000)

/-- A command that the counters and the monitors follow changes the parts `ps`, the registers `rs`, and what counters, logs and monitors
keep. -/
def CountFrame (ps : List Part) (rs : List (RegDef × List Nat)) (s t : State) : Prop :=
  Frame (ps ++ [.pmu, .logs]) (fun a => isReg (rs ++ watchRegs) a || pmuReg a) s t

/-- R278, R279: member port `p` has rejoined: no fence stands, and the port is ready. -/
def Rejoined (p : Nat) (t : State) : Prop :=
  fstate t.m p = 0 ∧ gf t.m F.STN_LINK_STATUS_CONTAINED (st p) = 0 ∧ gf t.m F.STN_LINK_STATUS_READY (st p) = 1 ∧
    gf t.m F.STN_LINK_STATUS_JOIN_FAIL (st p) = 0 ∧ gf t.m F.STN_PORT_CTL_REJOIN (st p) = 0 ∧ tget [] t.m.sof.recs p = []

/-- A host or member port exists. -/
abbrev HostOrMember (m : Mach) (p : Nat) : Prop := portExists m p = true ∧ (role m p = 1 ∨ role m p = 2)

/-- A command that the watermark monitors follow changes the parts `ps`, the registers `rs` and what the monitors and logs keep. -/
def WatchFrame (ps : List Part) (rs : List (RegDef × List Nat)) (s t : State) : Prop :=
  Frame (ps ++ [.logs]) (isReg (rs ++ watchRegs)) s t

/-- R283: Courier port `p` may train: its domain is on, its partner present, and nothing holds it. -/
abbrev CourierMayTrain (m : Mach) (p : Nat) : Prop :=
  portExists m p = true ∧ role m p = 3 ∧ gf m F.STN_LINK_STATUS_DL_UP (st p) = 0 ∧ configured m = true ∧ stationOn m p = true ∧
    gf m F.STN_LINK_STATUS_PRSNT (st p) = 1 ∧ m.sec.extest = false

/-- R284: Courier port `p` stands trained, its last admission failed 1 s ago or more, and no session is held. -/
abbrev AdmissionDue (s : State) (p : Nat) : Prop :=
  portExists s.m p = true ∧ role s.m p = 3 ∧ gf s.m F.STN_LINK_STATUS_DL_UP (st p) = 1 ∧ (crlOf s.m p).authed = false ∧
    gf s.m F.STN_CRL_STATUS_ADMIT_FAIL (st p) ≠ 0 ∧ (crlOf s.m p).admitAt + 4000000000 ≤ s.time.now.toNat ∧
    gf s.m F.STN_CRL_STATUS_CSTATE (st p) ≠ 4

/-- R303, R305: Courier port `p`, whose peer is admitted, hears from the lower-postcode end. -/
abbrev HearsLower (m : Mach) (p : Nat) (f : SessionFlit) : Prop := takesSession m p = true ∧ f.postcode < ownPostcode m

/-- R302: the session with this ID is open on Courier port `p`; the port is ready once start-up is done. -/
def SessionIs (p id : Nat) (t : State) : Prop :=
  gf t.m F.STN_CRL_STATUS_CSTATE (st p) = 3 ∧ gf t.m F.STN_CRL_STATUS_SESSION (st p) = id ∧
    gf t.m F.STN_LINK_STATUS_READY (st p) = b2n (started t.m)

/-- The last SESSION flit that port `p` has sent has this OP and ID. -/
def LastSent (p op id : Nat) (t : State) : Prop := ((crlOf t.m p).sent.getLast?).map (fun f => (f.op, f.id)) = some (op, id)

/-- The registers in which a Courier port shows its session and its peer. -/
def sessionRegs (p : Nat) : List (RegDef × List Nat) :=
  [(Reg.STN_LINK_STATUS, st p), (Reg.STN_CRL_STATUS, st p), (Reg.STN_CRL_PEER, st p), (Reg.STN_CRL_TIME, st p)]

/-- A Courier port in session receives flits. -/
abbrev InSession (m : Mach) (p : Nat) : Prop :=
  portExists m p = true ∧ role m p = 3 ∧ gf m F.STN_LINK_STATUS_DL_UP (st p) = 1 ∧ gf m F.STN_CRL_STATUS_CSTATE (st p) = 3

/-- R298: transit `i` is the whole TIME message `x` that ends the open exchange of the follower's port. -/
abbrev EndsExchange (m : Mach) (i : Nat) (x : Transit) : Prop :=
  m.sof.transit[i]? = some x ∧ x.tgt = .postmaster ∧ x.msg.h.kind = .time ∧ x.msg.n ≤ x.got.length ∧
    (crlOf m x.msg.att).exOpen = true ∧ (crlOf m x.msg.att).exT4 ≠ 0 ∧ (crlOf m x.msg.att).exN = x.msg.h.aop ∧
    gf m F.STN_CRL_CFG_TIME_DIR (st x.msg.att) = 1

/-- R298: the offset that the exchange gives. -/
def exchangeOffset (m : Mach) (x : Transit) : Int :=
  offsetOf (crlOf m x.msg.att).exT1 x.msg.h.operand x.msg.h.compare (crlOf m x.msg.att).exT4 (signed16 (gf m F.STN_CRL_CFG_ASYM (st x.msg.att)))

/-- R40: what the slip of message `x` of source `src` makes of a scheduled message: `x` takes the present tick, and the source's later TICKs
move by the same amount. -/
def slippedSched (now src : Nat) (x y : Sched) : Sched :=
  let z : Sched := if y.source = src ∧ tickBefore x.tick y.tick = true then
      { y with tick := tickAdd y.tick ((tick48 now + 2 ^ 48 - x.tick) % 2 ^ 48), due := y.due + (tick48 now + 2 ^ 48 - x.tick) % 2 ^ 48 }
    else y
  if z = x then { z with tick := tick48 now, due := now } else z

/-- A queued message, poisoned. -/
def poisoned (e : QEntry) : QEntry := { e with msg := { e.msg with h := { e.msg.h with poison := true } } }

/-- R125, R257: the message that port `p` begins next: the next one of the class that the selection gives, once every class has chosen. -/
def chosenEntry (now p : Nat) (held : List Nat) (m : Mach) : Option QEntry :=
  let m := (List.range 8).foldl (chooseNext now p) m
  let el := (eligible now m p).filter (fun c => role m p == 3 || !held.contains c)
  let n7 := match (egOf m p).next.find? (fun x => x.1 == 7) with | some (_, e, _) => e.msg.n | none => 1
  (selectClass m p el n7 (noteEligible el (egOf m p))).1.bind (fun c =>
    ((egOf m p).next.find? (fun x => x.1 == c)).map (fun x => x.2.1))

/-- The command that confirms an item of a kind at slice `k`, with what the slice finds in HBM. -/
inductive ConfirmsBy (k : Nat) : HbmErr → ConfirmKind → Instr → Prop where
  | memRd (e : HbmErr) : ConfirmsBy k e .memRd (.confirmMemRd k e)
  | memInv (e : HbmErr) : ConfirmsBy k e .memInv (.confirmMemInv k e)
  | memSpecRd : ConfirmsBy k {} .memSpecRd (.confirmMemSpecRd k)
  | memClnEvct (e : HbmErr) : ConfirmsBy k e .memClnEvct (.confirmMemClnEvct k e)
  | biConflict : ConfirmsBy k {} .biConflict (.confirmBiConflict k)
  | writeback (e : HbmErr) : ConfirmsBy k e .writeback (.confirmWriteback k e)
  | ncWrite (e : HbmErr) : ConfirmsBy k e .ncWrite (.confirmNoncachingWrite k e)
  | ncRead (e : HbmErr) : ConfirmsBy k e .ncRead (.confirmNoncachingRead k e)
  | farAtomic (e : HbmErr) : ConfirmsBy k e .farAtomic (.confirmFarAtomic k e)
  | ioPool (e : HbmErr) : ConfirmsBy k e .ioPool (.confirmCxlIoPool k e)
  | mirrorWrite (e : HbmErr) : ConfirmsBy k e .mirrorWrite (.confirmMirrorWrite ⟨k, e⟩)

/-- R48: item `i`, of kind `c`, is the next that serving slice `k` confirms. -/
abbrev Confirms (k : Nat) (c : ConfirmKind) (i : Item) (s : State) : Prop :=
  k < 64 ∧ serving s.m k = true ∧ nextItem s.m k = some i ∧ confirmKind s.m k i = c ∧ inCensus s.m k i.line = false

/-- Parcel slot `k` of FLD `f`. -/
def slotAt (m : Mach) (f k : Nat) : PSlot := tget {} m.eng.slots (16 * f + k)

/-- R196, R204: a doorbell on slot `k` of FLD `f` has been counted with this cause. -/
def Counted (cause f k : Nat) (t : State) : Prop :=
  gf t.m F.PCL_DB_ERR_DB_ERR [] = 1 ∧ gf t.m F.PCL_DB_ERR_LAST_CAUSE [] = cause ∧ gf t.m F.PCL_DB_ERR_LAST_FLD [] = f % 4096 ∧
    gf t.m F.PCL_DB_ERR_LAST_SLOT [] = k % 16

/-- The memory of a state, its MRAM, is in canonical form. -/
abbrev State.MemOk (s : State) : Prop := Memory.wf s.mram = true

/-- The command ends in a next state, or in a fault, of which the spec gives no effect: a non-zero reserved field (R7, R446). -/
def EndsWell (o : Host.Outcome State Fault Refusal) : Prop :=
  match o with
  | .next _ => True
  | .fault _ => True
  | .refused _ => False

end Sys2Proof.Machine
end

