-- ==== Sys2Proof/Certificates/Slice0/Obligations.lean ====
section
/-!
DEFINITION. The statements about the model: each is a Prop that formalises rules of the spec, or says what the model is
built to keep.
-/

open Sys2Proof Sys2Proof.Machine

/-! ### The queue, the memory, and the whole machine -/

/-- A step takes the command at the front of the queue and is exec of it on the state with the queue's rest; on an empty queue
the block idles (the model's choice, log entry 2). -/
def Obligations.StepRunsTheFrontCommand : Prop :=
  (∀ (s : State) (c : Instr) (rest : List Instr), s.pending = c :: rest → step s = exec c { s with pending := rest }) ∧
  (∀ s : State, s.pending = [] → step s = .next s)

/-- No command is turned away: each ends in a next state or in one of the model's faults. BW_WIN_CHANGE with a reserved WIN and
TRACKING_RESEED with a reserved field or encoding end in the fault of a reserved write. What rests on the model's own choices: log
entries 8 and 9. -/
def Obligations.EveryCommandEndsWell : Prop :=
  (∀ (c : Instr) (s : State), EndsWell (exec c s)) ∧
  (∀ (win : Nat) (s : State), 1000000 < win → exec (.bwWinChange win) s = .fault (.reservedWrite (regAddr Reg.PMU_BW_CFG []))) ∧
  (∀ (w : Word) (s : State), trkReserved s.m w = true →
    exec (.trackingReseed w) s = .fault (.reservedWrite (regAddr Reg.PMU_TRK_CFG [])))

/-- The queue of waiting commands belongs to the sender: no command adds to it or takes from it. -/
def Obligations.CommandsLeaveTheQueueAlone : Prop := ∀ (c : Instr) (s t : State), exec c s = .next t → t.pending = s.pending

/-- Every step keeps MRAM in canonical form (R327). -/
def Obligations.EveryStepKeepsMemoryCanonical : Prop := ∀ s t : State, s.MemOk → step s = .next t → t.MemOk

/-- The state right after reset has its memory in canonical form, with nothing listed, and no command waiting. -/
def Obligations.ResetIsCanonical : Prop := State.reset.MemOk ∧ State.reset.pending = [] ∧ State.reset.mram = []

/-- R356, R29: once Fabric Time is locked, a step moves it by one tick or not at all, unless power has been lost or has returned. Get
Timestamp returns MBX_TS_OFFSET with a quarter of Fabric Time, and Set Timestamp makes it return the value set at that moment;
neither loads or slews Fabric Time. -/
def Obligations.LockedTimeMovesByTicks : Prop :=
  (∀ (s t : State) (c : Instr) (rest : List Instr), s.pending = c :: rest → s.time.locked = true → step s = .next t →
    (t.time.now = s.time.now ∧ t.time.locked = true) ∨ (c = .fabricTimeTick ∧ t.time.now = s.time.now + 1 ∧ t.time.locked = true) ∨
      c = .aonLoss ∨ ∃ vin en f, c = .vinRise vin en f) ∧
  (∀ (who : Iface) (s : State), CciServed who s →
    ∃ t, exec (.getTimestamp who) s = .next t ∧
      Answers who .success [(rd s.m Reg.MBX_TS_OFFSET [] + BitVec.ofNat 64 (s.time.now.toNat / 4)).toNat] [] s t ∧ t.time = s.time ∧
      MgmtFrame [] [] s t) ∧
  (∀ (who : Iface) (v : Word) (s : State), CciServed who s →
    ∃ t, exec (.setTimestamp who v) s = .next t ∧
      rd t.m Reg.MBX_TS_OFFSET [] + BitVec.ofNat 64 (t.time.now.toNat / 4) = v ∧ t.time = s.time ∧ Answers who .success [] [] s t ∧
      MgmtFrame [] [(Reg.MBX_TS_OFFSET, [])] s t)

/-- R384, R381, R449, R457: fuses and MIN_SVN move one way. No command changes the identity fuses or lowers MIN_SVN, and none but the
commit of a bundle changes it, a cold reset not excepted; that commit raises it to the bundle's SVN_FLOOR where that is higher. The
life cycle moves to RMA alone, and owner keys once programmed are cleared with that move alone. -/
def Obligations.FusesMoveOneWay : Prop :=
  (∀ (s t : State) (c : Instr), exec c s = .next t →
    t.nvm.vendor = s.nvm.vendor ∧ t.nvm.serial = s.nvm.serial ∧ t.nvm.step = s.nvm.step ∧ t.nvm.mac = s.nvm.mac ∧
    s.nvm.minSvn ≤ t.nvm.minSvn ∧ (c ≠ .fwHealthy true → t.nvm.minSvn = s.nvm.minSvn) ∧
    (t.nvm.lifecycle = s.nvm.lifecycle ∨ t.nvm.lifecycle = 3) ∧
    (s.nvm.ownerKey ≠ [] → t.nvm.ownerKey = s.nvm.ownerKey ∨ (t.nvm.ownerKey = [] ∧ t.nvm.lifecycle = 3))) ∧
  (∀ s : State, s.m.fw.act = 4 → s.m.fw.handEnd = 0 → trialFit s.m = true → s.m.fw.actSlot < 2 →
    ∃ t, exec (.fwHealthy true) s = .next t ∧ (fwRecord t.mram s.m.fw.actSlot).1 = 3 ∧
      t.nvm = { s.nvm with minSvn := max s.nvm.minSvn (fwFloor (fwHeader s.mram s.m.fw.actSlot)) })

/-! ### Fabric Time and power (chapters 02, 14, 19) -/

/-- R29, R30, R31: a tick moves Fabric Time, and the resonator's count, by one; what slewing has still to remove is one
ten-thousandth nearer zero, and PPS_OUT rises where the new time is a multiple of 4,000,000,000. Where no handover ends, MRAM, the
fuses and the queue stay. An edge of PPS_IN at least 0.5 s after the last is taken, and with PPS_EN the offset to the nearest
multiple becomes the offset to slew; an earlier edge changes nothing. What rests on the model's own choices: log entries 99 and 143. -/
def Obligations.FabricTimeRunsByTicks : Prop :=
  (∀ s : State, s.m.inl.on = true → (s.m.fw.handEnd = 0 ∨ (s.time.now + 1).toNat + 1 < s.m.fw.handEnd) →
    ∃ t, exec .fabricTimeTick s = .next t ∧ t.time.now = s.time.now + 1 ∧ t.time.up = s.time.up + 1 ∧
      t.time.slew = slewStep s.time.slew ∧ t.time.ppsIn = s.time.ppsIn ∧
      t.time.ppsOut = s.time.ppsOut + (if ppsRises s (s.time.now + 1) then 1 else 0) ∧ (s.time.locked = true → t.time.locked = true) ∧
      t.mram = s.mram ∧ t.nvm = s.nvm ∧ t.pending = s.pending) ∧
  (∀ s : State, s.m.inl.on = true → (s.time.ppsIn = 0 ∨ s.time.ppsIn + 2000000000 ≤ s.time.up + 1) →
    ∃ t, exec .ppsInEdge s = .next t ∧ t.time.ppsIn = s.time.up + 1 ∧
      t.time.slew = (if gf s.m F.FTM_CTL_PPS_EN = 1 then ppsOffset s.time.now.toNat else s.time.slew) ∧
      t = { s with time := { s.time with ppsIn := t.time.ppsIn, slew := t.time.slew } }) ∧
  (∀ s : State, s.time.ppsIn ≠ 0 → s.time.up + 1 < s.time.ppsIn + 2000000000 → exec .ppsInEdge s = .next s)

/-- R411, R14, R29: losing the always-on domain leaves MRAM, fuses and the queue, and nothing else of the machine: VIN_RISE above 38 V is
then a cold reset, after which Fabric Time is 0 and unlocked, no message, session, parcel or sealed set is left, every register from
0x0020_0000 to 0x0AFF_FFFF reads its reset value, the guard is off with EN's level, and BOOT is one higher. While the domain is up
VIN_RISE changes nothing. What rests on the model's own choices: log entries 4, 87 and 157. -/
def Obligations.PowerComesAndGoes : Prop :=
  (∀ s : State, ∃ t, exec .aonLoss s = .next t ∧ t.m = { free := s.m.free } ∧ t.m.inl.on = false ∧ t.time = {} ∧ t.time.now = 0 ∧
      t.time.locked = false ∧ t.mram = s.mram ∧ t.nvm = s.nvm ∧ t.pending = s.pending) ∧
  (∀ (vin : Nat) (en : Bool) (f : BootFacts) (s : State), s.m.inl.on = false → 380 < vin →
    ∃ t, exec (.vinRise vin en f) s = .next t ∧ t.m.inl.on = true ∧ t.m.inl.en = en ∧ t.m.inl.gate = 0 ∧ t.m.inl.latched = false ∧
      t.time.now = 0 ∧ t.time.locked = false ∧ t.m.sof = {} ∧ t.m.home = {} ∧ t.m.eng = {} ∧ t.m.courier = [] ∧ t.m.amd = {} ∧
      (∀ (r : RegDef) (ix : List Nat), 0x200000 ≤ regAddr r ix → regAddr r ix < 0xB000000 → rd t.m r ix = BitVec.ofNat 64 r.rst) ∧
      t.nvm.boot = (s.nvm.boot + 1) % 65536 ∧ gf t.m F.INL_MEAS_VIN [] = vin % 65536 ∧
      gf t.m F.INL_STATUS_STATE [] = (if en then 1 else 0) ∧ t.pending = s.pending) ∧
  (∀ (vin : Nat) (en : Bool) (f : BootFacts) (s : State), s.m.inl.on = true → exec (.vinRise vin en f) s = .next s)

/-- R420, R468, R335, R337, R324: once VOUT has stood with the limit inactive for 1 ms PWRGD is set. In ROM recovery nothing further
starts. Otherwise the configuration is read: where a slot passes every test the device goes on to step 7, and reaches step 8 within 0.6 s
of the start; where both configuration slots fail the tests of their headers it enters safe mode at step 5. After the main path was
down the same happens as a warm reset of cause 5. What rests on the model's own
choices: log entries 67, 87, 92 and 94. -/
def Obligations.PowerGoodStartsTheDevice : Prop :=
  (∀ (f : BootFacts) (s : State), PowerIsGood s → s.m.fw.recovery = true →
    ∃ t, exec (.pwrgdAssert f) s = .next t ∧ gf t.m F.INL_STATUS_PWRGD [] = 1 ∧
      Frame [.logs] (isReg ([(Reg.INL_STATUS, [])] ++ watchRegs)) s t) ∧
  (∀ (f : BootFacts) (s : State), PowerIsGood s → s.m.fw.recovery = false → s.m.inl.lost = false → SlotsFail s →
    ∃ t, exec (.pwrgdAssert f) s = .next t ∧ gf t.m F.INL_STATUS_PWRGD [] = 1 ∧ SafeModeEntered f s t ∧ t.m.resets = [] ∧
      t.time = s.time ∧ t.mram = s.mram ∧ t.nvm = s.nvm ∧ t.pending = s.pending) ∧
  (∀ (f : BootFacts) (s : State), PowerIsGood s → s.m.fw.recovery = false → s.m.inl.lost = false → (chooseSlot s f).1.isSome = true →
    ∃ t, exec (.pwrgdAssert f) s = .next t ∧ ConfigRead f (2400000000 - s.time.up) s t) ∧
  (∀ (f : BootFacts) (s : State), PowerIsGood s → s.m.fw.recovery = false → s.m.inl.lost = true → SlotsFail s → NoTrial s →
    ∃ t, exec (.pwrgdAssert f) s = .next t ∧ SafeModeEntered f s t ∧ WarmlyReset (resetCause ((5, s.time.now.toNat) :: s.m.resets)) s t)

/-- R14, R326, R440, R468, R481: RST_N asks for a warm reset, once until it takes place. A warm reset that is due, and the automatic one,
take place from the main path, and leave MRAM, the fuses, the queue and Fabric Time. Where a configuration slot passes every test
the device goes on to step 7, with 0.45 s to step 8. Where both slots fail, safe mode is entered, and in ROM recovery STEP stays 4:
there LAST_RESET names the cause, WARM_COUNT is one higher, and nothing of the sorting office, the home slices, the engines, the HDM
decoders or the sealed sets is left. What rests on the model's own choices: log entries 84, 85 and
86. -/
def Obligations.WarmResetsLeaveTheAlwaysOnDomain : Prop :=
  (∀ s : State, s.m.inl.on = true → s.m.resets.any (fun r => r.1 == 2) = false →
    ∃ t, exec .rstNAssert s = .next t ∧ t.m.resets = s.m.resets ++ [(2, s.time.now.toNat)] ∧ Frame [.resets] (fun _ => false) s t) ∧
  (∀ (f : BootFacts) (s : State), resetDue s (· != 4) = true → NoTrial s → s.m.fw.recovery = true →
    ∃ t, exec (.warmReset f) s = .next t ∧ WarmlyReset (resetCause s.m.resets) s t ∧ gf t.m F.GLB_STATUS_STEP [] = 4) ∧
  (∀ (f : BootFacts) (s : State), resetDue s (· != 4) = true → NoTrial s → s.m.fw.recovery = false → SlotsFail s →
    ∃ t, exec (.warmReset f) s = .next t ∧ WarmlyReset (resetCause s.m.resets) s t ∧ SafeModeEntered f s t) ∧
  (∀ (f : BootFacts) (s : State), resetDue s (· != 4) = true → NoTrial s → s.m.fw.recovery = false →
      (chooseSlot (warmlyBegun (resetCause s.m.resets) f s) f).1.isSome = true →
    ∃ t, exec (.warmReset f) s = .next t ∧ ConfigRead f 1800000000 s t) ∧
  (∀ (f : BootFacts) (s : State), resetDue s (· == 4) = true → NoTrial s → s.m.fw.recovery = true →
    ∃ t, exec (.autoReset f) s = .next t ∧ WarmlyReset (resetCause s.m.resets) s t ∧ gf t.m F.GLB_STATUS_STEP [] = 4) ∧
  (∀ (f : BootFacts) (s : State), resetDue s (· == 4) = true → NoTrial s → s.m.fw.recovery = false → SlotsFail s →
    ∃ t, exec (.autoReset f) s = .next t ∧ WarmlyReset (resetCause s.m.resets) s t ∧ SafeModeEntered f s t) ∧
  (∀ (f : BootFacts) (s : State), resetDue s (· == 4) = true → NoTrial s → s.m.fw.recovery = false →
      (chooseSlot (warmlyBegun (resetCause s.m.resets) f s) f).1.isSome = true →
    ∃ t, exec (.autoReset f) s = .next t ∧ ConfigRead f 1800000000 s t)

/-! ### Chapter 19: the inlet guard -/

/-- R409, R413: while the guard waits (STATE 1) a pre-charge begins once H is at most 4.4 J, and STATE reads 2; when VOUT reaches 92
% of VIN within 100 ms the ramp begins (STATE 3), H having risen by the larger of 2.2 J and the energy; when the gate is fully on
STATE reads 4. Nothing but the guard and STATE changes. What rests on the model's own choices: log entry 10. -/
def Obligations.InletStartsTheMainPath : Prop :=
  (∀ s : State, s.m.inl.on = true → guardState s.m.inl = 1 → heatNow s.m.inl s.time.up ≤ heatLimit →
    ∃ t, exec .prechargeStart s = .next t ∧ gf t.m F.INL_STATUS_STATE [] = 2 ∧
      t.m.inl = { s.m.inl with gate := 1, since := s.time.up, step2 := s.time.up, heat := heatNow s.m.inl s.time.up, heatAt := s.time.up } ∧
      Frame [.inl] (isReg [(Reg.INL_STATUS, [])]) s t) ∧
  (∀ (e : Nat) (s : State), guardState s.m.inl = 2 → s.time.up ≤ s.m.inl.since + 400000000 →
    ∃ t, exec (.prechargeComplete e) s = .next t ∧ gf t.m F.INL_STATUS_STATE [] = 3 ∧
      t.m.inl = { s.m.inl with gate := 2, since := s.time.up, heat := s.m.inl.heat + max 220 e * 8000000000, heatAt := s.time.up } ∧
      Frame [.inl] (isReg [(Reg.INL_STATUS, [])]) s t) ∧
  (∀ s : State, guardState s.m.inl = 3 →
    ∃ t, exec .gateRampDone s = .next t ∧ gf t.m F.INL_STATUS_STATE [] = 4 ∧
      t.m.inl = { s.m.inl with gate := 3, since := s.time.up } ∧ Frame [.inl] (isReg [(Reg.INL_STATUS, [])]) s t)

/-- R414 to R418, R427: each cause trips the guard: 100 ms of pre-charge (5), the fault timer (1), an input current above
2 × I_LIM (2), 150 °C from a valid FET sensor (3), 140 °C of the model with the sensor invalid (4), and a junction at
110 °C (6, with THERM_TRIP_N pulled low). It latches off with its bit in CAUSES, and THERM_TRIP_N is released when the latch
clears, by EN or by REARM. -/
def Obligations.InletTripsLatchTheGuard : Prop :=
  (∀ (e : Nat) (s : State), s.m.inl.on = true → guardState s.m.inl = 2 → s.m.inl.since + 400000000 ≤ s.time.up →
    ∃ t, exec (.prechargeTimeout e) s = .next t ∧ GuardTripped 4 t) ∧
  (∀ s : State, s.m.inl.on = true → s.m.inl.latched = false → gf s.m F.INL_STATUS_LIMIT [] = 1 →
      timerLimit s.m ≤ timerNow s.m s.time.up →
    ∃ t, exec .faultTimerTrip s = .next t ∧ GuardTripped 0 t) ∧
  (∀ (iin : Nat) (s : State), s.m.inl.on = true → s.m.inl.latched = false → 2 ≤ s.m.inl.gate → 2 * iLim s.m < iin →
    ∃ t, exec (.fastTrip iin) s = .next t ∧ GuardTripped 1 t) ∧
  (∀ (x model : Int) (e : Nat) (s : State), s.m.inl.on = true → s.m.inl.latched = false → 99 ≤ s.m.inl.good → 1500 ≤ x → x ≤ 2000 →
    ∃ t, exec (.fetSensorRead x true model e) s = .next t ∧ GuardTripped 2 t) ∧
  (∀ (x model : Int) (ok : Bool) (e : Nat) (s : State), s.m.inl.on = true → s.m.inl.latched = false →
      (ok = false ∨ x < -550 ∨ 2000 < x) → 1400 ≤ model →
    ∃ t, exec (.fetSensorRead x ok model e) s = .next t ∧ GuardTripped 3 t) ∧
  (∀ (tj : Int) (e : Nat) (s : State), s.m.inl.on = true → s.m.inl.latched = false → 1100 ≤ tj →
    ∃ t, exec (.junctionRead tj e) s = .next t ∧ GuardTripped 5 t ∧ t.m.inl.thermN = true) ∧
  (∀ s : State, s.m.inl.on = true → s.m.inl.en = false → s.m.inl.latched = true →
      max s.m.inl.enFell s.m.inl.tripAt + 40000000 ≤ s.time.up → s.m.inl.lockout = 0 →
    ∃ t, exec .enRise s = .next t ∧ t.m.inl.latched = false ∧ t.m.inl.thermN = false) ∧
  (∀ (who : Iface) (s : State), WriteTakes who Reg.INL_CTL.base (setBits (rd s.m Reg.INL_CTL []) 16 16 1) Reg.INL_CTL [] s →
      s.m.inl.latched = true →
    ∃ t, exec (.rearm who) s = .next t ∧ t.m.inl.latched = false ∧ t.m.inl.thermN = false)

/-- R410, R412: below 36 V and above 62 V the lockouts turn the gate off (STATE 6 and 7) and count in INL_EVT, and after 10 ms
between 38 V and 60.5 V the guard waits again; EN low turns the gate off (STATE 0), writes nothing to FAULT_N, and EN high lets the
guard wait again. What rests on the model's own choices: log entries 67 and 88. -/
def Obligations.InletLockoutsAndEn : Prop :=
  (∀ (vin e : Nat) (s : State), s.m.inl.on = true → s.m.inl.en = true → s.m.inl.latched = false → s.m.inl.lockout ≠ 1 → vin < 360 →
    ∃ t, exec (.uvlo vin e) s = .next t ∧ gf t.m F.INL_STATUS_STATE [] = 6 ∧ gf t.m F.INL_STATUS_PWRGD [] = 0 ∧ t.m.inl.gate = 0 ∧
      t.m.inl.lockout = 1 ∧ gf t.m F.INL_EVT_LOCKOUT [] = 1 ∧ t.m.inl.faultN = s.m.inl.faultN) ∧
  (∀ (vin e : Nat) (s : State), s.m.inl.on = true → s.m.inl.en = true → s.m.inl.latched = false → s.m.inl.lockout ≠ 2 → 620 < vin →
    ∃ t, exec (.ovlo vin e) s = .next t ∧ gf t.m F.INL_STATUS_STATE [] = 7 ∧ gf t.m F.INL_STATUS_PWRGD [] = 0 ∧ t.m.inl.gate = 0 ∧
      t.m.inl.lockout = 2 ∧ gf t.m F.INL_EVT_LOCKOUT [] = 1 ∧ t.m.inl.faultN = s.m.inl.faultN) ∧
  (∀ (vin : Nat) (s : State), s.m.inl.en = true → s.m.inl.latched = false → s.m.inl.gate = 0 → s.m.inl.lockout ≠ 0 → 380 < vin →
      vin < 605 → s.m.inl.lockAt + 40000000 ≤ s.time.up →
    ∃ t, exec (.lockoutEnd vin) s = .next t ∧ gf t.m F.INL_STATUS_STATE [] = 1 ∧ t.m.inl = { s.m.inl with lockout := 0 } ∧
      Frame [.inl, .logs] (isReg ([(Reg.INL_STATUS, []), (Reg.INL_MEAS, [])] ++ watchRegs)) s t) ∧
  (∀ (e : Nat) (s : State), s.m.inl.on = true → s.m.inl.en = true → s.m.inl.latched = false →
    ∃ t, exec (.enFall e) s = .next t ∧ gf t.m F.INL_STATUS_STATE [] = 0 ∧ gf t.m F.INL_STATUS_PWRGD [] = 0 ∧ t.m.inl.gate = 0 ∧
      t.m.inl.en = false ∧ t.m.inl.enFell = s.time.up ∧ t.m.inl.faultN = s.m.inl.faultN) ∧
  (∀ s : State, s.m.inl.on = true → s.m.inl.en = false → s.m.inl.latched = false → s.m.inl.lockout = 0 → s.m.inl.gate = 0 →
    ∃ t, exec .enRise s = .next t ∧ gf t.m F.INL_STATUS_STATE [] = 1 ∧ t.m.inl = { s.m.inl with en := true } ∧
      Frame [.inl, .logs] (isReg ([(Reg.INL_STATUS, [])] ++ watchRegs)) s t) ∧
  (∀ s : State, s.m.inl.on = true → s.m.inl.en = false → s.m.inl.latched = true →
      max s.m.inl.enFell s.m.inl.tripAt + 40000000 ≤ s.time.up → s.m.inl.lockout = 0 →
    ∃ t, exec .enRise s = .next t ∧ gf t.m F.INL_STATUS_STATE [] = 1 ∧ t.m.inl.latched = false ∧ t.m.inl.faultN = false ∧
      t.m.inl.thermN = false)

/-- R415, R417, R426: the current limit sets LIMIT and brings the fault timer up to date, its end clears LIMIT; a reading of the FET
sensor is shown, with SENSOR_VALID only after 100 good ones; a junction at 100 °C starts throttling. What rests on the model's own
choices: log entry 126. -/
def Obligations.InletReadingsAndLimit : Prop :=
  (∀ s : State, (guardState s.m.inl = 3 ∨ guardState s.m.inl = 4) → gf s.m F.INL_STATUS_LIMIT [] = 0 →
    ∃ t, exec .currentLimitEngage s = .next t ∧ gf t.m F.INL_STATUS_LIMIT [] = 1 ∧
      t.m.inl = { s.m.inl with timer := s.m.inl.timer - (s.time.up - s.m.inl.timerAt), timerAt := s.time.up } ∧
      Frame [.inl] (isReg [(Reg.INL_STATUS, [])]) s t) ∧
  (∀ s : State, gf s.m F.INL_STATUS_LIMIT [] = 1 →
    ∃ t, exec .currentLimitRelease s = .next t ∧ gf t.m F.INL_STATUS_LIMIT [] = 0 ∧
      t.m.inl = { s.m.inl with
        timer := s.m.inl.timer + 8 * (s.time.up - s.m.inl.timerAt), timerAt := s.time.up, since := s.time.up } ∧
      Frame [.inl] (isReg [(Reg.INL_STATUS, [])]) s t) ∧
  (∀ (x model : Int) (e : Nat) (s : State), s.m.inl.on = true → -550 ≤ x → x < 1500 → model < 1400 →
    ∃ t, exec (.fetSensorRead x true model e) s = .next t ∧ gf t.m F.INL_TEMP_FET_SENSOR [] = signedField x ∧
      gf t.m F.INL_STATUS_SENSOR_VALID [] = (if 99 ≤ s.m.inl.good then 1 else 0) ∧
      t.m.inl = { s.m.inl with good := min 100 (s.m.inl.good + 1) } ∧
      Frame [.inl] (isReg [(Reg.INL_STATUS, []), (Reg.INL_TEMP, [])]) s t) ∧
  (∀ (tj : Int) (e : Nat) (s : State), s.m.inl.on = true → 1000 ≤ tj → tj < 1100 → gf s.m F.INL_THERM_THROTTLE [] = 0 →
    ∃ t, exec (.junctionRead tj e) s = .next t ∧ gf t.m F.INL_THERM_THROTTLE [] = 1 ∧ gf t.m F.INL_THERM_THROTTLE_EVT [] = 1 ∧
      Frame [.logs] (isReg ([(Reg.INL_THERM, [])] ++ watchRegs)) s t)

/-! ### Chapters 01, 16: management accesses -/

/-- R11, R353, R369: a whole-register write that passes the gate, and that no rule discards or denies, commits at its tick: the word
takes the written value in its writable bits, an acknowledged flag clears where its count is the one written back, what follows from
the change happens, the monitors are judged, and STATUS 0 is answered. What rests on the model's own choices: log entries 105 and
107. -/
def Obligations.RegisterWriteCommits : Prop :=
  (∀ (who : Iface) (a : Nat) (v : Word) (r : RegDef) (ix : List Nat) (s : State), WriteTakes who a v r ix s →
    exec (.mgmtRegisterWrite who a v) s = .next (writeDone who (commitWord who r ix v allOnes (noteServed s))) ∧
    exec (.ackFlagWrite who a v) s = .next (writeDone who (commitWord who r ix v allOnes (noteServed s)))) ∧
  (∀ (r : RegDef) (old v : Word) (k : Nat), r.acks = [k] → 16 ≤ k → k < 64 → (BitVec.ofNat 64 r.rw).getLsbD k = false → v.getLsbD k = true →
    (writtenWord r old v allOnes).getLsbD k =
      (old.getLsbD k && !(getBits v (k - 1) (k - 16) == getBits ((old &&& ~~~BitVec.ofNat 64 r.rw) ||| (v &&& BitVec.ofNat 64 r.rw)) (k - 1) (k - 16)))) ∧
  (∀ (r : RegDef) (old v : Word) (i : Nat), r.acks = [] → i < 64 →
    (writtenWord r old v allOnes).getLsbD i = if (BitVec.ofNat 64 r.rw).getLsbD i then v.getLsbD i else old.getLsbD i)

/-- R9, R243, R354: a write that the guard denies is answered STATUS 1 and has no effect but its fault record, the DENIED event and
the discard count; one framed against R9 is answered STATUS 2 and changes nothing else; one over an interface that is off does
nothing. What rests on the model's own choices: log entries 105 and 106. -/
def Obligations.DeniedAccessHasNoEffect : Prop :=
  (∀ (who : Iface) (a : Nat) (v : Word) (s : State), Served who s → a % 8 = 0 → a < 2 ^ 32 → lockedRegion s.m a = false →
      (∃ cause rule, guardCheck (cfgAt s.m ⟨tick48 s.time.now.toNat, 144, 0⟩) 1 a 2 (groupOf s who) ⟨false, true⟩ = .deny cause rule) →
    ∃ t, exec (.mgmtRegisterWrite who a v) s = .next t ∧ t.m.replies = s.m.replies ++ [{ whom := who, status := 1 }] ∧
      Frame [.replies, .fw, .logs] (isReg ([(Reg.GRD_FAULT, []), (Reg.MBX_STATUS, []), (Reg.RAS_MGMT_ERR, [])] ++ watchRegs)) s t) ∧
  (∀ (who : Iface) (a : Nat) (v : Word) (s : State), Served who s → framed a 8 = false →
    ∃ t, exec (.mgmtRegisterWrite who a v) s = .next t ∧ t.m.replies = s.m.replies ++ [{ whom := who, status := 2 }] ∧
      Frame [.replies, .fw] (fun _ => false) s t) ∧
  (∀ (who : Iface) (a : Nat) (v : Word) (s : State), reaches s who = false → exec (.mgmtRegisterWrite who a v) s = .next s)

/-- R29, R481, R454, R419: FTM_LOAD sets Fabric Time while it is not locked and is discarded and counted afterwards; GLB_RESET asks
for one warm reset 1 ms on; TSP_LOCK sets LOCK where every member and Courier port is protected, and is refused with 0x709
otherwise; REARM over Brumin or I3C clears the guard's latch. What rests on the model's own choices: log entries 105 and 172. -/
def Obligations.ControlWritesAct : Prop :=
  (∀ (who : Iface) (v : Word) (s : State), WriteTakes who Reg.FTM_LOAD.base v Reg.FTM_LOAD [] s → s.time.locked = false →
    ∃ t, exec (.ftmLoad who v) s = .next t ∧ t.time = { s.time with now := v, slew := 0 } ∧
      Frame [.now, .slew, .replies, .fw, .logs] (isReg watchRegs) s t) ∧
  (∀ (who : Iface) (v : Word) (s : State), WriteTakes who Reg.FTM_LOAD.base v Reg.FTM_LOAD [] s → s.time.locked = true →
    ∃ t, exec (.ftmLoad who v) s = .next t ∧ t.time = s.time ∧
      gf t.m F.RAS_MGMT_ERR_DISCARD [] = (gf s.m F.RAS_MGMT_ERR_DISCARD [] + 1) % 65536 ∧
      Frame [.replies, .fw, .logs] (isReg ([(Reg.RAS_MGMT_ERR, [])] ++ watchRegs)) s t) ∧
  (∀ (who : Iface) (s : State), WriteTakes who Reg.GLB_RESET.base 1 Reg.GLB_RESET [] s → s.m.resets.any (fun r => r.1 == 3) = false →
    ∃ t, exec (.glbReset who) s = .next t ∧ t.m.resets = s.m.resets ++ [(3, s.time.now.toNat + 4000000)] ∧
      Frame [.resets, .replies, .fw, .logs] (isReg watchRegs) s t) ∧
  (∀ (who : Iface) (ticket : Nat) (s : State),
      WriteTakes who Reg.SEC_TSP.base (BitVec.ofNat 64 (1 + ticket % 65536 * 2 ^ 48)) Reg.SEC_TSP [] s →
    ∃ t, exec (.tspLock who ticket) s = .next t ∧
      gf t.m F.SEC_TSP_LOCK [] = (if gfb s.m F.SEC_TSP_LOCK || tspAllowed s.m then 1 else gf s.m F.SEC_TSP_LOCK []) ∧
      rd t.m Reg.SEC_TSP_STATUS [] =
        (if gfb s.m F.SEC_TSP_LOCK || tspAllowed s.m then statusWord ticket 3 0 0 else statusWord ticket 4 0x709 0) ∧
      Frame [.replies, .fw, .logs] (isReg ([(Reg.SEC_TSP, []), (Reg.SEC_TSP_STATUS, [])] ++ watchRegs)) s t) ∧
  (∀ (who : Iface) (s : State), WriteTakes who Reg.INL_CTL.base (setBits (rd s.m Reg.INL_CTL []) 16 16 1) Reg.INL_CTL [] s →
      s.m.inl.latched = true →
    ∃ t, exec (.rearm who) s = .next t ∧
      t.m.inl = { s.m.inl with latched := false, faultN := false, thermN := false, gate := 0 } ∧
      gf t.m F.INL_STATUS_STATE [] = guardState t.m.inl % 16)

/-- R370, R374, R376, R422: the event queue's HEAD moves by a pop, which answers the oldest record or zeros, and by a write that
stays within the queue; a monitor's configuration takes the written word; INL_PD_CTL takes its value and powers the domains whose
bits were set, unless the device refuses the write. What rests on the model's own choices: log entries 122 and 156. -/
def Obligations.MonitorAndDomainWrites : Prop :=
  (∀ (who : Iface) (s : State), Served who s → (gate who Reg.RAS_EVQ_POP.base 32 false (noteServed s)).1 = none → evqHeld s.m ≠ 0 →
    ∃ t, exec (.evqPop who) s = .next t ∧ gf t.m F.RAS_EVQ_PTR_HEAD [] = (gf s.m F.RAS_EVQ_PTR_HEAD [] + 1) % 8192 ∧
      t.m.replies = s.m.replies ++ [{ whom := who, body :=
        ((tgetList 0 s.m.logs.evq (4 * (gf s.m F.RAS_EVQ_PTR_HEAD [] % 4096)) 4).map (fun w => natLe 8 w.toNat)).flatten }] ∧
      Frame [.replies, .fw, .logs] (isReg watchRegs) s t) ∧
  (∀ (who : Iface) (s : State), Served who s → (gate who Reg.RAS_EVQ_POP.base 32 false (noteServed s)).1 = none → evqHeld s.m = 0 →
    ∃ t, exec (.evqPop who) s = .next t ∧ gf t.m F.RAS_EVQ_PTR_HEAD [] = gf s.m F.RAS_EVQ_PTR_HEAD [] ∧
      t.m.replies = s.m.replies ++ [{ whom := who, body := List.replicate 32 0 }]) ∧
  (∀ (who : Iface) (v : Nat) (s : State),
      WriteTakes who Reg.RAS_EVQ_PTR.base (BitVec.ofNat 64 (v % 8192 * 2 ^ 32)) Reg.RAS_EVQ_PTR [] s →
      (v % 8192 + 8192 - gf s.m F.RAS_EVQ_PTR_HEAD []) % 8192 ≤ evqHeld s.m →
    ∃ t, exec (.evqHeadWrite who v) s = .next t ∧ gf t.m F.RAS_EVQ_PTR_HEAD [] = v % 8192 ∧
      Frame [.replies, .fw, .logs] (isReg watchRegs) s t) ∧
  (∀ (who : Iface) (k : Nat) (hyst : Bool) (v : Word) (r : RegDef) (s : State), k < 64 →
      r = (if hyst then Reg.RAS_WM_HYST else Reg.RAS_WM_CFG) →
      WriteTakes who (0xB310000 + 32 * k + (if hyst then 8 else 0)) v r [k] s →
    ∃ t, exec (.wmConfigWrite who k hyst v) s = .next t ∧ rd t.m r [k] = writtenWord r (rd s.m r [k]) v allOnes ∧
      Frame [.replies, .fw, .logs] (isReg ([(r, [k])] ++ watchRegs)) s t) ∧
  (∀ (who : Iface) (v : Word) (s : State), WriteTakes who Reg.INL_PD_CTL.base v Reg.INL_PD_CTL [] s →
      pdCtlRefused s.m (writtenWord Reg.INL_PD_CTL (rd s.m Reg.INL_PD_CTL []) v allOnes).toNat = true →
    ∃ t, exec (.inlPdCtlWrite who v) s = .next t ∧ rd t.m Reg.INL_PD_CTL [] = rd s.m Reg.INL_PD_CTL [] ∧
      gf t.m F.RAS_MGMT_ERR_DISCARD [] = (gf s.m F.RAS_MGMT_ERR_DISCARD [] + 1) % 65536 ∧
      Frame [.replies, .fw, .logs] (isReg ([(Reg.RAS_MGMT_ERR, []), (Reg.INL_PD_CTL, [])] ++ watchRegs)) s t) ∧
  (∀ (who : Iface) (v : Word) (s : State), WriteTakes who Reg.INL_PD_CTL.base v Reg.INL_PD_CTL [] s →
      gfb s.m F.AMD_CFG_SLOT_SAFE = false →
      clearedBits s.m (writtenWord Reg.INL_PD_CTL (rd s.m Reg.INL_PD_CTL []) v allOnes).toNat = [] →
    ∃ t, exec (.inlPdCtlWrite who v) s = .next t ∧
      rd t.m Reg.INL_PD_CTL [] = BitVec.ofNat 64 ((writtenWord Reg.INL_PD_CTL (rd s.m Reg.INL_PD_CTL []) v allOnes).toNat % 2 ^ 24) ∧
      (∀ d, (d < 8 ∨ (20 ≤ d ∧ d < 24)) → bitAt (rd t.m Reg.INL_PD_CTL []).toNat d = true →
        (domainState s.m d = 0 ∨ domainState s.m d = 3) → domainState t.m d = 1))

/-! ### Chapter 15: amendments -/

/-- R340, R341: OPEN makes the software set and its owner; STAGE appends an item; CHECK and DISPATCH begin the checks with the
requested cut-over; DISCARD ends the set as aborted. What rests on the model's own choices: log entry 111. -/
def Obligations.SoftwareSetCommands : Prop :=
  (∀ (who : Iface) (ticket : Nat) (s : State), AmdTakes who 1 ticket s → AmdReady who 0 s →
    ∃ t, exec (.amdOpen who ticket) s = .next t ∧ gf t.m F.AMD_INFO_PHASE [] = 1 ∧ gf t.m F.AMD_INFO_OWNER [] = ownerCode who ∧
      gf t.m F.AMD_INFO_ITEMS [] = 0 ∧ rd t.m Reg.AMD_STATUS [] = statusWord ticket 1 0 0 ∧
      t.m.amd = { s.m.amd with stage := [], overrun := false } ∧
      Frame [.amd, .replies, .fw, .logs] (isReg ([(Reg.AMD_INFO, []), (Reg.AMD_STATUS, [])] ++ watchRegs)) s t) ∧
  (∀ (who : Iface) (a : Nat) (s : State),
      WriteTakes who Reg.AMD_STAGE_ADDR.base (BitVec.ofNat 64 (a % 2 ^ 32)) Reg.AMD_STAGE_ADDR [] s → AmdReady who 1 s →
      s.m.amd.stage.length < 262144 →
    ∃ t, exec (.amdStageItem who a) s = .next t ∧
      t.m.amd = { s.m.amd with stage := s.m.amd.stage ++ [⟨rd s.m Reg.AMD_STAGE_VALUE [], rd s.m Reg.AMD_STAGE_MASK [], a % 2 ^ 32⟩] } ∧
      gf t.m F.AMD_INFO_ITEMS [] = s.m.amd.stage.length + 1 ∧
      Frame [.amd, .replies, .fw, .logs] (isReg ([(Reg.AMD_INFO, [])] ++ watchRegs)) s t) ∧
  (∀ (who : Iface) (s : State), AmdTakes who 3 0 s → AmdReady who 1 s →
    ∃ t, exec (.amdCheck who) s = .next t ∧ gf t.m F.AMD_INFO_PHASE [] = 2 ∧ gf t.m F.AMD_STATUS_STATE [] = 2 ∧
      t.m.amd = { s.m.amd with dispatch := false, cut := gf s.m F.AMD_CUTOVER_REQUESTED [] } ∧
      Frame [.amd, .replies, .fw, .logs] (isReg ([(Reg.AMD_INFO, []), (Reg.AMD_STATUS, [])] ++ watchRegs)) s t) ∧
  (∀ (who : Iface) (s : State), AmdTakes who 2 0 s → AmdReady who 1 s → s.m.amd.sets.length < 16 →
    ∃ t, exec (.amdDispatch who) s = .next t ∧ gf t.m F.AMD_INFO_PHASE [] = 2 ∧ gf t.m F.AMD_STATUS_STATE [] = 2 ∧
      t.m.amd = { s.m.amd with dispatch := true, cut := gf s.m F.AMD_CUTOVER_REQUESTED [] } ∧
      Frame [.amd, .replies, .fw, .logs] (isReg ([(Reg.AMD_INFO, []), (Reg.AMD_STATUS, [])] ++ watchRegs)) s t) ∧
  (∀ (who : Iface) (s : State), AmdTakes who 4 0 s → AmdReady who 1 s →
    ∃ t, exec (.amdDiscard who) s = .next t ∧ gf t.m F.AMD_INFO_PHASE [] = 0 ∧ gf t.m F.AMD_INFO_OWNER [] = 0 ∧
      gf t.m F.AMD_INFO_ITEMS [] = 0 ∧ gf t.m F.AMD_STATUS_STATE [] = 5 ∧ t.m.amd = { s.m.amd with stage := [], overrun := false } ∧
      Frame [.amd, .replies, .fw, .logs] (isReg ([(Reg.AMD_INFO, []), (Reg.AMD_STATUS, [])] ++ watchRegs)) s t)

/-- R341: a command from another interface than the owner, or in another phase, is refused: REFUSE counts it and LAST_REFUSAL names
the reason, 0x70E or 0x70B; the set and its status stay. What rests on the model's own choices: log entry 112. -/
def Obligations.SoftwareSetRefusals : Prop :=
  (∀ (who : Iface) (s : State), AmdTakes who 3 0 s → amdPhase s.m ≠ 0 → gf s.m F.AMD_INFO_OWNER [] ≠ ownerCode who →
    ∃ t, exec (.amdCheck who) s = .next t ∧ gf t.m F.AMD_EVT_LAST_REFUSAL [] = 0x70E ∧ gf t.m F.AMD_EVT_REFUSE [] = 1 ∧
      Frame [.replies, .fw, .logs] (isReg ([(Reg.AMD_EVT, [])] ++ watchRegs)) s t) ∧
  (∀ (who : Iface) (s : State), AmdTakes who 3 0 s → amdPhase s.m ≠ 1 → (amdPhase s.m = 0 ∨ gf s.m F.AMD_INFO_OWNER [] = ownerCode who) →
    ∃ t, exec (.amdCheck who) s = .next t ∧ gf t.m F.AMD_EVT_LAST_REFUSAL [] = 0x70B ∧ gf t.m F.AMD_EVT_REFUSE [] = 1 ∧
      Frame [.replies, .fw, .logs] (isReg ([(Reg.AMD_EVT, [])] ++ watchRegs)) s t)

/-- R342, R344, R345: a CHECK that passes leaves the set staging with REASON 0, and one that fails with its REASON; a DISPATCH that passes
seals the set, and one that fails ends it with its REASON. The cut-over is the requested one where that is at least 16,000 ticks on
and no earlier than those of the sets before it; it is raised to the latest of these, and where that too is nearer than 16,000 ticks
the set is late and cuts over 16,000 ticks on. What rests on the model's own choices: log entries 53 and 111. -/
def Obligations.ChecksEndAndSeal : Prop :=
  (∀ s : State, amdPhase s.m = 2 → s.m.amd.dispatch = false →
      checkSet s.time.now.toNat s.m s.m.amd.stage s.m.amd.overrun s.m.amd.cut false = none →
    ∃ t, exec .amdCheckDone s = .next t ∧ gf t.m F.AMD_INFO_PHASE [] = 1 ∧ gf t.m F.AMD_STATUS_STATE [] = 1 ∧
      gf t.m F.AMD_STATUS_REASON [] = 0 ∧
      Frame [.logs] (isReg ([(Reg.AMD_INFO, []), (Reg.AMD_STATUS, [])] ++ watchRegs)) s t) ∧
  (∀ (x : Nat) (s : State), amdPhase s.m = 2 → s.m.amd.dispatch = false →
      checkSet s.time.now.toNat s.m s.m.amd.stage s.m.amd.overrun s.m.amd.cut false = some x →
    ∃ t, exec .amdCheckDone s = .next t ∧ gf t.m F.AMD_INFO_PHASE [] = 1 ∧ gf t.m F.AMD_STATUS_STATE [] = 1 ∧
      gf t.m F.AMD_STATUS_REASON [] = x % 4096 ∧
      Frame [.logs] (isReg ([(Reg.AMD_INFO, []), (Reg.AMD_STATUS, []), (Reg.AMD_CHECK_INFO, [])] ++ watchRegs)) s t) ∧
  (∀ s : State, amdPhase s.m = 2 → s.m.amd.dispatch = true → s.m.amd.sets.length < 16 →
      checkSet s.time.now.toNat s.m s.m.amd.stage s.m.amd.overrun s.m.amd.cut false = none →
    ∃ t, exec .amdCheckDone s = .next t ∧ gf t.m F.AMD_INFO_PHASE [] = 3 ∧
      t.m.amd.sets = s.m.amd.sets ++ [⟨(cutFor s.m s.time.now.toNat s.m.amd.cut).1, s.m.amd.stage, true, []⟩] ∧
      gf t.m F.AMD_INFO_SEALED [] = s.m.amd.sets.length + 1 ∧
      gf t.m F.AMD_CHECK_INFO_LATE [] = b2n (cutFor s.m s.time.now.toNat s.m.amd.cut).2) ∧
  (∀ (x : Nat) (s : State), amdPhase s.m = 2 → s.m.amd.dispatch = true →
      checkSet s.time.now.toNat s.m s.m.amd.stage s.m.amd.overrun s.m.amd.cut false = some x →
    ∃ t, exec .amdCheckDone s = .next t ∧ gf t.m F.AMD_INFO_PHASE [] = 0 ∧ gf t.m F.AMD_STATUS_STATE [] = 4 ∧
      gf t.m F.AMD_STATUS_REASON [] = x % 4096 ∧ t.m.amd = s.m.amd) ∧
  (∀ (m : Mach) (now c : Nat), now + 16000 ≤ (cutFor m now c).1 ∧ (∀ x ∈ m.amd.sets, x.cut ≤ (cutFor m now c).1)) ∧
  (∀ (m : Mach) (now c : Nat), now + 16000 ≤ c → (∀ x ∈ m.amd.sets, x.cut ≤ c) → cutFor m now c = (c, false)) ∧
  (∀ (m : Mach) (now c : Nat), (cutFor m now c).2 = true ↔ (c < now + 16000 ∧ ∀ x ∈ m.amd.sets, x.cut < now + 16000)) ∧
  (∀ (m : Mach) (now c : Nat), (cutFor m now c).2 = true → (cutFor m now c).1 = now + 16000)

/-- R343, R346, R77: at its cut-over the set sealed first takes effect as a whole and its status is done-ok; what it replaced is kept
for the messages postmarked before it; or, where it breaks a state rule, it is rejected as a whole with 0x709, and no register beside
its status and the monitors' changes. What rests on the model's own choices: log entry 54. -/
def Obligations.CutoverIsAllOrNothing : Prop :=
  (∀ (x : SealedSet) (rest : List SealedSet) (s : State), s.m.amd.sets = x :: rest → x.cut ≤ s.time.now.toNat → x.software = true →
      stateFault (sf { s.m with amd := { s.m.amd with sets := rest } } F.AMD_INFO_SEALED [] rest.length)
        (applyItems (sf { s.m with amd := { s.m.amd with sets := rest } } F.AMD_INFO_SEALED [] rest.length) x.items) x.items false = false →
      x.acts = [] →
    ∃ t, exec .amendmentCutover s = .next t ∧ gf t.m F.AMD_STATUS_STATE [] = 3 ∧ gf t.m F.AMD_STATUS_REASON [] = 0 ∧
      gf t.m F.AMD_INFO_PHASE [] = 0 ∧
      t = { s with m := wmAll s.time.now.toNat (amdEnd s.time.now.toNat
        (keepReplaced (sf { s.m with amd := { s.m.amd with sets := rest } } F.AMD_INFO_SEALED [] rest.length)
          (commitSet s.time.now.toNat x.cut
            (sf { s.m with amd := { s.m.amd with sets := rest } } F.AMD_INFO_SEALED [] rest.length) x.items) x) 3 0) }) ∧
  (∀ (x : SealedSet) (rest : List SealedSet) (s : State), s.m.amd.sets = x :: rest → x.cut ≤ s.time.now.toNat → x.software = true →
      stateFault (sf { s.m with amd := { s.m.amd with sets := rest } } F.AMD_INFO_SEALED [] rest.length)
        (applyItems (sf { s.m with amd := { s.m.amd with sets := rest } } F.AMD_INFO_SEALED [] rest.length) x.items) x.items false = true →
      x.acts = [] →
    ∃ t, exec .amendmentCutover s = .next t ∧ gf t.m F.AMD_STATUS_STATE [] = 4 ∧ gf t.m F.AMD_STATUS_REASON [] = 0x709 ∧
      t.m.amd = { s.m.amd with sets := rest } ∧
      Frame [.amd, .logs] (isReg ([(Reg.AMD_INFO, []), (Reg.AMD_STATUS, [])] ++ watchRegs)) s t)

/-- R338, R350: PERSIST clears MAGIC of the inactive slot and keeps the image of the running configuration, its SEQUENCE one above the
higher of the two slots'; when the last block is written the slot holds the image and the status is done-ok; when a write fails MRAM stays so and the status is failed. What rests on the
model's own choices: log entry 113. -/
def Obligations.PersistWritesTheInactiveSlot : Prop :=
  (∀ (who : Iface) (ticket : Nat) (s : State), AmdTakes who 5 ticket s → slotBusy s.m = false → gfb s.m F.SEC_OWNER_OWNER = false →
    ∃ t, exec (.amdPersist who ticket) s = .next t ∧ rd t.m Reg.AMD_PERSIST_STATUS [] = statusWord ticket 2 0 0 ∧
      mread t.mram (cfgSlot (inactiveSlot s.m)) 4 = [0, 0, 0, 0] ∧ MramKeptOutside (cfgSlot (inactiveSlot s.m)) 4 s t ∧
      t.m.amd = { s.m.amd with persist := some (inactiveSlot s.m, imageBytes (persistData s.m (gf s.m F.RTE_SELF_BOARD_ID []))
        (gf s.m F.RTE_SELF_BOARD_ID [])
        (max (gf s.m F.AMD_SLOT_SEQ0_SEQUENCE []) (gf s.m F.AMD_SLOT_SEQ1_SEQUENCE []) + 1)) }) ∧
  (∀ (k : Nat) (bs : List Byte) (s : State), s.m.amd.persist = some (k, bs) →
    ∃ t, exec (.persistDone true) s = .next t ∧ mread t.mram (cfgSlot k) bs.length = bs ∧ MramKeptOutside (cfgSlot k) bs.length s t ∧
      rd t.m Reg.AMD_PERSIST_STATUS [] = statusWord (getBits (rd s.m Reg.AMD_PERSIST_STATUS []) 63 48) 3 0 (bs.length / 4096) ∧
      t.m.amd = { s.m.amd with persist := none }) ∧
  (∀ (k : Nat) (bs : List Byte) (s : State), s.m.amd.persist = some (k, bs) →
    ∃ t, exec (.persistDone false) s = .next t ∧ t.mram = s.mram ∧
      rd t.m Reg.AMD_PERSIST_STATUS [] = statusWord (getBits (rd s.m Reg.AMD_PERSIST_STATUS []) 63 48) 4 0x70D 0 ∧
      Frame [.amd, .logs] (isReg ([(Reg.AMD_PERSIST_STATUS, [])] ++ watchRegs)) s t)

/-! ### Chapters 16, 21: the Brumin port and debug authorisation -/

/-- R363, R364, R374: DISCOVER answers GLB_ID and the station address; a register read answers the word that the register shows; a
register write commits as over any interface; EVQ_READ hands out the oldest records; a duplicate of an answered request is answered
with the response that was held, and has no effect. What rests on the model's own choices: log entry 131. -/
def Obligations.BruminAnswersRequests : Prop :=
  (∀ (mac : Nat) (sess : Bool) (seq : Nat) (s : State), BrumServed { rom := true } mac sess seq s →
    ∃ t, exec (.discover (.brumin mac sess) seq) s = .next t ∧
      BrumAnswers mac sess seq { whom := .i3c, body := natLe 8 (rd s.m Reg.GLB_ID []).toNat ++ natLe 6 (gf s.m F.MBX_BRUMIN_MAC []) ++ [0, 0] } s t ∧
      BrumFrame [] [] s t) ∧
  (∀ (mac : Nat) (sess : Bool) (seq a : Nat) (r : RegDef) (ix : List Nat) (s : State), BrumServed {} mac sess seq s →
      permLacks s (.brumin mac sess) 0 = false → a % 8 = 0 → a < 0xF000000 → regFind a = some (r, ix) →
      r.base ≠ Reg.FTM_HZ.base → r.base ≠ Reg.RAS_EVQ_POP.base → (gate (.brumin mac sess) a 8 false (bruminSeen mac s)).1 = none →
    ∃ t, exec (.regRead (.brumin mac sess) seq a 8) s = .next t ∧
      BrumAnswers mac sess seq { whom := .i3c, body := natLe 8 (liveWord (bruminSeen mac s) r ix).toNat } s t ∧ BrumFrame [] [] s t) ∧
  (∀ (mac : Nat) (sess : Bool) (seq a : Nat) (v : Word) (r : RegDef) (ix : List Nat) (s : State), BrumServed { writes := true } mac sess seq s →
      permLacks s (.brumin mac sess) 1 = false → Accepts (.brumin mac sess) a v r ix (bruminSeen mac s) →
    ∃ t u, exec (.regWrite (.brumin mac sess) seq a (natLe 8 v.toNat)) s = .next t ∧
      u = commitWord (.brumin mac sess) r ix v allOnes (bruminSeen mac s) ∧
      t = { u with m := wmAll u.time.now.toNat (sendHeld (wmAll u.time.now.toNat u.m) mac { whom := .brumin mac sess, seq := seq }) }) ∧
  (∀ (mac : Nat) (sess : Bool) (seq max : Nat) (s : State), BrumServed {} mac sess seq s → 1 ≤ max → max ≤ 31 →
      (gate (.brumin mac sess) Reg.RAS_EVQ_POP.base 32 false (bruminSeen mac s)).1 = none → evqHeld s.m ≠ 0 →
    ∃ t, exec (.evqRead (.brumin mac sess) seq max) s = .next t ∧
      gf t.m F.RAS_EVQ_PTR_HEAD [] = (gf s.m F.RAS_EVQ_PTR_HEAD [] + min max (evqHeld s.m)) % 8192 ∧
      (∃ body, BrumAnswers mac sess seq { whom := .i3c, vals := [min max (evqHeld s.m)], body := body } s t ∧
        body.length = 32 * min max (evqHeld s.m)) ∧ BrumFrame [] [] s t) ∧
  (∀ (mac : Nat) (sess : Bool) (seq : Nat) (r : Reply) (s : State), bruminUp s true = true →
      (sess = true → s.m.sec.sessions.contains (.brumin mac false) = true) → s.m.fw.handEnd = 0 → heldReply s.m mac seq = some r →
    ∃ t, exec (.discover (.brumin mac sess) seq) s = .next t ∧ t.m.replies = s.m.replies ++ [r] ∧
      Frame [.brumin, .replies, .fw] (fun _ => false) s t)

/-- R338, R366: an image load: BEGIN clears MAGIC of the slot and opens the load; a part is written, or held while it lies in the
first 4 KiB; END writes the held parts and accepts the image where every test of the slot passes, or fails it with its REASON. An
MCTP packet is answered in the frame's own response. What rests on the model's own choices: log entries 131 and 135. -/
def Obligations.BruminLoadsAnImage : Prop :=
  (∀ (mac : Nat) (sess : Bool) (seq len ticket slot : Nat) (s : State), BrumServed { writes := true } mac sess seq s →
      tokenBars s (.brumin mac sess) = false → imageBad s.m len slot = none →
    ∃ t, exec (.imageBegin (.brumin mac sess) seq len ticket slot) s = .next t ∧ t.m.load = some ⟨slot, len, [], []⟩ ∧
      rd t.m Reg.MBX_IMG_STATUS [] = statusWord ticket 2 0 0 ∧ mread t.mram (cfgSlot slot) 4 = [0, 0, 0, 0] ∧
      MramKeptOutside (cfgSlot slot) 4 s t ∧ BrumAnswers mac sess seq { whom := .i3c } s t) ∧
  (∀ (mac : Nat) (sess : Bool) (seq idx : Nat) (body : List Byte) (l : ImgLoad) (s : State), BrumServed { writes := true } mac sess seq s →
      tokenBars s (.brumin mac sess) = false → s.m.load = some l → body.length = 1024 → 1024 * idx < l.len → 4 ≤ idx →
    ∃ t, exec (.imageData (.brumin mac sess) seq idx body) s = .next t ∧ mread t.mram (cfgSlot l.slot + 1024 * idx) 1024 = body ∧
      MramKeptOutside (cfgSlot l.slot + 1024 * idx) 1024 s t ∧ t.m.load = some { l with got := addPart l.got idx } ∧
      BrumFrame [.mram, .load] [(Reg.MBX_IMG_STATUS, [])] s t) ∧
  (∀ (mac : Nat) (sess : Bool) (seq idx : Nat) (body : List Byte) (l : ImgLoad) (s : State), BrumServed { writes := true } mac sess seq s →
      tokenBars s (.brumin mac sess) = false → s.m.load = some l → body.length = 1024 → 1024 * idx < l.len → idx < 4 →
    ∃ t, exec (.imageData (.brumin mac sess) seq idx body) s = .next t ∧
      t.m.load = some { l with got := addPart l.got idx, held := holdPart l.held idx body } ∧
      BrumFrame [.load] [(Reg.MBX_IMG_STATUS, [])] s t) ∧
  (∀ (mac : Nat) (sess : Bool) (seq : Nat) (sig : Bool) (l : ImgLoad) (s : State), BrumServed { writes := true } mac sess seq s →
      tokenBars s (.brumin mac sess) = false → s.m.load = some l → missing l.len l.got = true →
    ∃ t, exec (.imageEnd (.brumin mac sess) seq sig) s = .next t ∧ t.m.load = none ∧ gf t.m F.MBX_IMG_STATUS_STATE [] = 4 ∧
      gf t.m F.MBX_IMG_STATUS_REASON [] = 0x103 ∧
      BrumFrame [.load] [(Reg.MBX_IMG_STATUS, []), ((seqField l.slot).reg, [])] s t) ∧
  (∀ (mac : Nat) (sess : Bool) (seq : Nat) (sig : Bool) (l : ImgLoad) (s : State), BrumServed { writes := true } mac sess seq s →
      tokenBars s (.brumin mac sess) = false → s.m.load = some l → missing l.len l.got = false →
      (slotFault (writeHeld s.mram (cfgSlot l.slot) l.held) (bruminSeen mac s).m l.slot (gf s.m F.RTE_SELF_BOARD_ID []) sig
        (gfb s.m F.SEC_OWNER_OWNER) false).1 = 0 →
    ∃ t, exec (.imageEnd (.brumin mac sess) seq sig) s = .next t ∧ t.m.load = none ∧ gf t.m F.MBX_IMG_STATUS_STATE [] = 3 ∧
      gf t.m F.MBX_IMG_STATUS_REASON [] = 0 ∧ t.mram = writeHeld s.mram (cfgSlot l.slot) l.held) ∧
  (∀ (mac : Nat) (sess : Bool) (seq e : Nat) (s : State), BrumServed { rom := true } mac sess seq s → s.m.fw.recovery = false →
    ∃ t, exec (.bruminMctp (.brumin mac sess) seq (.control (.setEid e))) s = .next t ∧
      tget 0 t.m.eids (cciKey (.brumin mac sess)) = e % 256 ∧ BrumAnswers mac sess seq { whom := .i3c, vals := [e % 256] } s t ∧
      BrumFrame [.eids] [] s t) ∧
  (∀ (mac : Nat) (sess : Bool) (seq k : Nat) (s : State), BrumServed { rom := true } mac sess seq s →
    ∃ t, exec (.bruminMctp (.brumin mac sess) seq (.other k)) s = .next t ∧ BrumAnswers mac sess seq { whom := .i3c } s t ∧ BrumFrame [] [] s t)

/-- R455, R456: CHALLENGE gives a nonce of 32 bytes for 60 s with the serial number; a token that fits it is in force for its
lifetime and voids the nonce; one that does not is rejected with its REASON; END and the tick of expiry end the token, and the nonce
expires. What rests on the model's own choices: log entry 138. -/
def Obligations.DebugTokensComeAndGo : Prop :=
  (∀ (mac : Nat) (sess : Bool) (seq : Nat) (s : State), BrumServed {} mac sess seq s →
    ∃ t n, exec (.challenge (.brumin mac sess) seq) s = .next t ∧ n.length = 32 ∧
      t.m.sec = { s.m.sec with nonce := some (n, s.time.now.toNat + nonceTicks), expired := none } ∧ t.m.free = s.m.free + 4 ∧
      BrumAnswers mac sess seq { whom := .i3c, body := n ++ natLe 8 (gf s.m F.SEC_LIFECYCLE_SERIAL []) } s t ∧ BrumFrame [.sec, .free] [] s t) ∧
  (∀ (mac : Nat) (sess : Bool) (seq : Nat) (k : DebugToken) (s : State), BrumServed {} mac sess seq s → tokenMalformed k = false →
      tokenFault (bruminSeen mac s) k = 0 →
    ∃ t, exec (.present (.brumin mac sess) seq k) s = .next t ∧
      t.m.sec = { s.m.sec with nonce := none, expired := none, token := some ⟨mac, k.perms, s.time.now.toNat + k.life * 4000000000⟩ } ∧
      gf t.m F.SEC_DEBUG_ACTIVE [] = 1 ∧ gf t.m F.SEC_DEBUG_PERMS [] = k.perms ∧ BrumAnswers mac sess seq { whom := .i3c } s t ∧
      BrumFrame [.sec] [(Reg.SEC_DEBUG, [])] s t) ∧
  (∀ (mac : Nat) (sess : Bool) (seq : Nat) (k : DebugToken) (s : State), BrumServed {} mac sess seq s → tokenMalformed k = false →
      tokenFault (bruminSeen mac s) k ≠ 0 →
    ∃ t, exec (.present (.brumin mac sess) seq k) s = .next t ∧
      t.m.sec = { s.m.sec with nonce := none, expired := none, token := none } ∧ gf t.m F.SEC_DEBUG_ACTIVE [] = 0 ∧
      gf t.m F.SEC_DEBUG_REASON [] = tokenFault (bruminSeen mac s) k ∧ gf t.m F.SEC_DEBUG_REJECT [] = 1 ∧
      BrumAnswers mac sess seq { whom := .i3c, status := 1 } s t ∧ BrumFrame [.sec] [(Reg.SEC_DEBUG, [])] s t) ∧
  (∀ (mac : Nat) (sess : Bool) (seq : Nat) (k : Token) (s : State), BrumServed {} mac sess seq s → s.m.sec.token = some k → k.mac = mac →
    ∃ t, exec (.debugEnd (.brumin mac sess) seq) s = .next t ∧ t.m.sec = { s.m.sec with token := none } ∧
      gf t.m F.SEC_DEBUG_ACTIVE [] = 0 ∧ gf t.m F.SEC_DEBUG_PERMS [] = 0 ∧ BrumFrame [.sec] [(Reg.SEC_DEBUG, [])] s t) ∧
  (∀ (k : Token) (s : State), s.m.sec.token = some k → k.ends ≤ s.time.now.toNat →
    ∃ t, exec .debugTokenExpiry s = .next t ∧ t.m.sec = { s.m.sec with token := none } ∧ gf t.m F.SEC_DEBUG_ACTIVE [] = 0 ∧
      gf t.m F.SEC_DEBUG_PERMS [] = 0 ∧ Frame [.sec] (isReg [(Reg.SEC_DEBUG, [])]) s t) ∧
  (∀ (n : List Byte) (e : Nat) (s : State), s.m.sec.nonce = some (n, e) → e ≤ s.time.now.toNat →
    ∃ t, exec .nonceExpiry s = .next t ∧ t.m.sec = { s.m.sec with nonce := none, expired := some n } ∧ Frame [.sec] (fun _ => false) s t)

/-- R248, R327, R449, R455 to R458: MRAM is read and written under a token with PERMS bits 2 and 3, its identity region shut; the
owner's keys are set once, in a session; RMA blows the life cycle and clears the keys; TSP_LOCK is taken by a host over its DOE;
EXTEST is noted. What rests on the model's own choices: log entries 139, 140, 141 and 142. -/
def Obligations.DebugOperationsAct : Prop :=
  (∀ (mac : Nat) (sess : Bool) (seq off len : Nat) (s : State), BrumServed {} mac sess seq s → Permitted mac 2 s → 1 ≤ len → len ≤ 1024 →
      off + len ≤ mramSize → mramLocked off len = false →
    ∃ t, exec (.mramRead (.brumin mac sess) seq off len) s = .next t ∧
      BrumAnswers mac sess seq { whom := .i3c, body := mread s.mram off len } s t ∧ BrumFrame [] [] s t) ∧
  (∀ (mac : Nat) (sess : Bool) (seq off len : Nat) (s : State), BrumServed {} mac sess seq s → Permitted mac 2 s → 1 ≤ len → len ≤ 1024 →
      off + len ≤ mramSize → mramLocked off len = true →
    ∃ t, exec (.mramRead (.brumin mac sess) seq off len) s = .next t ∧
      BrumAnswers mac sess seq { whom := .i3c, body := List.replicate len 0 } s t ∧ gf t.m F.GRD_LOCK_ERR_LOCKED [] = 1 ∧
      BrumFrame [] [(Reg.GRD_LOCK_ERR, [])] s t) ∧
  (∀ (mac : Nat) (sess : Bool) (seq off : Nat) (data : List Byte) (s : State), BrumServed {} mac sess seq s → Permitted mac 3 s →
      data ≠ [] → data.length ≤ 1024 → off + data.length ≤ mramSize → mramLocked off data.length = false →
    ∃ t, exec (.mramWrite (.brumin mac sess) seq off data) s = .next t ∧ mread t.mram off data.length = data ∧
      MramKeptOutside off data.length s t ∧ BrumFrame [.mram] [(Reg.AMD_SLOT_SEQ0, []), (Reg.AMD_SLOT_SEQ1, [])] s t) ∧
  (∀ (mac seq : Nat) (keys : List Byte) (s : State), BrumServed {} mac true seq s → gfb s.m F.SEC_OWNER_OWNER = false →
      s.nvm.ownerKey = [] → keys ≠ [] →
    ∃ t, exec (.ownerSet (.brumin mac true) seq keys) s = .next t ∧ t.nvm = { s.nvm with ownerKey := keys } ∧
      gf t.m F.SEC_OWNER_OWNER [] = 1 ∧ BrumFrame [.nvm] [(Reg.SEC_OWNER, [])] s t) ∧
  (∀ (mac : Nat) (sess : Bool) (seq : Nat) (f : BootFacts) (s : State), BrumServed {} mac sess seq s → Permitted mac 4 s →
    ∃ t, exec (.rma (.brumin mac sess) seq f) s = .next t ∧
      t.nvm = { s.nvm with identity := false, ownerKey := [], ownerChain := [], lifecycle := 3 } ∧
      (powered s.m = false → gf t.m F.SEC_LIFECYCLE_STATE [] = 3 ∧ gf t.m F.SEC_OWNER_OWNER [] = 0 ∧ gf t.m F.SEC_OWNER_CHAIN1 [] = 0 ∧
        ∃ c, t.m.resets = s.m.resets ++ [(c, s.time.now.toNat)])) ∧
  (∀ (p : Nat) (s : State), spdmReaches s (.doe p) = true → s.m.fw.handEnd = 0 → role s.m p = 1 →
    ∃ t, exec (.tspLockRequest p) s = .next t ∧
      gf t.m F.SEC_TSP_LOCK [] = (if gfb s.m F.SEC_TSP_LOCK || tspAllowed s.m then 1 else gf s.m F.SEC_TSP_LOCK []) ∧
      t.m.replies = s.m.replies ++
        [{ whom := .doe p, ret := (if gfb s.m F.SEC_TSP_LOCK || tspAllowed s.m then .success else .invalidInput), vals := [if gfb s.m F.SEC_TSP_LOCK || tspAllowed s.m then 3 else 4] }] ∧
      Frame [.replies] (isReg [(Reg.SEC_TSP, []), (Reg.SEC_TSP_STATUS, [])]) s t) ∧
  (∀ s : State, ∃ t, exec (.jtagExtest false) s = .next t ∧ t.m.sec = { s.m.sec with extest := false } ∧
      Frame [.sec, .logs] (isReg watchRegs) s t) ∧
  (∀ s : State, (∀ p, p < 128 → portExists s.m p = false) →
    ∃ t, exec (.jtagExtest true) s = .next t ∧ t.m.sec = { s.m.sec with extest := true } ∧ Frame [.sec, .logs] (isReg watchRegs) s t) ∧
  (∀ s : State, exec (.jtagExtest true) s =
    .next { s with m := wmAll s.time.now.toNat (((List.range 128).filter (fun p => portExists (modSec s.m (fun k => { k with extest := true })) p)).foldl
      (linkDownOf s.time.now.toNat) (modSec s.m (fun k => { k with extest := true }))) })

/-! ### Chapter 16: the FM API and the vendor commands -/

/-- R219, R220, R355, R356, R378: the commands that only tell: each answers success with its values and changes nothing else but the
response, over an interface that carries the FM API, and through the mailbox of an FLD for the commands that the mailbox serves; there
those of the FM API are answered Unsupported. What rests on the model's own choices: log entries 117, 118, 119, 120 and 182. -/
def Obligations.InformationCommandsAnswer : Prop :=
  (∀ (who : Iface) (s : State), CciServed who s →
    (∃ t, exec (.identify who) s = .next t ∧ Answers who .success [gf s.m F.GLB_ID_VENDOR [], gf s.m F.SEC_LIFECYCLE_SERIAL [], 13, 0] [] s t ∧
      MgmtFrame [] [] s t) ∧
    (∃ t, exec (.backgroundOperationStatus who) s = .next t ∧
      Answers who .success (match (cciOf s.m who).bg with
        | some b => [b2n (!b.done), b.opcode, if b.done then retCode b.ret else 0]
        | none => [0, 0, 0]) [] s t ∧ MgmtFrame [] [] s t) ∧
    (∃ t, exec (.getResponseMessageLimit who) s = .next t ∧ Answers who .success [min (cciOf s.m who).limit 13] [] s t ∧ MgmtFrame [] [] s t) ∧
    (∃ t, exec (.getEventInterruptPolicy who) s = .next t ∧ Answers who .success [(cciOf s.m who).policy.toNat] [] s t ∧
      MgmtFrame [] [] s t) ∧
    (∃ t, exec (.getTimestamp who) s = .next t ∧
      Answers who .success [(rd s.m Reg.MBX_TS_OFFSET [] + BitVec.ofNat 64 (s.time.now.toNat / 4)).toNat] [] s t ∧ MgmtFrame [] [] s t) ∧
    (∃ t, exec (.getFwInfo who) s = .next t ∧
      Answers who .success [2, s.m.fw.run, getBits (showFwSlot s 0) 63 32, getBits (showFwSlot s 1) 63 32] [] s t ∧ MgmtFrame [] [] s t) ∧
    (∃ t v, exec (.getLdInfo who) s = .next t ∧ Answers who .success [v, (ldView s.m who).length] [] s t ∧ MgmtFrame [.free] [] s t) ∧
    (∀ first n, ∃ t, exec (.getLdAllocations who first n) s = .next t ∧
      Answers who .success ((((ldView s.m who).filter (fun x => first ≤ x.1)).take n).map
        (fun x => [x.2.2.1 / 16, x.2.2.1 % 16, ((extentList s.m x.2.2.2).map (·.2)).sum])).flatten [] s t ∧ MgmtFrame [] [] s t) ∧
    (∀ log, log < 5 → ∃ t, exec (.getEventRecords who log) s = .next t ∧
      Answers who .success (((cciOf s.m who).events.filter (fun e => e.1 == log)).map (·.2)) [] s t ∧ MgmtFrame [] [] s t)) ∧
  (∀ (f : Nat) (s : State), FldServed f s → ∃ t, exec (.getDynamicCapacityConfiguration f) s = .next t ∧
    Answers (.fld f) .success (((List.range 8).filter (fun r => gfb s.m F.TEN_RGN_BASE_VALID [f, r])).map (fun r =>
      [r, gf s.m F.TEN_RGN_BASE_DPA_BASE [f, r] * 2 ^ 21, gf s.m F.TEN_RGN_CFG_LEN [f, r], blockSize s.m f r,
        gf s.m F.TEN_RGN_CFG_SOR [f, r]])).flatten [] s t ∧ Frame [.replies, .logs] (isReg watchRegs) s t) ∧
  (∀ (f : Nat) (s : State), FldServed f s → ∃ t, exec (.getDynamicCapacityExtentList f) s = .next t ∧
    Answers (.fld f) .success ((extentList s.m f).map (fun x => [x.1, x.2])).flatten [] s t ∧
    Frame [.replies, .logs] (isReg watchRegs) s t) ∧
  (∀ (f : Nat) (s : State), FldServed f s →
    (∃ t, exec (.identify (.fld f)) s = .next t ∧
      Answers (.fld f) .success [gf s.m F.GLB_ID_VENDOR [], gf s.m F.SEC_LIFECYCLE_SERIAL [], 12, 3] [] s t ∧
      Frame [.replies, .logs] (isReg watchRegs) s t) ∧
    (∃ t, exec (.getTimestamp (.fld f)) s = .next t ∧
      Answers (.fld f) .success [(rd s.m Reg.MBX_TS_OFFSET [] + BitVec.ofNat 64 (s.time.now.toNat / 4)).toNat] [] s t ∧
      Frame [.replies, .logs] (isReg watchRegs) s t) ∧
    (∃ t, exec (.getLdInfo (.fld f)) s = .next t ∧ Answers (.fld f) .unsupported [] [] s t ∧ Frame [.replies] (fun _ => false) s t))

/-- R355: the commands that set a property of the CCI set it and answer success; those the device does not support answer
unsupported and set nothing. What rests on the model's own choices: log entry 117. -/
def Obligations.SettingCommandsSet : Prop :=
  (∀ (who : Iface) (n : Nat) (s : State), CciServed who s → 8 ≤ n → n ≤ 13 →
    ∃ t, exec (.setResponseMessageLimit who n) s = .next t ∧ (cciOf t.m who) = { cciOf s.m who with limit := n } ∧
      Answers who .success [n] [] s t ∧ MgmtFrame [.cci] [] s t) ∧
  (∀ (who : Iface) (n : Nat) (s : State), CciServed who s → (n < 8 ∨ 13 < n) →
    ∃ t, exec (.setResponseMessageLimit who n) s = .next t ∧ Answers who .invalidInput [] [] s t ∧ MgmtFrame [] [] s t) ∧
  (∀ (who : Iface) (v : Word) (s : State), CciServed who s →
    ∃ t, exec (.setEventInterruptPolicy who v) s = .next t ∧ (cciOf t.m who) = { cciOf s.m who with policy := v } ∧
      Answers who .success [] [] s t ∧ MgmtFrame [.cci] [] s t) ∧
  (∀ (who : Iface) (log : Nat) (hs : List Nat) (s : State), CciServed who s → log < 5 →
    ∃ t, exec (.clearEventRecords who log true hs) s = .next t ∧
      (cciOf t.m who) = { cciOf s.m who with events := (cciOf s.m who).events.filter (fun e => e.1 != log) } ∧
      Answers who .success [] [] s t ∧ MgmtFrame [.cci] [] s t) ∧
  (∀ (who : Iface) (log : Nat) (hs : List Nat) (s : State), CciServed who s → log < 5 →
    ∃ t, exec (.clearEventRecords who log false hs) s = .next t ∧
      (cciOf t.m who) = { cciOf s.m who with events := (cciOf s.m who).events.filter (fun e => e.1 != log || !hs.contains e.2) } ∧
      Answers who .success [] [] s t ∧ MgmtFrame [.cci] [] s t) ∧
  (∀ (who : Iface) (s : State), CciServed who s →
    (∃ t, exec (.setLdAllocations who) s = .next t ∧ Answers who .unsupported [] [] s t ∧ MgmtFrame [] [] s t) ∧
    (∃ t, exec (.transferFw who) s = .next t ∧ Answers who .unsupported [] [] s t ∧ MgmtFrame [] [] s t) ∧
    (∃ t, exec (.activateFw who) s = .next t ∧ Answers who .unsupported [] [] s t ∧ MgmtFrame [] [] s t))

/-- R62, R355, R273: a port ID is assigned where no other edge port has it; the physical port commands reset the PPB of a member
port and move its PERST; a request tunnelled or sent to a logical device waits, under a tag that is free, for its completion. What
rests on the model's own choices: log entry 121. -/
def Obligations.PortAndDeviceCommands : Prop :=
  (∀ (who : Iface) (p id : Nat) (s : State), CciServed who s → (role s.m p = 1 ∨ role s.m p = 2) → id < 4080 → p < 128 →
      (livePorts s.m).any (fun q => q != p && (role s.m q == 1 || role s.m q == 2) && gf s.m F.RTE_PORT_ID_LOCAL [q] == id) = false →
    ∃ t, exec (.pbrIdAssignment who p id) s = .next t ∧ gf t.m F.RTE_PORT_ID_LOCAL [p] = id ∧ Answers who .success [] [] s t ∧
      MgmtFrame [] [(Reg.RTE_PORT_ID, [p])] s t) ∧
  (∀ (who : Iface) (p : Nat) (s : State), CciServed who s → portExists s.m p = true → role s.m p = 2 →
    exec (.physicalPortControl who p 0) s = .next { noteServed s with
      m := wmAll s.time.now.toNat (answer (perstAssert p true s.time.now.toNat (noteServed s).m) who .success) } ∧
    exec (.physicalPortControl who p 1) s = .next { noteServed s with
      m := wmAll s.time.now.toNat (answer (perstAssert p false s.time.now.toNat (noteServed s).m) who .success) } ∧
    exec (.physicalPortControl who p 2) s = .next { noteServed s with
      m := wmAll s.time.now.toNat (answer (hotReset p s.time.now.toNat (noteServed s).m) who .success) }) ∧
  (∀ (who : Iface) (p : Nat) (body : List Byte) (k : Nat) (s : State), CciServed who s → multiLogical s.m p = true → freeTag s.m = some k →
    ∃ t, exec (.tunnelManagementCommand who p body) s = .next t ∧
      t.m.pmReqs = s.m.pmReqs ++ [⟨p, 256 + k, s.time.now.toNat, some who⟩] ∧ t.m.replies = s.m.replies) ∧
  (∀ (who : Iface) (p ld reg : Nat) (data : Option Nat) (k : Nat) (s : State), CciServed who s → multiLogical s.m p = true →
      offersLd s.m p ld = true → freeTag s.m = some k →
    ∃ t, exec (.sendLdCxlIoConfigurationRequest who p ld reg data) s = .next t ∧
      t.m.pmReqs = s.m.pmReqs ++ [⟨p, k, s.time.now.toNat, some who⟩] ∧ t.m.replies = s.m.replies) ∧
  (∀ (who : Iface) (p ld off len k : Nat) (s : State), CciServed who s → multiLogical s.m p = true → offersLd s.m p ld = true →
      freeTag s.m = some k →
    ∃ t, exec (.sendLdCxlIoMemoryRequest who p ld off len none) s = .next t ∧
      t.m.pmReqs = s.m.pmReqs ++ [⟨p, k, s.time.now.toNat, some who⟩] ∧ t.m.replies = s.m.replies) ∧
  (∀ (who : Iface) (p ld off len : Nat) (bs : List Byte) (s : State), CciServed who s → multiLogical s.m p = true → offersLd s.m p ld = true →
      contained s.m p = true →
    ∃ t x, exec (.sendLdCxlIoMemoryRequest who p ld off len (some bs)) s = .next t ∧ t.m.sof.wire = s.m.sof.wire ++ [(p, x)] ∧
      x.h.kind = .mwr ∧ x.h.addr = off ∧ x.h.ldId = ld ∧ x.h.data = bs ∧ Answers who .success [] [] s t ∧
      CountFrame [.sof, .home, .replies, .fw] [] s t) ∧
  (∀ (r : PmReq) (s : State), s.m.pmReqs.find? (fun r => decide (r.since + 200000000 ≤ s.time.now.toNat)) = some r →
    ∃ t, exec .postmasterRequestTimeout s = .next t ∧ t.m.pmReqs = s.m.pmReqs.erase r ∧
      (∀ w, r.who = some w → ∃ c, Answers w (.unstated c) [] [] s t) ∧ Frame [.pmReqs, .replies, .free] (fun _ => false) s t)

/-- R357: the vendor commands act as the accesses they name: a register read answers what the register shows, a write commits, the
event queue hands out its oldest records, OPEN opens the software set, and items are staged in order. What rests on the model's own
choices: log entry 122. -/
def Obligations.VendorCommandsAct : Prop :=
  (∀ (who : Iface) (a : Nat) (r : RegDef) (ix : List Nat) (s : State), CciServed who s → a % 8 = 0 → a < 0xF000000 → regFind a = some (r, ix) →
      r.base ≠ Reg.FTM_HZ.base → r.base ≠ Reg.RAS_EVQ_POP.base → (gate who a 8 false (noteServed s)).1 = none →
    ∃ t, exec (.registerRead who a 8) s = .next t ∧ Answers who .success [] (natLe 8 (liveWord (noteServed s) r ix).toNat) s t ∧
      MgmtFrame [] [] s t) ∧
  (∀ (who : Iface) (a : Nat) (v : Word) (r : RegDef) (ix : List Nat) (s : State), fmApi who = true → WriteTakes who a v r ix s →
    exec (.registerWrite who a (natLe 8 v.toNat)) s = .next (writeDone who (commitWord who r ix v allOnes (noteServed s)))) ∧
  (∀ (who : Iface) (max : Nat) (s : State), CciServed who s → 1 ≤ max → max ≤ 255 →
      (gate who Reg.RAS_EVQ_POP.base 32 false (noteServed s)).1 = none → evqHeld s.m ≠ 0 →
    ∃ t, exec (.eventQueueRead who max) s = .next t ∧
      gf t.m F.RAS_EVQ_PTR_HEAD [] = (gf s.m F.RAS_EVQ_PTR_HEAD [] + min (limitedMax s.m who max) (evqHeld s.m)) % 8192 ∧
      (∃ body, Answers who .success [min (limitedMax s.m who max) (evqHeld s.m)] body s t ∧
        body.length = 32 * min (limitedMax s.m who max) (evqHeld s.m)) ∧ MgmtFrame [] [] s t) ∧
  (∀ (who : Iface) (ticket : Nat) (cut : Word) (s : State), fmApi who = true → AmdTakes who 1 ticket s → AmdReady who 0 s →
    ∃ t, exec (.amendmentCommand who 1 ticket cut) s = .next t ∧ gf t.m F.AMD_INFO_PHASE [] = 1 ∧
      gf t.m F.AMD_INFO_OWNER [] = ownerCode who ∧ t.m.amd = { s.m.amd with stage := [], overrun := false } ∧
      Answers who .success [(statusWord ticket 1 0 0).toNat] [] s t ∧ MgmtFrame [.amd] [(Reg.AMD_INFO, []), (Reg.AMD_STATUS, [])] s t) ∧
  (∀ (who : Iface) (items : List (Word × Word × Nat)) (s : State), CciServed who s → items ≠ [] → items.length ≤ 341 →
      (gate who Reg.AMD_STAGE_ADDR.base 8 true (noteServed s)).1 = none → AmdReady who 1 s →
      s.m.amd.stage.length + items.length ≤ 262144 →
    ∃ t, exec (.stageItems who items) s = .next t ∧
      t.m.amd = { s.m.amd with stage := s.m.amd.stage ++ items.map (fun i => ⟨i.1, i.2.1, i.2.2 % 2 ^ 32⟩) } ∧
      Answers who .success [s.m.amd.stage.length + items.length] [] s t ∧ MgmtFrame [.amd] [(Reg.AMD_INFO, [])] s t)

/-! ### Chapter 09: tenancy -/

/-- R228, R231, R349, R355: the commands that change tenancy become Postmaster sets: where the set passes its checks it waits,
sealed, for its cut-over, and the command is answered; nothing of the tenancy itself changes before. What rests on the model's own
choices: log entries 62 and 114. -/
def Obligations.TenancyCommandsBecomeSets : Prop :=
  (∀ (f tick : Nat) (acc rej : List (Nat × Nat)) (a r l : List (Nat × Nat)) (s : State), FldServed f s →
      blocksAll s.m f (acc ++ rej) = some l → blocksAll s.m f acc = some a → blocksAll s.m f rej = some r →
      Seals (a.map (fun b => extItem b.2 2) ++ r.map (fun b => extItem b.2 0)) (a.map (fun b => .accept f b.2) ++ r.map (fun b => .reject f b.2))
        (expandTick s.time.now.toNat tick + 16000) s →
    ∃ t, exec (.addDynamicCapacityResponse f tick acc rej) s = .next t ∧
      Sealed (a.map (fun b => extItem b.2 2) ++ r.map (fun b => extItem b.2 0)) (a.map (fun b => .accept f b.2) ++ r.map (fun b => .reject f b.2))
        (expandTick s.time.now.toNat tick + 16000) s t ∧ Answers (.fld f) .success [] [] s t ∧
      Frame [.amd, .replies, .logs] (isReg (sealRegs ++ watchRegs)) s t) ∧
  (∀ (f tick : Nat) (xs l : List (Nat × Nat)) (s : State), FldServed f s → blocksAll s.m f xs = some l →
      Seals (l.map (fun b => extItem b.2 0)) (l.map (fun b => .released f b.1 b.2)) (expandTick s.time.now.toNat tick + 16000) s →
    ∃ t, exec (.releaseDynamicCapacity f tick xs) s = .next t ∧
      Sealed (l.map (fun b => extItem b.2 0)) (l.map (fun b => .released f b.1 b.2)) (expandTick s.time.now.toNat tick + 16000) s t ∧
      Answers (.fld f) .success [] [] s t ∧ Frame [.amd, .replies, .logs] (isReg (sealRegs ++ watchRegs)) s t) ∧
  (∀ (who : Iface) (f : Nat) (xs l : List (Nat × Nat)) (s : State), CciServed who s → blocksAll s.m f xs = some l →
      Seals (l.map (fun b => extItem b.2 1)) (l.map (fun b => .offer f b.2)) (s.time.now.toNat + 16000) (noteServed s) →
    ∃ t, exec (.initiateDynamicCapacityAdd who f true xs) s = .next t ∧
      Sealed (l.map (fun b => extItem b.2 1)) (l.map (fun b => .offer f b.2)) (s.time.now.toNat + 16000) s t ∧
      Answers who .success [] [] s t ∧ MgmtFrame [.amd] sealRegs s t) ∧
  (∀ (who : Iface) (f : Nat) (xs l : List (Nat × Nat)) (s : State), CciServed who s → blocksAll s.m f xs = some l →
      ((cciOf s.m who).bg).any (fun b => !b.done) = false →
      Seals (l.map (fun b => extItem b.2 3)) (l.map (fun b => .recall f b.2)) (s.time.now.toNat + 16000) (noteServed s) →
    ∃ t, exec (.initiateDynamicCapacityRelease who f true false xs) s = .next t ∧
      Sealed (l.map (fun b => extItem b.2 3)) (l.map (fun b => .recall f b.2)) (s.time.now.toNat + 16000) s t ∧
      (cciOf t.m who).bg = some ⟨0x5605, l.isEmpty, .success, f, l.map (·.2)⟩ ∧ Answers who .background [] [] s t ∧
      MgmtFrame [.amd, .cci] sealRegs s t) ∧
  (∀ (who : Iface) (p v q f : Nat) (s : State), CciServed who s → role s.m p = 1 → gfb s.m F.TEN_PORT_MODEL_MODEL [p] = false →
      1 ≤ v → v ≤ 32 → fldAt s.m p (v - 1) = some f → Seals [] [.bind f] (s.time.now.toNat + 16000) (noteServed s) →
    ∃ t, exec (.bindVppb who p v q) s = .next t ∧ Sealed [] [.bind f] (s.time.now.toNat + 16000) s t ∧ Answers who .success [] [] s t ∧
      MgmtFrame [.amd] sealRegs s t) ∧
  (∀ (who : Iface) (p v q : Nat) (s : State), CciServed who s → role s.m p = 1 → gfb s.m F.TEN_PORT_MODEL_MODEL [p] = false →
      33 ≤ v → v ≤ 48 → role s.m q = 2 → tget 0 s.m.vppb (64 * p + v) = 0 → s.m.vppb.any (fun x => x.2 == q + 1) = false →
      Seals [] [.bindPort p v (q + 1)] (s.time.now.toNat + 16000) (noteServed s) →
    ∃ t, exec (.bindVppb who p v q) s = .next t ∧ Sealed [] [.bindPort p v (q + 1)] (s.time.now.toNat + 16000) s t ∧
      Answers who .success [] [] s t ∧ MgmtFrame [.amd] sealRegs s t) ∧
  (∀ (who : Iface) (p v opt f : Nat) (s : State), CciServed who s → role s.m p = 1 → gfb s.m F.TEN_PORT_MODEL_MODEL [p] = false →
      1 ≤ v → v ≤ 32 → opt ≤ 2 → fldAt s.m p (v - 1) = some f → Seals [] [.unbind f] (s.time.now.toNat + 16000) (noteServed s) →
    ∃ t, exec (.unbindVppb who p v opt) s = .next t ∧ Sealed [] [.unbind f] (s.time.now.toNat + 16000) s t ∧
      Answers who .success [] [] s t ∧ MgmtFrame [.amd] sealRegs s t) ∧
  (∀ (who : Iface) (f r bsz : Nat) (sor : Bool) (s : State), CciServed who s → r < 8 → bsz ≤ 9 → f < 4096 →
      Seals [⟨BitVec.ofNat 64 (bsz * 2 ^ 60 + b2n sor), BitVec.ofNat 64 (15 * 2 ^ 60 + 1), regAddr Reg.TEN_RGN_CFG [f, r]⟩] []
        (s.time.now.toNat + 16000) (noteServed s) →
    ∃ t, exec (.setDcRegionConfiguration who f r bsz sor) s = .next t ∧
      Sealed [⟨BitVec.ofNat 64 (bsz * 2 ^ 60 + b2n sor), BitVec.ofNat 64 (15 * 2 ^ 60 + 1), regAddr Reg.TEN_RGN_CFG [f, r]⟩] []
        (s.time.now.toNat + 16000) s t ∧ Answers who .success [] [] s t ∧ MgmtFrame [.amd] sealRegs s t)

/-- R230, R251: a released block's sanitize starts as a parcel of the Postmaster once every earlier request of its FLD is done;
PENDING of the guard barrier is set and cleared by its write, and clears when the barrier completes. What rests on the model's own
choices: log entries 59 and 191. -/
def Obligations.SanitizeAndBarrier : Prop :=
  (∀ (e f r e' tick : Nat) (s : State), s.m.eng.toSanitize.find? (fun x => x.2.2.1 == e) = some (f, r, e', tick) →
      earlierDone s.m f tick = true →
    ∀ m : Mach, m = { s.m with eng := { s.m.eng with toSanitize := s.m.eng.toSanitize.filter (fun x => x.2.2.1 != e) } } →
      exec (.sanitizeOnRelease e) s = .next { s with
        m := admitParcel s.time.now.toNat m f 0 (sanitizeDesc (gf m F.TEN_EXT_POOL [e] * 2 ^ 21) (blockSize m f r / 64)) s.time.now.toNat 2
          true e }) ∧
  (∀ (e f r e' tick : Nat) (s : State), s.m.eng.toSanitize.find? (fun x => x.2.2.1 == e) = some (f, r, e', tick) →
      earlierDone s.m f tick = false → exec (.sanitizeOnRelease e) s = .next s) ∧
  (∀ (v : Bool) (s : State), ∃ t, exec (.grdBarrier v) s = .next t ∧ gf t.m F.GRD_BARRIER_PENDING [] = b2n v ∧
    t.m.amd = { s.m.amd with rules := s.m.amd.rules.map (fun x => { x with covered := v }) } ∧
    Frame [.amd] (isReg [(Reg.GRD_BARRIER, [])]) s t) ∧
  (∀ s : State, gf s.m F.GRD_BARRIER_PENDING [] = 1 → ∃ t, exec .barrierComplete s = .next t ∧ gf t.m F.GRD_BARRIER_PENDING [] = 0 ∧
    t.m.amd = { s.m.amd with rules := s.m.amd.rules.filter (fun x => !x.covered) } ∧ Frame [.amd] (isReg [(Reg.GRD_BARRIER, [])]) s t)

/-! ### Chapters 16, 21: MCTP, PLDM, I3C and SPDM -/

/-- R359 to R361: the I3C controller gives the target an address; an endpoint ID and a terminus ID are kept as assigned and
answered; a numeric sensor answers what it shows, and the 10 ms update shows the sensors in INL_MEAS and to PLDM. What rests on the model's own
choices: log entries 124 and 125. -/
def Obligations.SensorsAndTransports : Prop :=
  (∀ (a : Nat) (s : State), s.m.inl.on = true → s.m.fw.recovery = false → a % 128 ≠ 0 →
    ∃ t, exec (.i3cDynamicAddressAssignment a) s = .next t ∧ t.m.i3cAddr = a % 128 ∧ Frame [.i3cAddr] (fun _ => false) s t) ∧
  (∀ (who : Iface) (e : Nat) (s : State), mctp who = true → Served who s →
    ∃ t, exec (.mctpControl who (.setEid e)) s = .next t ∧ tget 0 t.m.eids (cciKey who) = e % 256 ∧ Answers who .success [e % 256] [] s t ∧
      Frame [.eids, .replies, .fw] (fun _ => false) s t) ∧
  (∀ (who : Iface) (s : State), mctp who = true → Served who s →
    ∃ t, exec (.mctpControl who .getEid) s = .next t ∧ Answers who .success [tget 0 s.m.eids (cciKey who)] [] s t ∧
      Frame [.replies, .fw] (fun _ => false) s t) ∧
  (∀ (who : Iface) (k : Nat) (s : State), mctp who = true → Served who s →
    ∃ t, exec (.pldmRequest who (.setTid k)) s = .next t ∧ tget 0 t.m.tids (cciKey who) = k % 256 ∧ Answers who .success [] [] s t ∧
      Frame [.tids, .replies, .fw] (fun _ => false) s t) ∧
  (∀ (who : Iface) (n v : Nat) (s : State), mctp who = true → Served who s → sensorReading s.m n = some v →
    ∃ t, exec (.pldmRequest who (.getReading n)) s = .next t ∧ Answers who .success [v] [] s t ∧ Frame [.replies, .fw] (fun _ => false) s t) ∧
  (∀ (v : Sensors) (s : State), s.m.inl.on = true →
    ∃ t, exec (.sensorUpdate v) s = .next t ∧ gf t.m F.INL_MEAS_VIN [] = min v.vin 65535 ∧ gf t.m F.INL_MEAS_VOUT [] = min v.vout 65535 ∧
      gf t.m F.INL_MEAS_IIN [] = min v.iin 65535 ∧ gf t.m F.INL_MEAS_PIN [] = min v.pin 65535 ∧
      gf t.m F.INL_THERM_TJ [] = signedField v.tj ∧
      sensorReading t.m 10 = some (min v.vin 65535) ∧ sensorReading t.m 12 = some (min v.pin 65535) ∧
      sensorReading t.m 8 = some (degrees (v.hbm.getD 7 0)) ∧ sensorState t.m 13 = some (gf s.m F.INL_STATUS_STATE []) ∧
      Frame [.sensed, .logs] (isReg ([(Reg.INL_MEAS, []), (Reg.INL_THERM, [])] ++ watchRegs)) s t)

/-- R448, R450, R451: the responder answers its versions, takes a version, opens a session on a good FINISH and ends it; it measures
the life cycle, the security version and the owner; and the owner's chain is installed in a session whose requester has
authenticated itself alone. What rests on the model's own choices: log entry 127. -/
def Obligations.SpdmResponderAnswers : Prop :=
  (∀ (who : Iface) (s : State), spdmReaches s who = true → s.m.fw.handEnd = 0 →
    (∃ t, exec (.spdmRequest who .getVersion) s = .next t ∧ Answers who .success [0x12, 0x13] [] s t ∧
      Frame [.sec, .replies] (fun _ => false) s t) ∧
    (∀ v, 0x12 ≤ v → ∃ t, exec (.spdmRequest who (.getCapabilities v)) s = .next t ∧ Answers who .success [min v 0x13] [] s t ∧
      (connOf who, min v 0x13) ∈ t.m.sec.versions ∧ Frame [.sec, .replies] (fun _ => false) s t) ∧
    (s.m.sec.opening.contains (connOf who) = true →
      ∃ t, exec (.spdmRequest who (.finish true true)) s = .next t ∧ Answers who .success [] [] s t ∧
        t.m.sec.sessions.contains (connOf who) = true ∧ t.m.sec.mutual_.contains (connOf who) = true ∧
        Frame [.sec, .replies] (fun _ => false) s t) ∧
    (s.m.sec.sessions.contains (connOf who) = true →
      ∃ t, exec (.spdmRequest who .endSession) s = .next t ∧ Answers who .success [] [] s t ∧
        t.m.sec.sessions.contains (connOf who) = false ∧ Frame [.sec, .replies] (fun _ => false) s t) ∧
    (∃ t, exec (.getMeasurements who 0) s = .next t ∧ Answers who .success [7] [] s t ∧ Frame [.replies] (fun _ => false) s t) ∧
    (∃ t, exec (.getMeasurements who 6) s = .next t ∧
      Answers who .success [6, gf s.m F.SEC_LIFECYCLE_STATE [], s.nvm.minSvn, gf s.m F.SEC_OWNER_OWNER []] [] s t ∧
      Frame [.replies] (fun _ => false) s t)) ∧
  (∀ (who : Iface) (chain : List Byte) (s : State), spdmReaches s who = true → s.m.fw.handEnd = 0 → chain ≠ [] →
      s.m.sec.sessions.contains (connOf who) = true → s.m.sec.mutual_.contains (connOf who) = true →
    ∃ t, exec (.setCertificate who 1 chain) s = .next t ∧ t.nvm = { s.nvm with ownerChain := chain } ∧
      gf t.m F.SEC_OWNER_CHAIN1 [] = 1 ∧ Answers who .success [] [] s t ∧ Frame [.nvm, .replies] (isReg [(Reg.SEC_OWNER, [])]) s t) ∧
  (∀ (who : Iface) (slot : Nat) (chain : List Byte) (s : State), spdmReaches s who = true → s.m.fw.handEnd = 0 →
      s.m.sec.mutual_.contains (connOf who) = false →
    ∃ t, exec (.setCertificate who slot chain) s = .next t ∧ Answers who .invalidInput [] [] s t ∧ Frame [.replies] (fun _ => false) s t)

/-- R453: keys set up over DOE make the named streams of a port Secure; a failed check makes them Insecure and takes the link down.
What rests on the model's own choices: log entry 130. -/
def Obligations.IdeStreams : Prop :=
  (∀ (p : Nat) (cm link : Bool) (sel : Nat) (s : State), p < 128 → spdmReaches s (.doe p) = true →
      (role s.m p = 2 ∨ s.m.sec.sessions.contains (.doe p) = true) →
    ∃ t, exec (.ideKm p cm link sel) s = .next t ∧
      gf t.m F.SEC_IDE_STATUS_CM_SECURE [p] = (if cm then 1 else gf s.m F.SEC_IDE_STATUS_CM_SECURE [p]) ∧
      gf t.m F.SEC_IDE_STATUS_LINK_SECURE [p] = (if link then 1 else gf s.m F.SEC_IDE_STATUS_LINK_SECURE [p]) ∧
      gf t.m F.SEC_IDE_STATUS_SEL_SECURE [p] = gf s.m F.SEC_IDE_STATUS_SEL_SECURE [p] ||| sel % 16 ∧
      Frame [.ports] (isReg [(Reg.SEC_IDE_STATUS, [p])]) s t) ∧
  (∀ (p : Nat) (s : State), portExists s.m p = true → (role s.m p = 1 ∨ role s.m p = 2) → ideActive s.m p = true →
      gfb s.m F.STN_LINK_STATUS_DL_UP (st p) = true →
    ∃ t, exec (.ideCheckFailure p) s = .next t ∧ ideActive t.m p = false ∧ gf t.m F.SEC_IDE_STATUS_IDE_FAIL [p] = 1 ∧
      gf t.m F.STN_LINK_STATUS_DL_UP (st p) = 0)

/-! ### Chapter 17: firmware update -/

/-- R385 to R388: a firmware transfer: BEGIN empties the slot that does not run; a part is written, or held while it lies in the
first 4 KiB; END verifies the bundle and gives the slot state 1, or fails with its REASON and leaves the slot empty; ABORT ends it
with 0x80C. What rests on the model's own choices: log entry 136. -/
def Obligations.FirmwareTransfer : Prop :=
  (∀ (mac : Nat) (sess : Bool) (seq len ticket : Nat) (s : State), BrumServed { writes := true, rom := true } mac sess seq s →
      tokenBars s (.brumin mac sess) = false → fwBeginBad s.m len = none →
    ∃ t, exec (.fwBegin (.brumin mac sess) seq len ticket) s = .next t ∧ t.m.fw.xfer = some (targetSlot s.m, len) ∧ t.m.fw.got = [] ∧
      rd t.m Reg.MBX_FW_XFER_STATUS [] = statusWord ticket 2 0 0 ∧ (fwRecord t.mram (targetSlot s.m)).1 = 0 ∧
      mread t.mram (fwSlot (targetSlot s.m)) 4 = [0, 0, 0, 0] ∧ BrumAnswers mac sess seq { whom := .i3c } s t ∧
      BrumFrame [.mram] [(Reg.MBX_FW_XFER_STATUS, [])] s t) ∧
  (∀ (mac : Nat) (sess : Bool) (seq idx k len : Nat) (body : List Byte) (s : State), BrumServed { writes := true, rom := true } mac sess seq s →
      tokenBars s (.brumin mac sess) = false → s.m.fw.xfer = some (k, len) → body.length = 1024 → 1024 * idx < len → 4 ≤ idx →
    ∃ t, exec (.fwData (.brumin mac sess) seq idx body) s = .next t ∧ mread t.mram (fwSlot k + 1024 * idx) 1024 = body ∧
      MramKeptOutside (fwSlot k + 1024 * idx) 1024 s t ∧ t.m.fw.got = addPart s.m.fw.got idx ∧ t.m.fw.held = s.m.fw.held ∧
      BrumFrame [.mram] [(Reg.MBX_FW_XFER_STATUS, [])] s t) ∧
  (∀ (mac : Nat) (sess : Bool) (seq idx k len : Nat) (body : List Byte) (s : State), BrumServed { writes := true, rom := true } mac sess seq s →
      tokenBars s (.brumin mac sess) = false → s.m.fw.xfer = some (k, len) → body.length = 1024 → 1024 * idx < len → idx < 4 →
    ∃ t, exec (.fwData (.brumin mac sess) seq idx body) s = .next t ∧ t.m.fw.got = addPart s.m.fw.got idx ∧
      t.m.fw.held = holdPart s.m.fw.held idx body ∧ BrumFrame [] [(Reg.MBX_FW_XFER_STATUS, [])] s t) ∧
  (∀ (mac : Nat) (sess : Bool) (seq k len : Nat) (sig : Bool) (f : BootFacts) (s : State),
      BrumServed { writes := true, rom := true } mac sess seq s → tokenBars s (.brumin mac sess) = false → s.m.fw.xfer = some (k, len) →
      fwEndFault s (withHeld s.mram k s.m.fw) k len sig ≠ 0 →
    ∃ t, exec (.fwEnd (.brumin mac sess) seq sig f) s = .next t ∧ t.m.fw.xfer = none ∧ gf t.m F.MBX_FW_XFER_STATUS_STATE [] = 4 ∧
      gf t.m F.MBX_FW_XFER_STATUS_REASON [] = fwEndFault s (withHeld s.mram k s.m.fw) k len sig ∧
      BrumFrame [] [(Reg.MBX_FW_XFER_STATUS, [])] s t) ∧
  (∀ (mac : Nat) (sess : Bool) (seq k len : Nat) (sig : Bool) (f : BootFacts) (s : State),
      BrumServed { writes := true, rom := true } mac sess seq s → tokenBars s (.brumin mac sess) = false → s.m.fw.xfer = some (k, len) →
      fwEndFault s (withHeld s.mram k s.m.fw) k len sig = 0 → s.m.fw.recovery = false →
    ∃ t, exec (.fwEnd (.brumin mac sess) seq sig f) s = .next t ∧ t.m.fw.xfer = none ∧ gf t.m F.MBX_FW_XFER_STATUS_STATE [] = 3 ∧
      (fwRecord t.mram k).1 = 1 ∧ BrumFrame [.mram] [(Reg.MBX_FW_XFER_STATUS, [])] s t) ∧
  (∀ (mac : Nat) (sess : Bool) (seq k len : Nat) (sig : Bool) (f : BootFacts) (s : State),
      BrumServed { writes := true, rom := true } mac sess seq s → tokenBars s (.brumin mac sess) = false → s.m.fw.xfer = some (k, len) →
      fwEndFault s (withHeld s.mram k s.m.fw) k len sig = 0 → s.m.fw.recovery = true → powered s.m = false →
    ∃ t, exec (.fwEnd (.brumin mac sess) seq sig f) s = .next t ∧ t.m.fw.xfer = none ∧ t.m.fw.recovery = false ∧ t.m.fw.run = k ∧
      (fwRecord t.mram k).1 = 3) ∧
  (∀ (mac : Nat) (sess : Bool) (seq k len : Nat) (s : State), BrumServed { writes := true, rom := true } mac sess seq s →
      tokenBars s (.brumin mac sess) = false → s.m.fw.xfer = some (k, len) → s.m.fw.act = 0 →
    ∃ t, exec (.fwAbort (.brumin mac sess) seq) s = .next t ∧ t.m.fw.xfer = none ∧ gf t.m F.MBX_FW_XFER_STATUS_STATE [] = 5 ∧
      gf t.m F.MBX_FW_XFER_STATUS_REASON [] = 0x80C ∧ BrumFrame [] [(Reg.MBX_FW_XFER_STATUS, [])] s t)

/-- R389 to R391: ACTIVATE is accepted for a complete slot; with the Courier links settled, and a standby pair, it boots that pair
(step 2), and otherwise it waits, for 1 s at most; when the standby has booted the handover begins (step 3); a failed boot ends it
with 0x809. What rests on the model's own choices: log entry 137. -/
def Obligations.FirmwareActivation : Prop :=
  (∀ (mac : Nat) (sess : Bool) (seq ticket : Nat) (s : State), BrumServed { writes := true, rom := true } mac sess seq s →
      tokenBars s (.brumin mac sess) = false → activateBad (bruminSeen mac s) (targetSlot s.m) = none → unsettled s.m = true →
    ∃ t, exec (.fwActivate (.brumin mac sess) seq ticket) s = .next t ∧ t.m.fw.act = 1 ∧ t.m.fw.actSlot = targetSlot s.m ∧
      t.m.fw.actAt = s.time.now.toNat ∧ rd t.m Reg.MBX_FW_ACT_STATUS [] = statusWord ticket 1 0 1 ∧
      BrumFrame [] [(Reg.MBX_FW_ACT_STATUS, [])] s t) ∧
  (∀ (mac : Nat) (sess : Bool) (seq ticket : Nat) (s : State), BrumServed { writes := true, rom := true } mac sess seq s →
      tokenBars s (.brumin mac sess) = false → activateBad (bruminSeen mac s) (targetSlot s.m) = none → unsettled s.m = false →
      2 ≤ gf s.m F.RAS_AVAIL_PM_PAIRS [] → s.m.fw.faulted = 0 →
    ∃ t, exec (.fwActivate (.brumin mac sess) seq ticket) s = .next t ∧ t.m.fw.act = 2 ∧ t.m.fw.actSlot = targetSlot s.m ∧
      gf t.m F.MBX_FW_ACT_STATUS_STATE [] = 1 ∧ gf t.m F.MBX_FW_ACT_STATUS_DONE_UNITS [] = 2 ∧
      BrumFrame [] [(Reg.MBX_FW_ACT_STATUS, [])] s t) ∧
  (∀ s : State, s.m.fw.act = 1 → unsettled s.m = true → s.m.fw.actAt + 4000000000 ≤ s.time.now.toNat →
    ∃ t, exec .courierSettleTimeout s = .next t ∧ t.m.fw = { s.m.fw with act := 0 } ∧ gf t.m F.MBX_FW_ACT_STATUS_STATE [] = 4 ∧
      gf t.m F.MBX_FW_ACT_STATUS_REASON [] = 0x808 ∧ Frame [.fw, .logs] (isReg ([(Reg.MBX_FW_ACT_STATUS, [])] ++ watchRegs)) s t) ∧
  (∀ (sig : Bool) (s : State), s.m.fw.act = 2 → fwPasses s s.m.fw.actSlot sig = true →
    ∃ t, exec (.standbyBootDone true sig) s = .next t ∧
      t.m.fw = { s.m.fw with act := 3, handEnd := s.time.now.toNat + handoverTicks + 1, sessions := sessionPorts s.m } ∧
      gf t.m F.MBX_STATUS_HANDOVER [] = 1 ∧ gf t.m F.MBX_FW_ACT_STATUS_DONE_UNITS [] = 3 ∧
      Frame [.fw, .logs] (isReg ([(Reg.MBX_FW_ACT_STATUS, []), (Reg.MBX_STATUS, [])] ++ watchRegs)) s t) ∧
  (∀ (ok sig : Bool) (s : State), s.m.fw.act = 2 → (ok && fwPasses s s.m.fw.actSlot sig) = false →
    ∃ t, exec (.standbyBootDone ok sig) s = .next t ∧ t.m.fw = { s.m.fw with act := 0 } ∧ gf t.m F.MBX_FW_ACT_STATUS_STATE [] = 4 ∧
      gf t.m F.MBX_FW_ACT_STATUS_REASON [] = 0x809 ∧ Frame [.fw, .logs] (isReg ([(Reg.MBX_FW_ACT_STATUS, [])] ++ watchRegs)) s t)

/-- R384, R389, R392, R394: a healthy trial is committed: its slot takes state 3, the other state 4, and the minimum security
version rises to the bundle's floor (step 5); without a report in 10 s the pairs change back and the slot is rejected; then the
standby reloads (step 6) and the microcode rolls out (step 7), until a load fails. What rests on the model's own choices: log
entries 91 and 99. -/
def Obligations.FirmwareTrialAndRollout : Prop :=
  (∀ s : State, s.m.fw.act = 4 → s.m.fw.handEnd = 0 → trialFit s.m = true → s.m.fw.actSlot < 2 →
    ∃ t, exec (.fwHealthy true) s = .next t ∧ t.m.fw = { s.m.fw with act := 6 } ∧ gf t.m F.MBX_FW_ACT_STATUS_STATE [] = 3 ∧
      gf t.m F.MBX_FW_ACT_STATUS_DONE_UNITS [] = 5 ∧ (fwRecord t.mram s.m.fw.actSlot).1 = 3 ∧ (fwRecord t.mram (1 - s.m.fw.actSlot)).1 = 4 ∧
      t.nvm = { s.nvm with minSvn := max s.nvm.minSvn (fwFloor (fwHeader s.mram s.m.fw.actSlot)) }) ∧
  (∀ s : State, s.m.fw.act = 4 → s.m.fw.actAt + 40000000000 ≤ s.time.now.toNat →
    ∃ t, exec .fwHealthTimeout s = .next t ∧ t.m.fw = { s.m.fw with act := 5, handEnd := s.time.now.toNat + handoverTicks + 1 } ∧
      gf t.m F.MBX_STATUS_HANDOVER [] = 1 ∧ gf t.m F.MBX_FW_ACT_STATUS_STATE [] = 4 ∧ gf t.m F.MBX_FW_ACT_STATUS_REASON [] = 0x80A ∧
      (fwRecord t.mram s.m.fw.actSlot).1 = 5 ∧
      Frame [.fw, .logs, .mram] (isReg ([(Reg.MBX_FW_ACT_STATUS, []), (Reg.MBX_STATUS, [])] ++ watchRegs)) s t) ∧
  (∀ s : State, s.m.fw.act = 6 →
    ∃ t, exec .standbyReloadDone s = .next t ∧ t.m.fw = { s.m.fw with act := if (staleStations s.m).isEmpty then 0 else 7 } ∧
      gf t.m F.MBX_FW_ACT_STATUS_DONE_UNITS [] = 7 ∧ Frame [.fw, .logs] (isReg ([(Reg.MBX_FW_ACT_STATUS, [])] ++ watchRegs)) s t) ∧
  (∀ (k : Nat) (s : State), s.m.fw.act = 7 → (staleStations s.m).head? = some k →
    ∃ t, exec (.ucodeStationLoad k true) s = .next t ∧ tget 0 t.m.fw.ucode k = gf s.m F.MBX_FW_UCODE_UC_VERSION [] + 1 ∧
      (∀ j, j ≠ k → tget 0 t.m.fw.ucode j = tget 0 s.m.fw.ucode j) ∧
      Frame [.fw, .logs] (isReg ([(Reg.MBX_FW_ACT_STATUS, [])] ++ watchRegs)) s t) ∧
  (∀ (k : Nat) (s : State), s.m.fw.act = 7 → (staleStations s.m).head? = some k →
    ∃ t, exec (.ucodeStationLoad k false) s = .next t ∧ t.m.fw = { s.m.fw with act := 0 } ∧ gf t.m F.MBX_FW_ACT_STATUS_STATE [] = 4 ∧
      gf t.m F.MBX_FW_ACT_STATUS_REASON [] = 0x80E ∧ Frame [.fw, .logs] (isReg ([(Reg.MBX_FW_ACT_STATUS, [])] ++ watchRegs)) s t)

/-! ### Chapter 18: monitoring -/

/-- R398, R401 to R405, R407, R441, R321: counters are written, cleared and frozen; at the end of a window the bytes of every port become readable
with one new WSEQ; a new window length discards what accumulates, the next window begins at the first multiple of it, and with WIN 0
none completes; a write of PMU_TRK_CFG that turns Tracking on reseeds every source; a HEAD
moves forward to at most TAIL, and any other write of it is discarded and counted. -/
def Obligations.MonitoringCommands : Prop :=
  (∀ (c v : Nat) (s : State), c < 2048 →
    ∃ t, exec (.ctrValueWrite c v) s = .next t ∧ gf t.m F.PMU_CTR_VAL_VALUE [c] = v % 2 ^ 48 ∧ Frame [] (isReg [(Reg.PMU_CTR_VAL, [c])]) s t) ∧
  (∀ s : State, ∃ t, exec .pmuClear s = .next t ∧ (∀ c, c < 2048 → gf t.m F.PMU_CTR_VAL_VALUE [c] = 0) ∧
    Frame [] (isReg ((List.range 2048).map (fun c => (Reg.PMU_CTR_VAL, [c])))) s t) ∧
  (∀ (on : Bool) (s : State), ∃ t, exec (.pmuFreeze on) s = .next t ∧ gf t.m F.PMU_CTL_FREEZE [] = b2n on ∧
    Frame [] (isReg [(Reg.PMU_CTL, [])]) s t) ∧
  (∀ (w : Nat) (s : State), bwLen s.m ≠ 0 → s.time.now.toNat / bwLen s.m = w + 1 → s.m.pmu.bwNext = (w + 1) * bwLen s.m →
    ∃ t, exec .bwWindowEnd s = .next t ∧
      (∀ p, p < 128 → gf t.m F.PMU_BW_IN_WSEQ [p] = (gf s.m F.PMU_BW_IN_WSEQ [0] + 1) % 65536 ∧
        gf t.m F.PMU_BW_OUT_WSEQ [p] = (gf s.m F.PMU_BW_IN_WSEQ [0] + 1) % 65536 ∧
        gf t.m F.PMU_BW_IN_BYTES [p] = tget 0 s.m.pmu.bw (bwKey w p 0) % 2 ^ 48 ∧
        gf t.m F.PMU_BW_OUT_BYTES [p] = tget 0 s.m.pmu.bw (bwKey w p 1) % 2 ^ 48) ∧
      t.m.pmu = { s.m.pmu with bw := s.m.pmu.bw.filter (fun x => decide (w < x.1 / 256)), bwNext := (w + 2) * bwLen s.m } ∧
      Frame [.pmu] (isReg ((List.range 128).map (fun p => (Reg.PMU_BW_IN, [p])) ++ (List.range 128).map (fun p => (Reg.PMU_BW_OUT, [p])))) s t) ∧
  (∀ (win : Nat) (s : State), win ≤ 1000000 →
    ∃ t, exec (.bwWinChange win) s = .next t ∧ gf t.m F.PMU_BW_CFG_WIN [] = win ∧ t.m.pmu.bw = [] ∧
      (win ≠ 0 → ∃ b, t.m.pmu.bwNext = b + win * 4000 ∧ b % (win * 4000) = 0 ∧ s.time.now.toNat ≤ b ∧ b < s.time.now.toNat + win * 4000) ∧
      Frame [.pmu] (isReg [(Reg.PMU_BW_CFG, [])]) s t) ∧
  (∀ (w : Word) (s : State), trkReserved s.m w = false → getBits w 63 63 = 1 → gf s.m F.PMU_TRK_CFG_EN [] = 0 →
    ∃ t, exec (.trackingReseed w) s = .next t ∧ t.m.pmu = { s.m.pmu with lfsr := [] } ∧ gf t.m F.PMU_TRK_CFG_EN [] = 1 ∧
      Frame [.pmu] (isReg [(Reg.PMU_TRK_CFG, [])]) s t) ∧
  (∀ (w : Word) (s : State), trkReserved s.m w = false → BitVec.ofNat 64 (w.toNat &&& Reg.PMU_TRK_CFG.rw) = rd s.m Reg.PMU_TRK_CFG [] →
    ∃ t, exec (.trackingReseed w) s = .next t ∧ t.m.pmu = s.m.pmu ∧ rd t.m Reg.PMU_TRK_CFG [] = rd s.m Reg.PMU_TRK_CFG [] ∧
      Frame [] (isReg [(Reg.PMU_TRK_CFG, [])]) s t) ∧
  (∀ (v : Nat) (s : State), (v % 8192 + 8192 - gf s.m F.PMU_TRK_PTR_HEAD []) % 8192 ≤ (gf s.m F.PMU_TRK_PTR_TAIL [] + 8192 - gf s.m F.PMU_TRK_PTR_HEAD []) % 8192 →
    ∃ t, exec (.trkHeadWrite v) s = .next t ∧ gf t.m F.PMU_TRK_PTR_HEAD [] = v % 8192 ∧ Frame [] (isReg [(Reg.PMU_TRK_PTR, [])]) s t) ∧
  (∀ (v : Nat) (s : State), (gf s.m F.PMU_TRK_PTR_TAIL [] + 8192 - gf s.m F.PMU_TRK_PTR_HEAD []) % 8192 < (v % 8192 + 8192 - gf s.m F.PMU_TRK_PTR_HEAD []) % 8192 →
    ∃ t, exec (.trkHeadWrite v) s = .next t ∧ gf t.m F.RAS_MGMT_ERR_DISCARD [] = (gf s.m F.RAS_MGMT_ERR_DISCARD [] + 1) % 65536 ∧
      Frame [] (isReg [(Reg.RAS_MGMT_ERR, [])]) s t) ∧
  (∀ (slot lap : Nat) (s : State), slot < gf s.m F.PMU_RD_CFG_CAP [] → slot < 2 ^ 27 →
      (rdPos (gf s.m F.PMU_RD_CFG_CAP []) slot (lap % 2) + 2 * gf s.m F.PMU_RD_CFG_CAP [] -
          rdPos (gf s.m F.PMU_RD_CFG_CAP []) (gf s.m F.PMU_RD_PTR_HEAD []) (gf s.m F.PMU_RD_PTR_HEAD_LAP [])) % (2 * gf s.m F.PMU_RD_CFG_CAP []) ≤
        (rdPos (gf s.m F.PMU_RD_CFG_CAP []) (gf s.m F.PMU_RD_PTR_TAIL []) (gf s.m F.PMU_RD_PTR_TAIL_LAP []) + 2 * gf s.m F.PMU_RD_CFG_CAP [] -
          rdPos (gf s.m F.PMU_RD_CFG_CAP []) (gf s.m F.PMU_RD_PTR_HEAD []) (gf s.m F.PMU_RD_PTR_HEAD_LAP [])) % (2 * gf s.m F.PMU_RD_CFG_CAP []) →
    ∃ t, exec (.rdHeadWrite slot lap) s = .next t ∧ gf t.m F.PMU_RD_PTR_HEAD [] = slot ∧ gf t.m F.PMU_RD_PTR_HEAD_LAP [] = lap % 2 ∧
      Frame [] (isReg [(Reg.PMU_RD_PTR, [])]) s t) ∧
  (∀ (slot lap : Nat) (s : State), (gf s.m F.PMU_RD_CFG_CAP [] ≤ slot ∨
      (rdPos (gf s.m F.PMU_RD_CFG_CAP []) (gf s.m F.PMU_RD_PTR_TAIL []) (gf s.m F.PMU_RD_PTR_TAIL_LAP []) + 2 * gf s.m F.PMU_RD_CFG_CAP [] -
          rdPos (gf s.m F.PMU_RD_CFG_CAP []) (gf s.m F.PMU_RD_PTR_HEAD []) (gf s.m F.PMU_RD_PTR_HEAD_LAP [])) % (2 * gf s.m F.PMU_RD_CFG_CAP []) <
        (rdPos (gf s.m F.PMU_RD_CFG_CAP []) slot (lap % 2) + 2 * gf s.m F.PMU_RD_CFG_CAP [] -
          rdPos (gf s.m F.PMU_RD_CFG_CAP []) (gf s.m F.PMU_RD_PTR_HEAD []) (gf s.m F.PMU_RD_PTR_HEAD_LAP [])) % (2 * gf s.m F.PMU_RD_CFG_CAP [])) →
    ∃ t, exec (.rdHeadWrite slot lap) s = .next t ∧ gf t.m F.RAS_MGMT_ERR_DISCARD [] = (gf s.m F.RAS_MGMT_ERR_DISCARD [] + 1) % 65536 ∧
      Frame [] (isReg ([(Reg.RAS_MGMT_ERR, [])])) s t) ∧
  (∀ (v : Nat) (s : State), (v % 8192 + 8192 - gf s.m F.RAS_LOG_PTR_HEAD []) % 8192 ≤ (gf s.m F.RAS_LOG_PTR_TAIL [] + 8192 - gf s.m F.RAS_LOG_PTR_HEAD []) % 8192 →
    ∃ t, exec (.rasLogHeadWrite v) s = .next t ∧ gf t.m F.RAS_LOG_PTR_HEAD [] = v % 8192 ∧ Frame [.logs] (isReg watchRegs) s t) ∧
  (∀ (v : Nat) (s : State), (gf s.m F.RAS_LOG_PTR_TAIL [] + 8192 - gf s.m F.RAS_LOG_PTR_HEAD []) % 8192 < (v % 8192 + 8192 - gf s.m F.RAS_LOG_PTR_HEAD []) % 8192 →
    ∃ t, exec (.rasLogHeadWrite v) s = .next t ∧ gf t.m F.RAS_MGMT_ERR_DISCARD [] = (gf s.m F.RAS_MGMT_ERR_DISCARD [] + 1) % 65536 ∧
      Frame [.logs] (isReg ([(Reg.RAS_MGMT_ERR, [])] ++ watchRegs)) s t) ∧
  (∀ (v : Nat) (s : State), (v % 4096 + 4096 - gf s.m F.RAS_DL_PTR_HEAD []) % 4096 ≤ (gf s.m F.RAS_DL_PTR_TAIL [] + 4096 - gf s.m F.RAS_DL_PTR_HEAD []) % 4096 →
    ∃ t, exec (.dlHeadWrite v) s = .next t ∧ gf t.m F.RAS_DL_PTR_HEAD [] = v % 4096 ∧ Frame [.logs] (isReg watchRegs) s t) ∧
  (∀ (v : Nat) (s : State), (gf s.m F.RAS_DL_PTR_TAIL [] + 4096 - gf s.m F.RAS_DL_PTR_HEAD []) % 4096 < (v % 4096 + 4096 - gf s.m F.RAS_DL_PTR_HEAD []) % 4096 →
    ∃ t, exec (.dlHeadWrite v) s = .next t ∧ gf t.m F.RAS_MGMT_ERR_DISCARD [] = (gf s.m F.RAS_MGMT_ERR_DISCARD [] + 1) % 65536 ∧
      Frame [.logs] (isReg ([(Reg.RAS_MGMT_ERR, [])] ++ watchRegs)) s t) ∧
  (∀ s : State, gf s.m F.PMU_BW_CFG_WIN [] = 0 → exec .bwWindowEnd s = .next s)

/-! ### Chapters 19, 20: power domains and reliability -/

/-- R422, R423: a domain that powers reaches the on state; one whose regulator fails while it is on or powering is isolated, with
its event. What rests on the model's own choices: log entry 94. -/
def Obligations.PowerDomainsChange : Prop :=
  (∀ (d : Nat) (s : State), 8 ≤ d → d < 24 → domainState s.m d = 1 →
    ∃ t, exec (.domainPowerOnDone d) s = .next t ∧ domainState t.m d = 2 ∧ (∀ e, e < 24 → e ≠ d → domainState t.m e = domainState s.m e) ∧
      Frame [.logs] (isReg ([(Reg.INL_PD_STATUS, [])] ++ watchRegs)) s t) ∧
  (∀ (d : Nat) (s : State), d < 8 → domainState s.m d = 1 →
    ∃ t, exec (.domainPowerOnDone d) s = .next t ∧ domainState t.m d = 2 ∧
      (∀ k, k < 4 → tget 0 t.m.fw.ucode (4 * d + k) = gf s.m F.MBX_FW_UCODE_UC_VERSION [] + 1)) ∧
  (∀ (d : Nat) (oc lr : Bool) (s : State), 20 ≤ d → d < 24 → (oc = true ∨ lr = true) → (domainState s.m d = 1 ∨ domainState s.m d = 2) →
      gf s.m (planeField (d - 20)) [] ≠ 0 →
    ∃ t, exec (.domainIsolation d oc lr) s = .next t ∧ domainState t.m d = 3 ∧ gf t.m F.INL_EVT_PD_FAIL [] = 1 ∧
      gf t.m F.INL_EVT_LAST_DOMAIN [] = d ∧ Frame [.logs] (isReg ([(Reg.INL_PD_STATUS, []), (Reg.INL_EVT, [])] ++ watchRegs)) s t) ∧
  (∀ (d : Nat) (oc lr : Bool) (s : State), d < 24 → (oc = true ∨ lr = true) → (domainState s.m d = 1 ∨ domainState s.m d = 2) →
    ∃ t, exec (.domainIsolation d oc lr) s = .next t ∧ domainState t.m d = 3 ∧ gf t.m F.INL_EVT_PD_FAIL [] = 1 ∧
      gf t.m F.INL_EVT_LAST_DOMAIN [] = d)

/-- R440, R444, R429: a fatal fault writes its record to the persistent log and sets FATAL; with AUTO_RESET a warm reset is asked
for 10 ms on. The configured bits of a table entry that fails read as zero until the Postmaster has rewritten them, and then as
before. What rests on the model's own choices: log entries 31 and 98. -/
def Obligations.FatalFaultsAndSramEntries : Prop :=
  (∀ (code : Nat) (s : State), 1 ≤ code → code ≤ 4 →
    ∃ t, exec (.fatalFault code) s = .next t ∧ gf t.m F.RAS_ALERT_FATAL [] = 1 ∧
      mread t.mram (plogAddr s.nvm.plogNext) 64 = plogBytes s.time.now.toNat t.m.logs.rasSeq 0x1B 0 code s.nvm.boot ∧
      MramKeptOutside (plogAddr s.nvm.plogNext) 64 s t ∧ t.nvm = { s.nvm with plogNext := (s.nvm.plogNext + 1) % 262144 } ∧
      t.m.resets = (if gfb s.m F.RAS_LOG_CFG_AUTO_RESET && !s.m.resets.any (fun r => r.1 == 4) then
        s.m.resets ++ [(4, s.time.now.toNat + 40000000)] else s.m.resets) ∧
      Frame [.mram, .nvm, .resets, .logs] (isReg ([(Reg.RAS_ALERT, [])] ++ watchRegs)) s t) ∧
  (∀ (addr : Nat) (r : RegDef) (ix : List Nat) (s : State), regFind addr = some (r, ix) → regAddr r ix = addr → r.cfg ≠ 0 → r.cfg < 2 ^ 64 →
      s.m.sram.any (fun x => x.1 == addr) = false →
    ∃ t, exec (.sramUncorrectable addr false) s = .next t ∧
      (isReg watchRegs addr = false → rd t.m r ix = rd s.m r ix &&& ~~~BitVec.ofNat 64 r.cfg) ∧
      tget 0 t.m.sram addr = rd s.m r ix &&& BitVec.ofNat 64 r.cfg ∧
      Frame [.sram, .logs] (isReg ([(r, ix)] ++ watchRegs)) s t) ∧
  (∀ (addr : Nat) (r : RegDef) (ix : List Nat) (s : State), regFind addr = some (r, ix) → regAddr r ix = addr → r.cfg ≠ 0 → r.cfg < 2 ^ 64 →
      s.m.sram.any (fun x => x.1 == addr) = true → rd s.m r ix &&& BitVec.ofNat 64 r.cfg = 0 →
    ∃ t, exec (.sramUncorrectable addr true) s = .next t ∧ t.m.sram.any (fun x => x.1 == addr) = false ∧
      (isReg watchRegs addr = false → rd t.m r ix = rd s.m r ix ||| tget 0 s.m.sram addr) ∧
      Frame [.sram, .logs] (isReg ([(r, ix)] ++ watchRegs)) s t)

/-- R430, R434, R435: a slice record that fails is settled and gone; a quadrant whose control path fails stops, its slices paused,
and is then served by its partner; a stack that is lost leaves service for good. What rests on the model's own choices: log entries
97, 101 and 102. -/
def Obligations.UnitsAreLost : Prop :=
  (∀ (sl seq : Nat) (i : Item) (s : State), itemOf s.m sl seq = some i →
    exec (.sliceRecordFailure sl seq) s = .next { s with m := wmAll s.time.now.toNat (sliceRecordFailure sl seq s.time.now.toNat s.m) } ∧
    ∃ m, sliceRecordFailure sl seq s.time.now.toNat s.m = advance s.time.now.toNat sl i.line m ∧ itemOf m sl seq = none) ∧
  (∀ (n : Nat) (s : State), n < 4 → quadServing s.m n = true → quadServing s.m (n ^^^ 1) = true →
    ∃ t, exec (.quadrantTakeover n true) s = .next t ∧ quadServing t.m n = false ∧ gf t.m F.HQ_SLICE_MAP_PAUSED [n] = 65535) ∧
  (∀ (n : Nat) (parity : Bool) (s : State), n < 4 → quadServing s.m n = false → quadServing s.m (n ^^^ 1) = true →
      gf s.m F.HQ_SLICE_MAP_SERVED_BY [n] = n →
    ∃ t, exec (.quadrantTakeover n parity) s = .next t ∧ gf t.m F.HQ_SLICE_MAP_SERVED_BY [n] = n ^^^ 1 ∧
      gf t.m F.HQ_SLICE_MAP_PAUSED [n] = 0 ∧ Frame [.home, .logs] (isReg ([(Reg.HQ_SLICE_MAP, [n])] ++ watchRegs)) s t) ∧
  (∀ (b : Nat) (s : State), b < 8 → bitAt (gf s.m F.RAS_AVAIL_HBM_LOST []) b = false →
    ∃ t, exec (.hbmStackLoss b) s = .next t ∧ bitAt (gf t.m F.RAS_AVAIL_HBM_LOST []) b = true) ∧
  (∀ (b : Nat) (s : State), bitAt (gf s.m F.RAS_AVAIL_HBM_LOST []) b = true →
    ∃ t, exec (.hbmStackLoss b) s = .next t ∧ Frame [.logs] (isReg watchRegs) s t)

/-- R358, R436, R440: a fault of the active Postmaster pair hands over to its standby, which takes effect at the handover's end;
with no standby it is fatal; a pair whose self-test passes becomes the standby, and one whose test fails stays out. What rests on
the model's own choices: log entries 99 and 100. -/
def Obligations.PostmasterPairsFailOver : Prop :=
  (∀ s : State, 2 ≤ gf s.m F.RAS_AVAIL_PM_PAIRS [] → s.m.fw.faulted = 0 → s.m.fw.handEnd = 0 → s.m.fw.act = 0 →
    ∃ t, exec .postmasterFailover s = .next t ∧ gf t.m F.MBX_STATUS_HANDOVER [] = 1 ∧
      t.m.fw = { s.m.fw with faulted := gf s.m F.MBX_STATUS_ACTIVE_PAIR [] + 1, handEnd := s.time.now.toNat + handoverTicks + 1 } ∧
      Frame [.fw, .logs] (isReg ([(Reg.MBX_STATUS, [])] ++ watchRegs)) s t) ∧
  (∀ s : State, gf s.m F.RAS_AVAIL_PM_PAIRS [] = 1 →
    ∃ t, exec .postmasterFailover s = .next t ∧ gf t.m F.RAS_AVAIL_PM_PAIRS [] = 0 ∧ gf t.m F.RAS_ALERT_FATAL [] = 1 ∧
      Frame [.mram, .nvm, .resets, .logs] (isReg ([(Reg.RAS_ALERT, []), (Reg.RAS_AVAIL, [])] ++ watchRegs)) s t) ∧
  (∀ s : State, s.m.fw.faulted ≠ 0 →
    ∃ t, exec (.postmasterPairSelfTestDone true) s = .next t ∧ t.m.fw = { s.m.fw with faulted := 0 } ∧
      Frame [.fw, .logs] (isReg watchRegs) s t) ∧
  (∀ s : State, s.m.fw.faulted ≠ 0 →
    ∃ t, exec (.postmasterPairSelfTestDone false) s = .next t ∧ t.m.fw = { s.m.fw with faulted := 0 } ∧
      gf t.m F.RAS_AVAIL_PM_PAIRS [] = gf s.m F.RAS_AVAIL_PM_PAIRS [] - 1 ∧ Frame [.fw, .logs] (isReg ([(Reg.RAS_AVAIL, [])] ++ watchRegs)) s t)

/-! ### Chapters 12, 14: ports, their links, and containment -/

/-- R270, R276, R304, R275: a partner that the port's mode table allows trains the link to DL_Active at the mode, rate and width of
both; any other sets JOIN_FAIL. A host or member link that goes down is contained beyond every TICK assigned; a Courier link with a
hold interval keeps its session. A link moves between the states that R275 allows; RETRAIN and L0P_REQ are asked for, and a reserved
L0P_REQ stops the model. A hot reset takes the link down, and its port reset waits for the fence. What rests on the model's own
choices: log entries 8 and 66. -/
def Obligations.LinksTrainAndFall : Prop :=
  (∀ (p mode : Nat) (x : Partner) (s : State), mayTrain s.m p = true → modeFor s.m p x = some mode →
    ∃ t, exec (.linkTrained p x) s = .next t ∧ gf t.m F.STN_LINK_STATUS_DL_UP (st p) = 1 ∧ gf t.m F.STN_LINK_STATUS_MODE (st p) = mode ∧
      gf t.m F.STN_LINK_STATUS_LSTATE (st p) = 0 ∧ gf t.m F.STN_LINK_STATUS_RATE (st p) = rateFor s.m p x ∧
      gf t.m F.STN_LINK_STATUS_WIDTH (st p) = min x.width (widthCode (cfgWidth s.m p)) ∧ (portOf t.m p).partner = some x ∧
      (role s.m p = 1 → fstate s.m p = 0 → started s.m = true → gf t.m F.STN_LINK_STATUS_READY (st p) = 1) ∧
      WatchFrame [.ports, .sof] [(Reg.STN_LINK_STATUS, st p), (Reg.STN_PORT_CTL, st p), (Reg.SEC_IDE_STATUS, [p]), (Reg.RAS_FENCE, [p])] s t) ∧
  (∀ (p : Nat) (x : Partner) (s : State), mayTrain s.m p = true → modeFor s.m p x = none →
    ∃ t, exec (.linkTrained p x) s = .next t ∧ gf t.m F.STN_LINK_STATUS_JOIN_FAIL (st p) = 1 ∧
      WatchFrame [] [(Reg.STN_LINK_STATUS, st p)] s t) ∧
  (∀ (p n : Nat) (cut : Option (Hdr × Nat × Nat)) (s : State), HostOrMember s.m p → gf s.m F.STN_LINK_STATUS_DL_UP (st p) = 1 → fstate s.m p = 0 →
    ∃ t, exec (.linkDown p n cut) s = .next t ∧ gf t.m F.STN_LINK_STATUS_DL_UP (st p) = 0 ∧ gf t.m F.STN_LINK_STATUS_LSTATE (st p) = 6 ∧
      gf t.m F.STN_LINK_STATUS_RATE (st p) = 0 ∧ gf t.m F.STN_LINK_STATUS_WIDTH (st p) = 0 ∧ gf t.m F.STN_LINK_STATUS_MODE (st p) = 0 ∧
      FencedAt p (if role s.m p = 1 then 1 else 2) (lossFence s.time.now.toNat s.m p [p]) t ∧ TrafficOnly s t) ∧
  (∀ (p n : Nat) (cut : Option (Hdr × Nat × Nat)) (s : State), portExists s.m p = true → role s.m p = 3 →
      gf s.m F.STN_LINK_STATUS_DL_UP (st p) = 1 → gf s.m F.STN_CRL_STATUS_CSTATE (st p) = 3 → gf s.m F.STN_CRL_CFG_HOLD_MS (st p) ≠ 0 →
    ∃ t, exec (.linkDown p n cut) s = .next t ∧ gf t.m F.STN_LINK_STATUS_DL_UP (st p) = 0 ∧ gf t.m F.STN_LINK_STATUS_READY (st p) = 0 ∧
      gf t.m F.STN_CRL_STATUS_CSTATE (st p) = 4 ∧ gf t.m F.STN_CRL_STATUS_SESSION (st p) = gf s.m F.STN_CRL_STATUS_SESSION (st p) ∧
      (crlOf t.m p).holdFrom = s.time.now.toNat + 1 ∧ (crlOf t.m p).retry = (crlOf s.m p).retry ∧
      WatchFrame [.pmReqs, .courier] [(Reg.STN_LINK_STATUS, st p), (Reg.STN_CRL_STATUS, st p)] s t) ∧
  (∀ (p ls rate width : Nat) (s : State), portExists s.m p = true → gf s.m F.STN_LINK_STATUS_DL_UP (st p) = 1 → stateAllowed s.m p ls rate width = true →
    ∃ t, exec (.linkStateChange p ls rate width) s = .next t ∧ gf t.m F.STN_LINK_STATUS_LSTATE (st p) = ls ∧
      gf t.m F.STN_LINK_STATUS_DL_UP (st p) = 1 ∧
      gf t.m F.STN_LINK_STATUS_RATE (st p) = (if ls = 2 then gf s.m F.STN_LINK_STATUS_RATE (st p) else rate) ∧
      gf t.m F.STN_LINK_STATUS_WIDTH (st p) = (if ls = 2 then gf s.m F.STN_LINK_STATUS_WIDTH (st p) else width) ∧
      WatchFrame [.ports] [(Reg.STN_LINK_STATUS, st p), (Reg.STN_PORT_CTL, st p)] s t) ∧
  (∀ (p : Nat) (s : State), p < 128 → gf s.m F.STN_LINK_STATUS_DL_UP (st p) = 1 →
    ∃ t, exec (.retrain p) s = .next t ∧ gf t.m F.STN_PORT_CTL_RETRAIN (st p) = 1 ∧ gf t.m F.STN_LINK_STATUS_LSTATE (st p) = 3 ∧
      gf t.m F.STN_LINK_STATUS_DL_UP (st p) = 1 ∧ WatchFrame [] [(Reg.STN_LINK_STATUS, st p), (Reg.STN_PORT_CTL, st p)] s t) ∧
  (∀ (p code : Nat) (s : State), p < 128 → code < 5 →
    ∃ t, exec (.l0pRequest p code) s = .next t ∧ gf t.m F.STN_PORT_CTL_L0P_REQ (st p) = code ∧ Frame [] (isReg [(Reg.STN_PORT_CTL, st p)]) s t) ∧
  (∀ (p code : Nat) (s : State), 5 ≤ code → exec (.l0pRequest p code) s = .fault (.reservedWrite (regAddr Reg.STN_PORT_CTL (st p)))) ∧
  (∀ (p : Nat) (s : State), portExists s.m p = true → role s.m p = 1 → gf s.m F.STN_LINK_STATUS_DL_UP (st p) = 1 → fstate s.m p = 0 →
    ∃ t, exec (.hotReset p) s = .next t ∧ gf t.m F.STN_LINK_STATUS_DL_UP (st p) = 0 ∧
      FencedAt p 1 (lossFence s.time.now.toNat s.m p [p]) t ∧ (portOf t.m p).resetHeld = true ∧ TrafficOnly s t) ∧
  (∀ (p : Nat) (s : State), portExists s.m p = true → role s.m p = 1 → gf s.m F.STN_LINK_STATUS_DL_UP (st p) = 0 → fstate s.m p ≠ 1 →
    ∃ t, exec (.hotReset p) s = .next t ∧ fstate t.m p = 0 ∧ gf t.m F.STN_LINK_STATUS_CONTAINED (st p) = 0 ∧
      gf t.m F.TEN_FRANK_STATUS_TOTAL [p] = 0 ∧ gf t.m F.SOF_ING_STATUS_STALLED [p] = 0 ∧ (portOf t.m p).viral = false ∧
      tget [] t.m.sof.recs p = [] ∧ WatchFrame [.ports, .sof, .hdm]
        [(Reg.STN_LINK_STATUS, st p), (Reg.TEN_FRANK_STATUS, [p]), (Reg.SOF_ING_STATUS, [p]), (Reg.RAS_FENCE, [p])] s t)

/-- R267, R268: PERST_N low at a host port takes its link down and holds it in reset, high lets it train; a debounced presence is
reported, and its loss drives a member's PERST_N low; PERST_N of a member is released once it may be, and held by PERST_ASSERT. What
rests on the model's own choices: log entry 10. -/
def Obligations.SidebandLandsFollow : Prop :=
  (∀ (p : Nat) (s : State), portExists s.m p = true → role s.m p = 1 →
    ∃ t, exec (.perstNChange p true) s = .next t ∧ gf t.m F.STN_LINK_STATUS_PERST (st p) = 1 ∧ gf t.m F.STN_LINK_STATUS_LSTATE (st p) = 6 ∧
      gf t.m F.STN_LINK_STATUS_DL_UP (st p) = 0 ∧ (portOf t.m p).perstLow = true ∧ TrafficOnly s t) ∧
  (∀ (p : Nat) (s : State), portExists s.m p = true → role s.m p = 1 →
    ∃ t, exec (.perstNChange p false) s = .next t ∧ gf t.m F.STN_LINK_STATUS_PERST (st p) = 0 ∧
      gf t.m F.STN_LINK_STATUS_LSTATE (st p) = (if configured s.m && stationOn s.m p then 4 else 6) ∧ (portOf t.m p).perstLow = false ∧
      WatchFrame [.ports] [(Reg.STN_LINK_STATUS, st p)] s t) ∧
  (∀ (p : Nat) (s : State), portExists s.m p = true → (role s.m p = 2 ∨ role s.m p = 3) →
    ∃ t, exec (.prsntDebounced p true) s = .next t ∧ gf t.m F.STN_LINK_STATUS_PRSNT (st p) = 1 ∧ (portOf t.m p).prsnt = true ∧
      (portOf t.m p).presentSince = s.time.now.toNat + 1 ∧ WatchFrame [.ports] [(Reg.STN_LINK_STATUS, st p)] s t) ∧
  (∀ (p : Nat) (s : State), portExists s.m p = true → role s.m p = 2 →
    ∃ t, exec (.prsntDebounced p false) s = .next t ∧ gf t.m F.STN_LINK_STATUS_PRSNT (st p) = 0 ∧ gf t.m F.STN_LINK_STATUS_PERST (st p) = 1 ∧
      gf t.m F.STN_LINK_STATUS_DL_UP (st p) = 0 ∧ (portOf t.m p).perstOut = true ∧ TrafficOnly s t) ∧
  (∀ (p : Nat) (s : State), mayRelease s.time.now.toNat s.m p = true →
    ∃ t, exec (.perstRelease p) s = .next t ∧ gf t.m F.STN_LINK_STATUS_PERST (st p) = 0 ∧ gf t.m F.STN_LINK_STATUS_LSTATE (st p) = 4 ∧
      (portOf t.m p).perstOut = false ∧ WatchFrame [.ports] [(Reg.STN_LINK_STATUS, st p)] s t) ∧
  (∀ (p : Nat) (s : State), portExists s.m p = true → role s.m p = 2 →
    ∃ t, exec (.perstAssert p true) s = .next t ∧ gf t.m F.STN_PORT_CTL_PERST_ASSERT (st p) = 1 ∧ gf t.m F.STN_LINK_STATUS_PERST (st p) = 1 ∧
      gf t.m F.STN_LINK_STATUS_LSTATE (st p) = 6 ∧ gf t.m F.STN_LINK_STATUS_DL_UP (st p) = 0 ∧ TrafficOnly s t) ∧
  (∀ (p : Nat) (s : State), p < 128 →
    ∃ t, exec (.perstAssert p false) s = .next t ∧ gf t.m F.STN_PORT_CTL_PERST_ASSERT (st p) = 0 ∧ WatchFrame [] [(Reg.STN_PORT_CTL, st p)] s t)

/-- R278, R279, R274, R280: REJOIN, and the owner's clearing of DPC Trigger Status, release a member whose link is up, whose fence
is complete and which passes the checks, leave it contained with the check it fails otherwise, and wait while the link is down. DPC,
a request that MEM_TO has ended and a viral indication in domain 0 contain the port; in another domain the indication is signalled
on its ports. What rests on the model's own choices: log entry 10. -/
def Obligations.MembersFailAndReturn : Prop :=
  (∀ (p : Nat) (c : Instr) (s : State), (c = .rejoin p ∨ c = .dpcTriggerStatusClear p) → portExists s.m p = true → role s.m p = 2 →
      gf s.m F.STN_LINK_STATUS_READY (st p) = 0 → gf s.m F.STN_LINK_STATUS_DL_UP (st p) = 1 → fstate s.m p = 2 → joinFail s.m p = 0 →
    ∃ t, exec c s = .next t ∧ Rejoined p t ∧
      WatchFrame [.ports, .sof] [(Reg.STN_LINK_STATUS, st p), (Reg.STN_PORT_CTL, st p), (Reg.RAS_FENCE, [p])] s t) ∧
  (∀ (p : Nat) (c : Instr) (s : State), (c = .rejoin p ∨ c = .dpcTriggerStatusClear p) → portExists s.m p = true → role s.m p = 2 →
      gf s.m F.STN_LINK_STATUS_READY (st p) = 0 → gf s.m F.STN_LINK_STATUS_DL_UP (st p) = 1 → fstate s.m p = 2 → joinFail s.m p ≠ 0 →
    ∃ t, exec c s = .next t ∧ gf t.m F.STN_LINK_STATUS_JOIN_FAIL (st p) = joinFail s.m p ∧ fstate t.m p = 2 ∧
      gf t.m F.STN_LINK_STATUS_CONTAINED (st p) = 1 ∧ gf t.m F.STN_LINK_STATUS_READY (st p) = 0 ∧
      WatchFrame [.ports] [(Reg.STN_LINK_STATUS, st p), (Reg.STN_PORT_CTL, st p), (Reg.RAS_FENCE, [p])] s t) ∧
  (∀ (p : Nat) (s : State), portExists s.m p = true → role s.m p = 2 → gf s.m F.STN_LINK_STATUS_READY (st p) = 0 →
      gf s.m F.STN_LINK_STATUS_DL_UP (st p) = 0 →
    ∃ t, exec (.rejoin p) s = .next t ∧ gf t.m F.STN_PORT_CTL_REJOIN (st p) = 1 ∧ WatchFrame [] [(Reg.STN_PORT_CTL, st p)] s t) ∧
  (∀ (p tick slot : Nat) (s : State), portExists s.m p = true → role s.m p = 2 → fstate s.m p = 0 →
    ∃ t, exec (.dpcUncorrectable p tick slot true) s = .next t ∧ FencedAt p 3 ⟨tick48 tick, p, slot % 16⟩ t ∧ TrafficOnly s t) ∧
  (∀ (p tick slot : Nat) (s : State), portExists s.m p = true → role s.m p = 2 →
    ∃ t, exec (.dpcUncorrectable p tick slot false) s = .next t ∧ t.m.free = s.m.free + 1 ∧ WatchFrame [.free] [] s t) ∧
  (∀ (p x : Nat) (s : State), portExists s.m p = true → role s.m p = 2 → fstate s.m p = 0 → gf s.m F.STN_PORT_CFG_MEM_TO (st p) ≠ 0 →
      memExpiry s.m p = some x → x ≤ s.time.now.toNat →
    ∃ t, exec (.memTimeout p) s = .next t ∧ FencedAt p 4 (fencePm p x) t ∧ TrafficOnly s t) ∧
  (∀ (p tick slot : Nat) (s : State), HostOrMember s.m p → gf s.m F.STN_LINK_STATUS_DL_UP (st p) = 1 → fstate s.m p = 0 →
      gf s.m F.STN_PORT_CFG_VIRAL_DOM (st p) = 0 →
    ∃ t, exec (.viralIndication p tick slot) s = .next t ∧ FencedAt p 8 ⟨tick48 tick, p, slot % 16⟩ t ∧ TrafficOnly s t) ∧
  (∀ (p tick slot : Nat) (s : State), HostOrMember s.m p → gf s.m F.STN_LINK_STATUS_DL_UP (st p) = 1 → gf s.m F.STN_PORT_CFG_VIRAL_DOM (st p) ≠ 0 →
    ∃ t, exec (.viralIndication p tick slot) s = .next t ∧
      (∀ q, HostOrMember s.m q → gf s.m F.STN_PORT_CFG_VIRAL_DOM (st q) = gf s.m F.STN_PORT_CFG_VIRAL_DOM (st p) → (portOf t.m q).viral = true) ∧
      WatchFrame [.free, .ports] [] s t)

/-- R307, R118, R315, R319, R314: RAS_CONTAIN contains a host or member port with cause 9 and is discarded for any other, and a port
is contained once; a class that moves no letter for STALL_MS contains the port with cause 6. A settled fence completes and stays
until a port reset or a REJOIN releases the port; a purge that ends has left no clean way of the member. What rests on the model's
own choices: log entries 153 and 161. -/
def Obligations.FencesContainAndComplete : Prop :=
  (∀ (ticket p : Nat) (s : State), p < 128 → (role s.m p = 1 ∨ role s.m p = 2) → fstate s.m p = 0 →
    ∃ t, exec (.rasContain ticket p) s = .next t ∧ FencedAt p 9 (fencePm p s.time.now.toNat) t ∧ TrafficOnly s t) ∧
  (∀ (ticket p : Nat) (s : State), p < 128 → (role s.m p = 1 ∨ role s.m p = 2) → fstate s.m p ≠ 0 →
    ∃ t, exec (.rasContain ticket p) s = .next t ∧ WatchFrame [] [] s t) ∧
  (∀ (ticket p : Nat) (s : State), role s.m p ≠ 1 → role s.m p ≠ 2 →
    ∃ t, exec (.rasContain ticket p) s = .next t ∧ gf t.m F.RAS_MGMT_ERR_DISCARD [] = (gf s.m F.RAS_MGMT_ERR_DISCARD [] + 1) % 65536 ∧
      WatchFrame [] [(Reg.RAS_MGMT_ERR, [])] s t) ∧
  (∀ (p c : Nat) (s : State), p < 128 → c < 8 → (role s.m p = 1 ∨ role s.m p = 2) → fstate s.m p = 0 → gf s.m F.SOF_MC_CFG_STALL_MS [p] ≠ 0 →
      (egOf s.m p).stallFrom.getD c 0 ≠ 0 → mayBegin s.time.now.toNat s.m p c = true →
      (egOf s.m p).stallFrom.getD c 0 - 1 + gf s.m F.SOF_MC_CFG_STALL_MS [p] * 4000000 ≤ s.time.now.toNat →
    ∃ t, exec (.classStall p c) s = .next t ∧ gf t.m F.SOF_ING_STATUS_STALLED [p] = 1 ∧
      FencedAt p 6 (fencePm p ((egOf s.m p).stallFrom.getD c 0 - 1 + gf s.m F.SOF_MC_CFG_STALL_MS [p] * 4000000)) t ∧ TrafficOnly s t) ∧
  (∀ (p : Nat) (s : State), p < 128 → role s.m p = 1 → fstate s.m p = 1 → fenceSettled s.m p = true → (portOf s.m p).resetHeld = false →
    ∃ t, exec (.fenceComplete p) s = .next t ∧ fstate t.m p = 2 ∧ fenceOf t.m p = fenceOf s.m p ∧
      WatchFrame [] [(Reg.RAS_FENCE, [p]), (Reg.RAS_FENCE_INFO, [p])] s t) ∧
  (∀ (p : Nat) (s : State), p < 128 → role s.m p = 1 → fstate s.m p = 1 → fenceSettled s.m p = true → (portOf s.m p).resetHeld = true →
    ∃ t, exec (.fenceComplete p) s = .next t ∧ fstate t.m p = 0 ∧ gf t.m F.STN_LINK_STATUS_CONTAINED (st p) = 0 ∧
      (portOf t.m p).resetHeld = false ∧ TrafficOnly s t) ∧
  (∀ (p : Nat) (s : State), p < 128 → role s.m p = 2 → fstate s.m p = 1 → fenceSettled s.m p = true → (portOf s.m p).resetHeld = false →
      gf s.m F.STN_PORT_CTL_REJOIN (st p) = 1 → gf s.m F.STN_LINK_STATUS_DL_UP (st p) = 1 → gf s.m F.STN_LINK_STATUS_READY (st p) = 0 →
      joinFail s.m p = 0 →
    ∃ t, exec (.fenceComplete p) s = .next t ∧ Rejoined p t ∧ TrafficOnly s t) ∧
  (∀ (p : Nat) (s : State), s.m.home.purges.contains p = true →
    ∃ t, exec (.memberPurgeEnd p) s = .next t ∧ t.m.home.purges = s.m.home.purges.filter (· != p) ∧
      (∀ (k fs : Nat) (w : Way), w ∈ ways (sliceOf t.m k) fs → w.st = .clean → (memberFor t.m (lineOfWay k w.tag) none).any (fun x => x.1 == p) = false) ∧
      WatchFrame [.home] [] s t)

/-! ### Chapter 13: Courier links -/

/-- R283, R284, R301, R302, R303, R305, R320: a peer that passes the checks is admitted, one that fails any is not, nor one that
offers no Courier, and a failed admission is tried again. An admitted link opens the session that the lower-postcode end asks for,
or whose OPEN_ACK comes; resumes a held session, or refuses to; and ends one that is refused or whose hold interval ends, which
fences the link. An unanswered SESSION flit is sent again after 64 ticks. What rests on the model's own choices: log entries 70, 71,
79 and 80. -/
def Obligations.CourierSessions : Prop :=
  (∀ (p : Nat) (x : CourierPeer) (s : State), CourierMayTrain s.m p → x.offers = true → gf s.m F.STN_CRL_STATUS_CSTATE (st p) ≠ 4 →
      admitCheck s.m p x = 0 →
    ∃ t, exec (.courierBringup p x) s = .next t ∧ gf t.m F.STN_LINK_STATUS_DL_UP (st p) = 1 ∧ gf t.m F.STN_CRL_STATUS_CSTATE (st p) = 2 ∧
      gf t.m F.STN_CRL_STATUS_ADMIT_FAIL (st p) = 0 ∧ (crlOf t.m p).authed = true ∧
      gf t.m F.STN_CRL_STATUS_IDE_ON (st p) = b2n (gfb s.m F.STN_CRL_CFG_IDE_REQ (st p) || x.ideReq) ∧
      gf t.m F.STN_LINK_STATUS_WIDTH (st p) = min x.width (widthCode (cfgWidth s.m p)) ∧
      WatchFrame [.free, .ports, .courier] [(Reg.STN_LINK_STATUS, st p), (Reg.STN_CRL_STATUS, st p)] s t) ∧
  (∀ (p : Nat) (x : CourierPeer) (s : State), CourierMayTrain s.m p → x.offers = true → gf s.m F.STN_CRL_STATUS_CSTATE (st p) ≠ 4 →
      admitCheck s.m p x ≠ 0 →
    ∃ t, exec (.courierBringup p x) s = .next t ∧ gf t.m F.STN_LINK_STATUS_DL_UP (st p) = 1 ∧ gf t.m F.STN_CRL_STATUS_CSTATE (st p) = 5 ∧
      gf t.m F.STN_CRL_STATUS_ADMIT_FAIL (st p) = admitCheck s.m p x ∧ (crlOf t.m p).authed = false ∧
      WatchFrame [.free, .ports, .courier] [(Reg.STN_LINK_STATUS, st p), (Reg.STN_CRL_STATUS, st p)] s t) ∧
  (∀ (p : Nat) (x : CourierPeer) (s : State), CourierMayTrain s.m p → x.offers = false → gf s.m F.STN_CRL_STATUS_CSTATE (st p) ≠ 4 →
    ∃ t, exec (.courierBringup p x) s = .next t ∧ gf t.m F.STN_CRL_STATUS_ADMIT_FAIL (st p) = 6 ∧ gf t.m F.STN_CRL_STATUS_CSTATE (st p) = 5 ∧
      WatchFrame [.courier] [(Reg.STN_CRL_STATUS, st p)] s t) ∧
  (∀ (p : Nat) (x : CourierPeer) (s : State), AdmissionDue s p → admitCheck s.m p x = 0 →
    ∃ t, exec (.admissionRetry p x) s = .next t ∧ gf t.m F.STN_CRL_STATUS_ADMIT_FAIL (st p) = 0 ∧ gf t.m F.STN_CRL_STATUS_CSTATE (st p) = 2 ∧
      (crlOf t.m p).authed = true ∧ WatchFrame [.courier] [(Reg.STN_CRL_STATUS, st p)] s t) ∧
  (∀ (p : Nat) (s : State), role s.m p = 3 → gf s.m F.STN_CRL_STATUS_IDE_ON (st p) = 1 →
    ∃ t, exec (.ideKeyUpdate p) s = .next t ∧ crlOf t.m p = { crlOf s.m p with groups := 0 } ∧ Frame [.courier] (fun _ => false) s t) ∧
  (∀ (p : Nat) (f : SessionFlit) (s : State), HearsLower s.m p f → f.id ≠ 0 → f.id < 65536 → gf s.m F.STN_CRL_STATUS_CSTATE (st p) = 2 →
      fstate s.m p ≠ 1 →
    ∃ t, exec (.sessionOpen p f) s = .next t ∧ SessionIs p f.id t ∧ LastSent p 2 f.id t ∧ fstate t.m p = 0 ∧ (crlOf t.m p).txSeq = 0 ∧
      (crlOf t.m p).rxSeq = 0 ∧ (crlOf t.m p).creds = (List.range 8).map (fun k => f.credits.getD k 0) ∧ TrafficOnly s t) ∧
  (∀ (p : Nat) (f : SessionFlit) (s : State), answers s.m p 1 f = true → f.id < 65536 → gf s.m F.STN_CRL_STATUS_CSTATE (st p) = 2 →
      fstate s.m p ≠ 1 →
    ∃ t, exec (.sessionOpenAck p f) s = .next t ∧ SessionIs p f.id t ∧ (crlOf t.m p).outstanding = none ∧ fstate t.m p = 0 ∧ TrafficOnly s t) ∧
  (∀ (p : Nat) (f : SessionFlit) (s : State), HearsLower s.m p f → gf s.m F.STN_CRL_STATUS_CSTATE (st p) = 4 →
      gf s.m F.STN_CRL_STATUS_SESSION (st p) = f.id → (crlOf s.m p).resumable = true → s.time.now.toNat < holdEnd s.m p →
    ∃ t, exec (.sessionResume p f) s = .next t ∧ SessionIs p f.id t ∧ LastSent p 4 f.id t ∧ (crlOf t.m p).txSeq = (crlOf s.m p).txSeq ∧
      (crlOf t.m p).rxSeq = (crlOf s.m p).rxSeq ∧ WatchFrame [.courier] (sessionRegs p) s t) ∧
  (∀ (p : Nat) (f : SessionFlit) (s : State), HearsLower s.m p f → gf s.m F.STN_CRL_STATUS_CSTATE (st p) = 2 →
    ∃ t, exec (.sessionResume p f) s = .next t ∧ LastSent p 5 f.id t ∧ gf t.m F.STN_CRL_STATUS_CSTATE (st p) = 2 ∧
      WatchFrame [.courier] (sessionRegs p) s t) ∧
  (∀ (p : Nat) (f : SessionFlit) (s : State), answers s.m p 3 f = true → gf s.m F.STN_CRL_STATUS_CSTATE (st p) = 4 → s.time.now.toNat < holdEnd s.m p →
    ∃ t, exec (.sessionResumeAck p f) s = .next t ∧ SessionIs p (gf s.m F.STN_CRL_STATUS_SESSION (st p)) t ∧ (crlOf t.m p).outstanding = none ∧
      (crlOf t.m p).holdFrom = 0 ∧ (crlOf t.m p).txSeq = (crlOf s.m p).txSeq ∧ WatchFrame [.courier] (sessionRegs p) s t) ∧
  (∀ (p : Nat) (f : SessionFlit) (s : State), answers s.m p 3 f = true → gf s.m F.STN_CRL_STATUS_CSTATE (st p) = 4 → fstate s.m p = 0 →
    ∃ t, exec (.sessionRefuse p f) s = .next t ∧ FencedAt p 11 (lossFence s.time.now.toNat s.m p [p]) t ∧
      gf t.m F.STN_CRL_STATUS_SESSION (st p) = 0 ∧ gf t.m F.STN_CRL_STATUS_CSTATE (st p) = 2 ∧ (crlOf t.m p).retry = [] ∧ TrafficOnly s t) ∧
  (∀ (p : Nat) (s : State), p < 128 → role s.m p = 3 → gf s.m F.STN_CRL_STATUS_CSTATE (st p) = 4 → gf s.m F.STN_LINK_STATUS_DL_UP (st p) = 0 →
      holdEnd s.m p ≤ s.time.now.toNat → fstate s.m p = 0 →
    ∃ t, exec (.holdExpiry p) s = .next t ∧ FencedAt p 11 (lossFence s.time.now.toNat s.m p [p]) t ∧
      gf t.m F.STN_CRL_STATUS_SESSION (st p) = 0 ∧ gf t.m F.STN_CRL_STATUS_CSTATE (st p) = 0 ∧ (crlOf t.m p).retry = [] ∧ TrafficOnly s t) ∧
  (∀ (p : Nat) (f : SessionFlit) (s : State), (crlOf s.m p).outstanding = some f → (crlOf s.m p).lastSent + 64 ≤ s.time.now.toNat →
    ∃ t, exec (.sessionResend p) s = .next t ∧
      crlOf t.m p = { crlOf s.m p with sent := (crlOf s.m p).sent ++ [f], lastSent := s.time.now.toNat } ∧ Frame [.courier] (fun _ => false) s t)

/-- R287, R288, R289, R290, R298, R300, R29: a good flit in its place is taken and moves the expected sequence on by one, any other
leaves it; a first failure at a position sends one NAK. A received NAK replays from the flit after its ACK, and four replays without
progress put the port into Recovery, which takes the link down where it fails. The follower starts an exchange every 65,536 ticks,
and from t1 to t4 computes the offset that it slews; before the first port is ready the first exchange loads Fabric Time. What rests
on the model's own choices: log entries 72, 76 and 77. -/
def Obligations.CourierFlitsAndTime : Prop :=
  (∀ (p : Nat) (f : CourierFlit) (s : State), InSession s.m p → f.ok = true → (f.kind = 1 ∨ f.kind = 2) → f.seq = (crlOf s.m p).rxSeq →
      gf s.m F.STN_CRL_STATUS_IDE_ON (st p) = 0 →
    ∃ t, exec (.courierFlitReceive p f) s = .next t ∧ (crlOf t.m p).rxSeq = (f.seq + 1) % 4096 ∧ (crlOf t.m p).nakSent = false ∧ TrafficOnly s t) ∧
  (∀ (p : Nat) (f : CourierFlit) (s : State), InSession s.m p → f.ok = true → (f.kind = 1 ∨ f.kind = 2) → f.seq ≠ (crlOf s.m p).rxSeq →
      f.tslot = 0 →
    ∃ t, exec (.courierFlitReceive p f) s = .next t ∧ (crlOf t.m p).rxSeq = (crlOf s.m p).rxSeq ∧
      gf t.m F.STN_CRL_STATUS_PEER_LAG (st p) = f.markDelta % 256 ∧ WatchFrame [.courier] [(Reg.STN_CRL_STATUS, st p)] s t) ∧
  (∀ (p : Nat) (f : CourierFlit) (s : State), InSession s.m p → f.ok = false → (f.kind = 1 ∨ f.kind = 2) → (crlOf s.m p).nakSent = false →
    ∃ t, exec (.courierFlitReceive p f) s = .next t ∧ (crlOf t.m p).nakOut = (crlOf s.m p).nakOut ++ [((crlOf s.m p).rxSeq + 4095) % 4096] ∧
      (crlOf t.m p).nakSent = true ∧ (crlOf t.m p).rxSeq = (crlOf s.m p).rxSeq ∧ WatchFrame [.courier] [] s t) ∧
  (∀ (p ack : Nat) (s : State), InSession s.m p →
    ∃ t, exec (.nakReceive p ack) s = .next t ∧ (crlOf t.m p).replayFrom = (ack + 1) % 4096 ∧
      gf t.m F.STN_CRL_RETRY_REPLAYS (st p) = min (gf s.m F.STN_CRL_RETRY_REPLAYS (st p) + 1) (2 ^ 32 - 1) ∧
      CountFrame [.courier] [(Reg.STN_CRL_RETRY, st p)] s t) ∧
  (∀ (p : Nat) (s : State), InSession s.m p → 4 ≤ (crlOf s.m p).replays →
    ∃ t, exec (.courierRecovery p true) s = .next t ∧ (crlOf t.m p).replays = 0 ∧ gf t.m F.STN_CRL_RETRY_RECOVER (st p) = 1 ∧
      CountFrame [.courier] [(Reg.STN_CRL_RETRY, st p)] s t) ∧
  (∀ (p : Nat) (s : State), InSession s.m p → 4 ≤ (crlOf s.m p).replays → gf s.m F.STN_CRL_CFG_HOLD_MS (st p) ≠ 0 →
    ∃ t, exec (.courierRecovery p false) s = .next t ∧ gf t.m F.STN_LINK_STATUS_DL_UP (st p) = 0 ∧ gf t.m F.STN_CRL_STATUS_CSTATE (st p) = 4 ∧
      WatchFrame [.pmReqs, .courier] [(Reg.STN_CRL_RETRY, st p), (Reg.STN_LINK_STATUS, st p), (Reg.STN_CRL_STATUS, st p)] s t) ∧
  (∀ (p sub : Nat) (s : State), role s.m p = 3 → gf s.m F.STN_CRL_STATUS_CSTATE (st p) = 3 → gf s.m F.STN_CRL_CFG_TIME_DIR (st p) = 1 →
      gf s.m F.STN_CRL_TIME_MISMATCH (st p) = 0 → (crlOf s.m p).exAt + 65536 ≤ s.time.now.toNat →
    ∃ t, exec (.timeExchange p sub) s = .next t ∧ crlOf t.m p = { crlOf s.m p with
        exN := (crlOf s.m p).exN % 255 + 1, exT1 := s.time.now.toNat * 16 + sub % 16, exT4 := 0, exOpen := true, exAt := s.time.now.toNat,
        tslotOut := (crlOf s.m p).tslotOut ++ [(crlOf s.m p).exN % 255 + 1] } ∧ Frame [.courier] (fun _ => false) s t) ∧
  (∀ (i : Nat) (x : Transit) (s : State), EndsExchange s.m i x → s.time.locked = true → gf s.m F.FTM_CTL_PPS_EN [] = 0 →
    ∃ t, exec (.time i) s = .next t ∧ t.time = { s.time with slew := exchangeOffset s.m x * 625 } ∧ (crlOf t.m x.msg.att).exOpen = false ∧
      gf t.m F.STN_CRL_TIME_OFFSET (st x.msg.att) = (exchangeOffset s.m x % 2 ^ 32).toNat ∧
      Frame [.slew, .sof, .courier] (isReg [(Reg.STN_CRL_TIME, st x.msg.att)]) s t) ∧
  (∀ (i : Nat) (x : Transit) (s : State), EndsExchange s.m i x → s.time.locked = false → gf s.m F.GLB_STATUS_STEP [] ≠ 8 →
      (crlOf s.m x.msg.att).loaded = false →
    ∃ t, exec (.time i) s = .next t ∧
      t.time = { s.time with now := BitVec.ofInt 64 (s.time.now.toNat + exchangeOffset s.m x / 16), slew := 0 } ∧
      (crlOf t.m x.msg.att).loaded = true ∧ Frame [.now, .slew, .sof, .courier] (isReg [(Reg.STN_CRL_TIME, st x.msg.att)]) s t)

/-! ### Chapters 02, 04, 05: messages, letters, planes, queues -/

/-- R40, R37, R39, R41, R81, R83, R85: a scheduled message is issued from its source with the next postmark, and waits for one of the same
TICK at a lower slice; a source 64 ticks late slips, its later TICKs with it, and an engine's slots with its due write; an item past its
stale limit ends and is counted in FTM_STALE; a blank letter carries its source's broadcast mark. A letter that fails its check stays to
be sent again on the next working plane; a good one is received once, and the message of a dispatcher that is whole lands in its intake.
What rests on the model's own choices: log entries 16, 20, 168 and 169. -/
def Obligations.SourcesAndLetters : Prop :=
  (∀ (i : Nat) (x : Sched) (s : State), s.m.sched[i]? = some x → x.tgt ≠ .postmaster → x.due ≤ s.time.now.toNat →
      s.time.now.toNat < x.due + 64 → sliceBefore s.m x = false →
    ∃ t, exec (.internalMessageDue i) s = .next t ∧ t.m.sched = ldrop s.m.sched i ∧
      (∃ y ∈ t.m.sof.transit, y.msg = { x.msg with pm := (internalPm s.m x.source x.tick).1 } ∧ y.tgt = x.tgt ∧ y.phase = .flying) ∧ TrafficOnly s t) ∧
  (∀ (i : Nat) (x : Sched) (s : State), s.m.sched[i]? = some x → (s.time.now.toNat < x.due ∨ sliceBefore s.m x = true) →
    ∃ t, exec (.internalMessageDue i) s = .next t ∧ WatchFrame [] [] s t) ∧
  (∀ (src : Nat) (x : Sched) (s : State), (src < 128 ∨ 144 ≤ src) →
      s.m.sched.find? (fun y => y.source == src && decide (y.due + 64 ≤ s.time.now.toNat)) = some x →
    ∃ t, exec (.slip src) s = .next t ∧ t.m.sched = s.m.sched.map (slippedSched s.time.now.toNat src x) ∧
      gf t.m F.FTM_SLIP_SLIPPED [] = 1 ∧ gf t.m F.FTM_SLIP_LAST_SOURCE [] = src % 256 ∧ CountFrame [.sched, .home] [(Reg.FTM_SLIP, [])] s t) ∧
  (∀ (src num : Nat) (w : DueWrite) (s : State), 128 ≤ src → src < 144 → writeDue s.m (src - 128) = some (num, w) →
      w.since + 63 ≤ s.time.now.toNat →
    ∃ t, exec (.slip src) s = .next t ∧ gf t.m F.FTM_SLIP_SLIPPED [] = 1 ∧ gf t.m F.FTM_SLIP_LAST_SOURCE [] = src ∧
      tget 0 t.m.eng.shift (src - 128) =
        tget 0 s.m.eng.shift (src - 128) + (tick48 s.time.now.toNat + 2 ^ 48 - w.tick) % 2 ^ 48 ∧
      CountFrame [.eng] [(Reg.FTM_SLIP, []), (Reg.PCL_ENG_STATUS, [src - 128])] s t) ∧
  (∀ (k : Nat) (i : Item) (s : State), isIo i.msg.h.kind = false → staleItem s.time.now.toNat s.m = some (k, i) →
    ∃ t, exec .staleLimit s = .next t ∧ (sliceOf t.m k).items = (sliceOf s.m k).items.filter (fun j => j.seq != i.seq) ∧
      gf t.m F.FTM_STALE_STALE [] = 1 ∧ gf t.m F.FTM_STALE_LAST_SOURCE [] = i.msg.pm.source % 256 ∧ TrafficOnly s t) ∧
  (∀ (src l : Nat) (s : State), src ≤ 146 →
    ∃ t, exec (.blankLetter src l) s = .next t ∧
      tget 0 t.m.sof.marksAll src = broadcastMark s.m src (localMark s.time.now.toNat s.m src l) + 1 ∧
      (∀ k, k ≠ src → tget 0 t.m.sof.marksAll k = tget 0 s.m.sof.marksAll k) ∧ t.m.sof.letters = s.m.sof.letters ∧
      t.m.sof.transit = s.m.sof.transit ∧ Frame [.sof] (fun _ => false) s t) ∧
  (∀ (i : Nat) (l : Letter) (ok : Bool) (s : State), s.m.sof.letters[i]? = some l → l.failed = true → exec (.letterHandover i ok) s = .next s) ∧
  (∀ (i : Nat) (l : Letter) (s : State), s.m.sof.letters[i]? = some l → l.failed = false →
    ∃ t, exec (.letterHandover i false) s = .next t ∧ t.m.sof.letters = lmod (fun l => { l with failed := true }) s.m.sof.letters i ∧
      tget 0 t.m.sof.fails l.plane = tget 0 s.m.sof.fails l.plane + 1 ∧ t.m.sof.transit = s.m.sof.transit ∧ Frame [.sof] (fun _ => false) s t) ∧
  (∀ (i : Nat) (l : Letter) (x : Transit) (s : State), s.m.sof.letters[i]? = some l → l.failed = false → transitOf s.m l.key = some x →
      l.idx ∉ x.got → (x.phase = .flying ∨ x.phase = .pinned) → (x.got.length + 1 < x.msg.n ∨ ∃ p, x.tgt = .egress p) →
    ∃ t, exec (.letterHandover i true) s = .next t ∧ t.m.sof.letters = ldrop s.m.sof.letters i ∧ tget 0 t.m.sof.fails l.plane = 0 ∧
      t.m.sof.transit = s.m.sof.transit.map (fun u => if u.key = x.key then { x with got := x.got ++ [l.idx] } else u) ∧
      Frame [.sof] (fun _ => false) s t) ∧
  (∀ (i : Nat) (l : Letter) (x : Transit) (s : State), s.m.sof.letters[i]? = some l → l.failed = false → transitOf s.m l.key = some x →
      l.idx ∉ x.got → x.phase = .flying → x.tgt = .dispatcher → x.msg.n ≤ x.got.length + 1 →
    ∃ t, exec (.letterHandover i true) s = .next t ∧ t.m.sof.letters = ldrop s.m.sof.letters i ∧
      tget [] t.m.eng.intake x.msg.mc = insertMsg x.msg (tget [] s.m.eng.intake x.msg.mc) ∧
      Frame [.sof, .eng] (isReg [(Reg.SOF_ING_STATUS, [x.msg.att])]) s t) ∧
  (∀ (i p : Nat) (l : Letter) (s : State), s.m.sof.letters[i]? = some l → (l.failed = true ∨ l.sentAt + 64 ≤ s.time.now.toNat) →
      nextPlane s.m (l.plane + 1) = some p →
    ∃ t, exec (.letterResend i) s = .next t ∧
      t.m.sof.letters = lmod (fun l => { l with plane := p, sentAt := s.time.now.toNat, failed := false }) s.m.sof.letters i ∧
      CountFrame [.sof] [] s t)

/-- R84: sixteen failed handovers in a row, or a parity fault, retire a working plane, which powers its domain down and leaves its
letters due again; RETIRE bits do the same, but never below three working planes; RESTORE bits start the self-test of retired
planes, which brings each back or leaves it retired. What rests on the model's own choices: log entry 89. -/
def Obligations.PlanesRetireAndReturn : Prop :=
  (∀ (n : Nat) (parity : Bool) (s : State), n < 4 → gf s.m (planeField n) [] = 0 → (parity = true ∨ 16 ≤ tget 0 s.m.sof.fails n) →
    ∃ t, exec (.planeRetire n parity) s = .next t ∧ gf t.m (planeField n) [] = 1 ∧ domainState t.m (20 + n) = 3 ∧
      tget 0 t.m.sof.fails n = 0 ∧ gf t.m F.SOF_PLANE_STATUS_RETIRED [] = 1 ∧
      t.m.sof.letters = s.m.sof.letters.map (fun l => if l.plane = n then { l with failed := true } else l) ∧
      WatchFrame [.sof] [(Reg.SOF_PLANE_STATUS, []), (Reg.INL_PD_STATUS, [])] s t) ∧
  (∀ (bits : Nat) (s : State), bits % 16 ≠ 0 →
      3 ≤ ((workingPlanes s.m).filter (fun n => !bitAt bits n)).length →
    ∃ t, exec (.sofPlaneRetire bits) s = .next t ∧
      (∀ n, n < 4 → gf s.m (planeField n) [] = 0 → bitAt bits n = true → gf t.m (planeField n) [] = 1 ∧ domainState t.m (20 + n) = 3) ∧
      (∀ n, n < 4 → (gf s.m (planeField n) [] ≠ 0 ∨ bitAt bits n = false) → gf t.m (planeField n) [] = gf s.m (planeField n) []) ∧
      WatchFrame [.sof] [(Reg.SOF_PLANE_STATUS, []), (Reg.INL_PD_STATUS, [])] s t) ∧
  (∀ (bits : Nat) (s : State), bits % 16 ≠ 0 →
      ((workingPlanes s.m).filter (fun n => !bitAt bits n)).length < 3 →
    ∃ t, exec (.sofPlaneRetire bits) s = .next t ∧ gf t.m F.RAS_MGMT_ERR_DISCARD [] = (gf s.m F.RAS_MGMT_ERR_DISCARD [] + 1) % 65536 ∧
      WatchFrame [] [(Reg.RAS_MGMT_ERR, [])] s t) ∧
  (∀ (bits : Nat) (s : State), ∃ t, exec (.sofPlaneRestore bits) s = .next t ∧
      (∀ n, n < 4 → bitAt bits n = true → (gf s.m (planeField n) [] = 1 ∨ gf s.m (planeField n) [] = 2) → domainState s.m (20 + n) ≠ 0 →
        gf t.m (planeField n) [] = 3 ∧ bitAt (gf t.m F.SOF_PLANE_CTL_RESTORE []) n = true) ∧
      (∀ n, n < 4 → (bitAt bits n = false ∨ gf s.m (planeField n) [] = 0 ∨ gf s.m (planeField n) [] = 3 ∨ domainState s.m (20 + n) = 0) →
        gf t.m (planeField n) [] = gf s.m (planeField n) []) ∧
      Frame [] (isReg [(Reg.SOF_PLANE_STATUS, []), (Reg.SOF_PLANE_CTL, [])]) s t) ∧
  (∀ (n : Nat) (pass : Bool) (s : State), n < 4 → gf s.m (planeField n) [] = 3 →
    ∃ t, exec (.planeSelfTestDone n pass) s = .next t ∧ gf t.m (planeField n) [] = (if pass then 0 else 1) ∧
      bitAt (gf t.m F.SOF_PLANE_CTL_RESTORE []) n = false ∧ (pass = true → domainState t.m (20 + n) = 2) ∧
      Frame [] (isReg [(Reg.SOF_PLANE_STATUS, []), (Reg.SOF_PLANE_CTL, []), (Reg.INL_PD_STATUS, [])]) s t)

/-- R33, R91, R93, R94, R87, R89, R97, R101, R257, R90, R123: the messages of a flit are postmarked, and a CXL.cache message that nothing
refuses flies to its egress with its postmark; a message at its egress is admitted, stored and queued, on its arrival or when it is
offered again, or pinned where it is refused, or stands behind a refused one; the head of the sorting section settles once the horizon
has passed it, with the arrival-mode messages that waited for it; the class chosen begins its message, and at its last letter the port is
free again, while one that streams on the guarantee has its next letters sent; a refill fetches letters, and one that fails poisons a
CXL.mem message and ends any other as nullified; a receipt frees its write; LOW is set to F. What rests on the model's own choices: log
entries 16, 17, 45 and 177. -/
def Obligations.MessagesEnterAndLeaveQueues : Prop :=
  (∀ (p : Nat) (hs : List Hdr) (s : State), portExists s.m p = true → role s.m p ≠ 3 → gf s.m F.STN_LINK_STATUS_DL_UP (st p) = 1 →
    ∃ t, exec (.flitArrival p hs) s = .next t ∧ TrafficOnly s t ∧
      (portOf t.m p).lastTick = (if hs = [] then (portOf s.m p).lastTick
        else max (portOf s.m p).lastTick (s.time.now.toNat + (hs.length - 1) / 16))) ∧
  (∀ (p q : Nat) (h : Hdr) (x : Msg) (s : State), s.m.amd.past = [] → portExists s.m p = true → role s.m p = 1 → gf s.m F.STN_LINK_STATUS_DL_UP (st p) = 1 →
      gf s.m F.STN_LINK_STATUS_READY (st p) = 1 → fstate s.m p = 0 → (gf s.m F.SEC_IDE_CFG_IDE_REQ [p] = 0 ∨ (portOf s.m p).ideOn = true) →
      isCache h.kind = true → frankFail s.m p h = none → x = ingressMsg s.m p (portPm p (tick48 s.time.now.toNat) 0) h → x.lost = false →
      route s.m x.src x.dst none h.hop = .port q → behindHeld s.m x = false →
    ∃ t, exec (.flitArrival p [h]) s = .next t ∧ (∃ y ∈ t.m.sof.transit, y.msg = x ∧ y.tgt = .egress q ∧ y.phase = .flying) ∧
      x.pm = ⟨tick48 s.time.now.toNat, p, 0⟩ ∧ TrafficOnly s t) ∧
  (∀ (i p : Nat) (c : Instr) (x : Transit) (s : State), s.m.sof.transit[i]? = some x →
      (c = .admitMessage i ∧ x.phase = .flying ∧ 0 ∈ x.got ∨ c = .reoffer i ∧ x.phase = .pinned) → behindRefused s.m x = false →
      x.tgt = .egress p → contained s.m p = false → admitPath s.m x p = some .onDie →
    ∃ t, exec c s = .next t ∧
      (∃ e ∈ (queueOf t.m (qno p x.msg.mc x.msg.sc)).sorting ++ (queueOf t.m (qno p x.msg.mc x.msg.sc)).settled,
        e.key = x.key ∧ e.msg = x.msg ∧ e.path = .onDie) ∧
      t.m.sof.stored = s.m.sof.stored ++ [⟨x.key, .onDie, x.msg.n, 1, x.msg.pm.source, none⟩] ∧ TrafficOnly s t) ∧
  (∀ (i p : Nat) (c : Instr) (x : Transit) (s : State), s.m.sof.transit[i]? = some x →
      (c = .admitMessage i ∧ x.phase = .flying ∧ 0 ∈ x.got ∨ c = .reoffer i ∧ x.phase = .pinned) → behindRefused s.m x = false →
      x.tgt = .egress p → contained s.m p = false → admitPath s.m x p = none →
    ∃ t, exec c s = .next t ∧ { x with phase := .pinned, pins := [8 * p + x.msg.mc] } ∈ t.m.sof.transit ∧ t.m.sof.stored = s.m.sof.stored ∧
      CountFrame [.sof] [(Reg.SOF_ING_STATUS, [x.msg.att])] s t) ∧
  (∀ (i p : Nat) (x : Transit) (s : State), s.m.sof.transit[i]? = some x → x.phase = .flying → 0 ∈ x.got → x.tgt = .egress p →
      behindRefused s.m x = true →
    ∃ t, exec (.admitMessage i) s = .next t ∧ { x with phase := .pinned, pins := [8 * p + x.msg.mc] } ∈ t.m.sof.transit ∧
      t.m.sof.stored = s.m.sof.stored ∧ CountFrame [.sof] [(Reg.SOF_ING_STATUS, [x.msg.att])] s t) ∧
  (∀ (i : Nat) (x : Transit) (s : State), s.m.sof.transit[i]? = some x → x.phase = .pinned → behindRefused s.m x = true →
    ∃ t, exec (.reoffer i) s = .next t ∧ WatchFrame [] [] s t) ∧
  (∀ (q : Nat) (e : QEntry) (es : List QEntry) (s : State), (queueOf s.m q).sorting = e :: es →
      horizonPast s.m (8 * (q / 32) + q % 32 / 4) e.msg.pm.tick = true →
    ∃ t, exec (.settleMessage q) s = .next t ∧
      queueOf t.m q = settleArrivals { queueOf s.m q with sorting := es, settled := (queueOf s.m q).settled ++ [e] } ∧
      e ∈ (queueOf t.m q).settled ∧ CountFrame [.sof] [] s t) ∧
  (∀ (p : Nat) (held : List Nat) (e : QEntry) (s : State), p < 128 → (egOf s.m p).leaving = none → contained s.m p = false →
      chosenEntry s.time.now.toNat p held s.m = some e → checkedResponse s.m p e.msg = false → isBiSnp e.msg.h.kind = false →
    ∃ t, exec (.egressBegin p held) s = .next t ∧ (∃ c, (egOf t.m p).leaving = some ⟨e, s.time.now.toNat, 0, c⟩) ∧
      (∃ y, t.m.sof.wire = s.m.sof.wire ++ [(p, y)] ∧ y.pm = e.msg.pm ∧ y.h.kind = e.msg.h.kind ∧ y.h.data = e.msg.h.data) ∧ TrafficOnly s t) ∧
  (∀ (p : Nat) (l : Leaving) (s : State), (egOf s.m p).leaving = some l → allReceived s.m l.e.key l.e.msg.n = true →
    ∃ t, exec (.messageLeaveDone p) s = .next t ∧ (egOf t.m p).leaving = none ∧ t.m.sof.wire = s.m.sof.wire ∧ TrafficOnly s t) ∧
  (∀ (p : Nat) (l : Leaving) (s : State), p < 128 → (egOf s.m p).leaving = some l → allReceived s.m l.e.key l.e.msg.n = false →
    ∃ t, exec (.messageLeaveDone p) s = .next t ∧ gf t.m F.SOF_PORT_STATUS_UNDERRUN [p] = 1 ∧
      (l.e.path ≠ .guaranteed → t.m.sof = s.m.sof) ∧
      (∀ x, l.e.path = .guaranteed → transitOf s.m l.e.key = some x → (∀ k ∈ s.m.sof.letters, k.key ≠ l.e.key) →
        (egOf t.m p).leaving = some { l with left := x.got.length } ∧
        (workingPlanes s.m ≠ [] → ∃ k ∈ t.m.sof.letters, k.key = x.key ∧ k.idx = x.got.length)) ∧
      CountFrame [.sof] [(Reg.SOF_PORT_STATUS, [p])] s t) ∧
  (∀ (q : Nat) (e : QEntry) (s : State), (queueOf s.m q).settled.find? (fun e => e.path == .spilled && decide (e.fetched < e.msg.n)) = some e →
    (isIo e.msg.h.kind = false → role s.m (q / 32) ≠ 3 → ∃ t, exec (.mailbagRefill q true) s = .next t ∧
      (queueOf t.m q).settled.map (·.msg) = (queueOf s.m q).settled.map (fun f => if f.key = e.key then (poisoned f).msg else f.msg) ∧
      WatchFrame [.sof] [] s t) ∧
    (isIo e.msg.h.kind = true ∨ role s.m (q / 32) = 3 → ∃ t, exec (.mailbagRefill q true) s = .next t ∧
      t.m.sof.nullified = s.m.sof.nullified ++ [(q / 32, e.msg)] ∧ TrafficOnly s t) ∧
    ((((refilling s.m (q / 32)).filter (fun f => f.key != e.key)).map (fun f => f.msg.n)).sum + e.msg.n ≤ 128 →
      ∃ t, exec (.mailbagRefill q false) s = .next t ∧
        (queueOf t.m q).settled = (queueOf s.m q).settled.map (fun f => if f.key = e.key then
          { f with fetched := f.fetched + min 51 (receivedOf s.m e.key e.msg.n - e.fetched) } else f) ∧ WatchFrame [.sof] [] s t)) ∧
  (∀ (q : Nat) (bad : Bool) (s : State),
      (queueOf s.m q).settled.find? (fun e => e.path == .spilled && decide (e.fetched < e.msg.n)) = none →
    ∃ t, exec (.mailbagRefill q bad) s = .next t ∧ WatchFrame [] [] s t) ∧
  (∀ (n p : Nat) (x : Transit) (u : Unreceipted) (s : State), s.m.sof.transit[n]? = some x → x.tgt = .ingress p → x.msg.h.kind = .receipt →
      0 ∈ x.got → s.m.sof.unreceipted.find? (fun u => u.port == p && u.pm == x.msg.h.firstPm) = some u →
      (∀ y ∈ s.m.sof.transit, y.msg.att = p → ∀ w, y.phase ≠ .held w) →
    ∃ t, exec (.receipt n) s = .next t ∧ t.m.sof.unreceipted = s.m.sof.unreceipted.erase u ∧
      t.m.sof.transit = s.m.sof.transit.filter (fun y => y.key != x.key) ∧ CountFrame [.sof] [(Reg.SOF_ING_STATUS, [x.msg.att])] s t) ∧
  (∀ s : State, ∃ t, exec .lowReset s = .next t ∧ gf t.m F.SOF_FREE_LOW [] = freeLetters s.m.sof % 2 ^ 21 ∧
      Frame [] (isReg [(Reg.SOF_FREE, [])]) s t)

/-- R39, R102, R103, R105, R128, R258, R259, R263, R264, R131, R134: an accepted flush runs, one of scope 3 or of an absent port
ends with its reason, and one sent while another runs is discarded; a flush takes every earlier message out of a queue and ends with
its last queue. At a multiple of 1,024 ticks buckets refill up to their BURST, and one that is newly enabled begins full. A pending
gate list that passes its tests waits for its start, one that fails is refused, and at its start it is active. A window of DevLoad
gives the level, which falls by one at most. What rests on the model's own choices: log entries 26, 27, 28 and 30. -/
def Obligations.FlushesBucketsAndGates : Prop :=
  (∀ (c : Instr) (mode ticket scope p mc sc : Nat) (s : State),
      (c = .flushDiscard ticket scope p mc sc ∧ mode = 0 ∨ c = .flushError ticket scope p mc sc ∧ mode = 1) →
      stBusy (rd s.m Reg.SOF_FLUSH_STATUS) = false → scope ≠ 3 → portExists s.m p = true →
    ∃ t, exec c s = .next t ∧ rd t.m Reg.SOF_FLUSH_STATUS = statusWord ticket 2 0 0 ∧ rd t.m Reg.SOF_FLUSH_RESULT = 0 ∧
      t.m.sof.flushes = s.m.sof.flushes ++
        [⟨scope, p, mc, sc, mode, (internalPm s.m 144 (tick48 s.time.now.toNat)).1, 3, true, flushQueues scope p mc sc⟩] ∧
      Frame [.sof, .home, .pmu] (isReg [(Reg.SOF_FLUSH_STATUS, []), (Reg.SOF_FLUSH_RESULT, [])]) s t) ∧
  (∀ (c : Instr) (ticket scope p mc sc : Nat) (s : State), (c = .flushDiscard ticket scope p mc sc ∨ c = .flushError ticket scope p mc sc) →
      stBusy (rd s.m Reg.SOF_FLUSH_STATUS) = false → (scope = 3 ∨ portExists s.m p = false) →
    ∃ t, exec c s = .next t ∧ rd t.m Reg.SOF_FLUSH_STATUS = statusWord ticket 4 (if scope = 3 then 0x202 else 0x201) 0 ∧
      Frame [.logs] (isReg ([(Reg.SOF_FLUSH_STATUS, []), (Reg.SOF_FLUSH_RESULT, [])] ++ logRegs)) s t) ∧
  (∀ (c : Instr) (ticket scope p mc sc : Nat) (s : State), (c = .flushDiscard ticket scope p mc sc ∨ c = .flushError ticket scope p mc sc) →
      stBusy (rd s.m Reg.SOF_FLUSH_STATUS) = true →
    ∃ t, exec c s = .next t ∧ gf t.m F.RAS_MGMT_ERR_DISCARD [] = (gf s.m F.RAS_MGMT_ERR_DISCARD [] + 1) % 65536 ∧
      Frame [] (isReg [(Reg.RAS_MGMT_ERR, [])]) s t) ∧
  (∀ (q : Nat) (f : Flush) (s : State),
      s.m.sof.flushes.find? (fun f => f.todo.contains q && flushPast s.m f q) = some f →
      (∀ e ∈ (queueOf s.m q).settled ++ (queueOf s.m q).sorting, qno (q / 32) e.msg.mc e.msg.sc = q) →
    ∃ t, exec (.flushAct q) s = .next t ∧
      (∀ e ∈ (queueOf t.m q).settled ++ (queueOf t.m q).sorting, pmBefore e.msg.pm f.pm = false) ∧
      (f.software = true → f.todo.filter (· != q) = [] → gf t.m F.SOF_FLUSH_STATUS_STATE [] = 3) ∧ TrafficOnly s t) ∧
  (∀ (p : Nat) (s : State), s.time.now.toNat % 1024 = 0 → twf 0 s.m.sof.police = true → (∀ x ∈ s.m.sof.transit, x.phase ≠ .held .police) →
    ∃ t, exec .mc7BucketRefill s = .next t ∧
      tget 0 t.m.sof.police p = min 0 (tget 0 s.m.sof.police p + (gf s.m F.SOF_MC7_POLICE_RATE [p] * 4 : Nat)) ∧ WatchFrame [.sof] [] s t) ∧
  (∀ (q : Nat) (s : State), s.time.now.toNat % 1024 = 0 → q < 4096 → (s.m.regs.map (·.1)).Nodup →
    ∃ t, exec .shaperRefill s = .next t ∧
      tget {} t.m.sof.shapers q = refillBucket s.time.now.toNat (gfb s.m F.SCH_SHAPE_EN [q]) (gf s.m F.SCH_SHAPE_INC [q])
        (gf s.m F.SCH_SHAPE_BURST [q]) (tget {} s.m.sof.shapers q) ∧ Frame [.sof] (fun _ => false) s t) ∧
  (∀ (p : Nat) (s : State), s.time.now.toNat % 1024 = 0 → p < 128 → (s.m.regs.map (·.1)).Nodup →
    ∃ t, exec .pacerRefill s = .next t ∧
      tget {} t.m.sof.pacer p = refillBucket s.time.now.toNat (gfb s.m F.SCH_PACE_PORT_EN [p]) (gf s.m F.SCH_PACE_PORT_INC [p])
        (gf s.m F.SCH_PACE_PORT_BURST [p]) (tget {} s.m.sof.pacer p) ∧ Frame [.sof] (fun _ => false) s t) ∧
  (∀ (p ticket plen : Nat) (s : State), p < 128 → stState (rd s.m Reg.SCH_GATE_STATUS [p]) ≠ 1 → plen ≤ 256 →
      gateListOk s.m p (1 - gf s.m F.SCH_GATE_INFO_ACTIVE [p]) plen = true →
      s.time.now.toNat + 8000 ≤ gf s.m F.SCH_GATE_BASE_BASE [p, 1 - gf s.m F.SCH_GATE_INFO_ACTIVE [p]] →
    ∃ t, exec (.gateSwapRequest p ticket plen) s = .next t ∧ rd t.m Reg.SCH_GATE_STATUS [p] = statusWord ticket 1 0 0 ∧
      tget 0 t.m.sof.gateNext p = gf s.m F.SCH_GATE_BASE_BASE [p, 1 - gf s.m F.SCH_GATE_INFO_ACTIVE [p]] + 1 ∧ tget 0 t.m.sof.gateLen p = plen ∧
      gf t.m F.SCH_GATE_CTL_PLEN [p] = plen ∧ Frame [.sof] (isReg [(Reg.SCH_GATE_CTL, [p]), (Reg.SCH_GATE_STATUS, [p])]) s t) ∧
  (∀ (p ticket plen base c : Nat) (s : State), p < 128 → stState (rd s.m Reg.SCH_GATE_STATUS [p]) ≠ 1 → plen ≤ 256 →
      gateListOk s.m p (1 - gf s.m F.SCH_GATE_INFO_ACTIVE [p]) plen = true →
      base = gf s.m F.SCH_GATE_BASE_BASE [p, 1 - gf s.m F.SCH_GATE_INFO_ACTIVE [p]] →
      c = gateCycle (gateList s.m p (1 - gf s.m F.SCH_GATE_INFO_ACTIVE [p]) plen) → base < s.time.now.toNat + 8000 → c ≠ 0 →
    ∃ t n, exec (.gateSwapRequest p ticket plen) s = .next t ∧ 1 ≤ n ∧ s.time.now.toNat + 8000 ≤ base + n * c ∧
      (∀ k, 1 ≤ k → s.time.now.toNat + 8000 ≤ base + k * c → n ≤ k) ∧ tget 0 t.m.sof.gateNext p = base + n * c + 1 ∧
      rd t.m Reg.SCH_GATE_STATUS [p] = statusWord ticket 1 0 n ∧ gf t.m F.SCH_GATE_INFO_LATE [p] = 1 ∧
      Frame [.sof] (isReg [(Reg.SCH_GATE_CTL, [p]), (Reg.SCH_GATE_STATUS, [p]), (Reg.SCH_GATE_INFO, [p])]) s t) ∧
  (∀ (p ticket plen : Nat) (s : State), p < 128 → stState (rd s.m Reg.SCH_GATE_STATUS [p]) ≠ 1 →
      (256 < plen ∨ gateListOk s.m p (1 - gf s.m F.SCH_GATE_INFO_ACTIVE [p]) plen = false) →
    ∃ t, exec (.gateSwapRequest p ticket plen) s = .next t ∧ rd t.m Reg.SCH_GATE_STATUS [p] = statusWord ticket 4 0x601 0 ∧
      tget 0 t.m.sof.gateNext p = tget 0 s.m.sof.gateNext p ∧
      Frame [.logs] (isReg ([(Reg.SCH_GATE_CTL, [p]), (Reg.SCH_GATE_STATUS, [p])] ++ logRegs)) s t) ∧
  (∀ (p : Nat) (s : State), p < 128 → tget 0 s.m.sof.gateNext p ≠ 0 → tget 0 s.m.sof.gateNext p ≤ s.time.now.toNat + 1 →
    ∃ t, exec (.gateSwap p) s = .next t ∧ gf t.m F.SCH_GATE_INFO_ACTIVE [p] = 1 - gf s.m F.SCH_GATE_INFO_ACTIVE [p] ∧
      gf t.m F.SCH_GATE_INFO_ALEN [p] = tget 0 s.m.sof.gateLen p % 512 ∧ tget 0 t.m.sof.gateStart p + 1 = tget 0 s.m.sof.gateNext p ∧
      tget 0 t.m.sof.gateNext p = 0 ∧ gf t.m F.SCH_GATE_STATUS_STATE [p] = 3 ∧
      Frame [.sof, .logs] (isReg ([(Reg.SCH_GATE_STATUS, [p]), (Reg.SCH_GATE_INFO, [p])] ++ logRegs)) s t) ∧
  (∀ (f p k lvl old : Nat) (s : State), gf s.m F.SOF_DEVLOAD_CFG_WIN [] ≠ 0 →
      s.time.now.toNat % (gf s.m F.SOF_DEVLOAD_CFG_WIN [] * 64) = 0 → (enabledFlds s.m).contains f = true → holdsPos s.m f = true →
      gf s.m F.TEN_FLD_STATUS_BOUND [f] = 1 →
      p = gf s.m F.TEN_FLD_CFG_PORT [f] → k = gf s.m F.TEN_FLD_CFG_POS [f] → lvl = devLoadLevel s.m f (tget {} s.m.sof.devload f) →
      old = getBits (rd s.m Reg.SOF_DEVLOAD_STATUS [p]) (2 * k + 1) (2 * k) →
    ∃ t, exec (.devloadWindowEnd f) s = .next t ∧
      getBits (rd t.m Reg.SOF_DEVLOAD_STATUS [p]) (2 * k + 1) (2 * k) = max lvl (old - 1) ∧ tget {} t.m.sof.devload f = {} ∧
      (max lvl (old - 1) = 3 → old ≠ 3 → gf t.m F.SOF_DEVLOAD_EVT_SEVERE [] = 1 ∧ gf t.m F.SOF_DEVLOAD_EVT_LAST_PORT [] = p) ∧
      Frame [.sof, .logs] (isReg ([(Reg.SOF_DEVLOAD_STATUS, [p]), (Reg.SOF_DEVLOAD_EVT, [])] ++ logRegs)) s t)

/-! ### Chapters 06, 07: home slices -/

/-- R137, R139, R140, R144, R149, R153, R164: a message whole at its slice, for which there is room, becomes an open item of its
line, and without room is refused; a BIRsp that matches no snoop is a protocol error of kind 1, or 2 for a BIRspBlk, and one that
matches completes its snoop; a member response ends its access, and one that matches none is dead-lettered with cause 7; a
HOST_REMOVED notice begins the removal at its postmark in every quadrant that knows the host; a held snoop is issued; an item that
waits chooses again. What rests on the model's own choices: log entries 18 and 19. -/
def Obligations.ItemsReachTheirSlice : Prop :=
  (∀ (n k : Nat) (e : HbmErr) (x : Transit) (r : Bool × Bool) (s : State), s.m.sof.transit[n]? = some x → x.tgt = .slice k → k < 64 → atDoor x = true →
      x.msg.n ≤ x.got.length → isInput x.msg.h.kind = false → bitAt (gf s.m F.HQ_SLICE_MAP_PAUSED [k / 16]) (k % 16) = false →
      intakeRoom s.m k x = some r → x.msg.arrival = false →
    ∃ t, exec (.itemArrival ⟨n, e⟩) s = .next t ∧ (sliceOf t.m k).nextSeq = (sliceOf s.m k).nextSeq + 1 ∧
      (∃ i ∈ (sliceOf t.m k).items, i.seq = (sliceOf s.m k).nextSeq ∧ i.msg = x.msg ∧ i.line = x.msg.pool / 64 * 64 ∧ i.conf = 0 ∧
        i.work = workOf x.msg ∧ (i.data, i.mask) = itemData x.msg ∧ (i.reservedEntry, i.reservedRec) = r) ∧ TrafficOnly s t) ∧
  (∀ (n k : Nat) (e : HbmErr) (x : Transit) (s : State), s.m.sof.transit[n]? = some x → x.tgt = .slice k → k < 64 → atDoor x = true →
      x.msg.n ≤ x.got.length → isInput x.msg.h.kind = false → bitAt (gf s.m F.HQ_SLICE_MAP_PAUSED [k / 16]) (k % 16) = false →
      intakeRoom s.m k x = none → x.phase = .flying →
    ∃ t, exec (.itemArrival ⟨n, e⟩) s = .next t ∧ { x with phase := .pinned, pins := [1024 + k] } ∈ t.m.sof.transit ∧
      CountFrame [.sof] [(Reg.SOF_ING_STATUS, [x.msg.att])] s t) ∧
  (∀ (k : Nat) (x : Msg) (s : State), k < 64 → serving s.m k = true → nextInput s.m k = some x → isBiRsp x.h.kind = true →
      (sliceOf s.m k).snoops.find? (fun n => n.issued && x.h.tag == k + 64 * n.id && some n.host == hostIndex s.m (k / 16) x.src) = none →
    ∃ t, exec (.applyBirsp k) s = .next t ∧ gf t.m F.HQ_PROTO_ERR_LAST_KIND [k / 16] = (if x.h.kind = .biRspBlk then 2 else 1) ∧
      gf t.m F.HQ_PROTO_ERR_ERR [k / 16] = 1 ∧ gf t.m F.HQ_PROTO_ERR_LAST_SOURCE [k / 16] = x.src % 2 ^ 18 ∧
      (sliceOf t.m k).inputs = (sliceOf s.m k).inputs.erase ⟨x⟩ ∧ (sliceOf t.m k).snoops = (sliceOf s.m k).snoops ∧
      WatchFrame [.home] [(Reg.HQ_PROTO_ERR, [k / 16])] s t) ∧
  (∀ (k : Nat) (x : Msg) (n : Snoop) (s : State), k < 64 → serving s.m k = true → nextInput s.m k = some x → x.h.kind = .biRspI →
      (sliceOf s.m k).snoops.find? (fun n => n.issued && x.h.tag == k + 64 * n.id && some n.host == hostIndex s.m (k / 16) x.src) = some n →
    ∃ t, exec (.applyBirsp k) s = .next t ∧
      t = { s with m := wmAll s.time.now.toNat (completeSnoop s.time.now.toNat k (dropInput s.m k x) n .i x.pm.tick) } ∧ TrafficOnly s t) ∧
  (∀ (k : Nat) (x : Msg) (a : Access) (s : State), k < 64 → serving s.m k = true → nextInput s.m k = some x → isS2MRsp x.h.kind = true →
      accessFor s.m k x = some a →
    ∃ t, exec (.applyMemberResponse k) s = .next t ∧ t = { s with m := wmAll s.time.now.toNat (sweepDone s.time.now.toNat k
      (payAll s.time.now.toNat k (accessDone s.time.now.toNat k (dropInput s.m k x) a x))) } ∧ TrafficOnly s t) ∧
  (∀ (k : Nat) (x : Msg) (s : State), k < 64 → serving s.m k = true → nextInput s.m k = some x → isS2MRsp x.h.kind = true →
      accessFor s.m k x = none →
      s.m.home.copies.find? (fun c => c.slice == k && c.id == x.h.tag / 64 && x.h.kind != .memData) = none →
    ∃ t, exec (.applyMemberResponse k) s = .next t ∧
      t.m = wmAll s.time.now.toNat (deadLetter (dropInput s.m k x) s.time.now.toNat x 7 .discarded) ∧
      (sliceOf t.m k).inputs = (sliceOf s.m k).inputs.erase ⟨x⟩ ∧ WatchFrame [.home] [] s t) ∧
  (∀ (n : Nat) (x : Transit) (s : State), s.m.sof.transit[n]? = some x → x.msg.h.kind = .hostRemoved → x.tgt = .postmaster → 0 ∈ x.got →
    ∃ t, exec (.applyHostRemoved n) s = .next t ∧ t.m.sof.transit = s.m.sof.transit.filter (fun y => y.key != x.key) ∧
      (∀ q h, q < 4 → hostIndex s.m q x.msg.h.hostPc = some h →
        gf t.m F.HQ_HOST_STATUS_SCRUB [q, h] = 1 ∧ (⟨h, x.msg.pm, q, [], 0⟩ : Removal) ∈ t.m.home.removals) ∧ TrafficOnly s t) ∧
  (∀ (k : Nat) (n : Snoop) (s : State), k < 64 → serving s.m k = true → snoopsOut (sliceOf s.m k) < 1024 →
      lbest (fun (a b : Snoop) => decide (confOf (sliceOf s.m k) a.item < confOf (sliceOf s.m k) b.item)) ((sliceOf s.m k).snoops.filter (fun n =>
        !n.issued && !ndrOwed s.m k (sliceOf s.m k) n.line n.host (confOf (sliceOf s.m k) n.item))) = some n →
    ∃ t, exec (.heldSnoopIssue k) s = .next t ∧
      (sliceOf t.m k).snoops = (sliceOf s.m k).snoops.map (fun x => if x = n then { x with issued := true } else x) ∧ TrafficOnly s t) ∧
  (∀ (k : Nat) (i : Item) (s : State), k < 64 → serving s.m k = true →
      lbest (fun (a b : Item) => decide (a.conf < b.conf)) ((sliceOf s.m k).items.filter (·.stuck)) = some i →
    ∃ t, exec (.evictionWaitResume k) s = .next t ∧
      t = { s with m := wmAll s.time.now.toNat (advance s.time.now.toNat k i.line (modItem s.m k i.seq (fun j => { j with stuck := false }))) } ∧
      TrafficOnly s t)

/-- R48, R49, R140, R148, R153, R154, R155, R156, R189, R112, R186: the item that a serving slice confirms next, where it is of the
command's kind and its set is not being censused, takes the next place in confirmation order and runs its line, and nothing outside
the traffic changes. A MemSpecRd changes no coherence state, no cached line and sends nothing; a BIConflict is answered with a
BIConflictAck of its own postmark. An item of another kind is left to its own command. What rests on the model's own choices: log
entries 33, 34, 38, 144 and 145. -/
def Obligations.RequestsAreConfirmed : Prop :=
  (∀ (k : Nat) (e : HbmErr) (c : ConfirmKind) (x : Instr) (i : Item) (s : State), ConfirmsBy k e c x → Confirms k c i s →
    ∃ t, exec x s = .next t ∧ t = { s with m := wmAll s.time.now.toNat (confirmItem s.time.now.toNat k s.m i e) } ∧
      (sliceOf t.m k).nextConf = (sliceOf s.m k).nextConf + 1 ∧ TrafficOnly s t) ∧
  (∀ (k : Nat) (i : Item) (s : State), Confirms k .memSpecRd i s → i.work = .specRd → s.m.home.removals = [] →
    ∃ t, exec (.confirmMemSpecRd k) s = .next t ∧ (sliceOf t.m k).carbon = (sliceOf s.m k).carbon ∧
      (sliceOf t.m k).cache = (sliceOf s.m k).cache ∧ (sliceOf t.m k).snoops = (sliceOf s.m k).snoops ∧
      (sliceOf t.m k).accesses = (sliceOf s.m k).accesses ∧ (sliceOf t.m k).wide = (sliceOf s.m k).wide ∧ t.m.sof = s.m.sof ∧ TrafficOnly s t) ∧
  (∀ (k : Nat) (i : Item) (y0 : Msg) (g : Target) (s : State), Confirms k .biConflict i s → i.work = .conflict → s.m.home.removals = [] →
      s.m.amd.past = [] → isIo i.msg.h.kind = false →
      y0 = replyTo s.m i.msg (sliceAtt k) .biConflictAck false false .ok [] i.msg.pm (answerSc s.m k i.msg) → replyTarget s.m i.msg y0 = .inl g →
    ∃ t, exec (.confirmBiConflict k) s = .next t ∧ (sliceOf t.m k).carbon = (sliceOf s.m k).carbon ∧
      (∃ y ∈ t.m.sof.transit, y.msg.h.kind = .biConflictAck ∧ y.msg.h.tag = i.msg.h.tag ∧ y.msg.dst = i.msg.src ∧ y.tgt = g ∧
        y.msg.pm = i.msg.pm ∧ y.phase = .flying) ∧ TrafficOnly s t) ∧
  (∀ (k : Nat) (e : HbmErr) (c : ConfirmKind) (x : Instr) (i : Item) (s : State), ConfirmsBy k e c x → nextItem s.m k = some i →
      confirmKind s.m k i ≠ c → ∃ t, exec x s = .next t ∧ WatchFrame [] [] s t)

/-- R39, R147, R163, R164, R180, R181, R187, R433: a sweep item is issued at its multiple of 16 ticks, after those of lower slices, and once
confirmed the sweep moves on by one set, or stops with no host over quota; the periodic cleaning does the same, and in a clean of the
whole device each slice notes its dirty ways and then takes its sets in order; a census ends a removal and clears SCRUB; the census of a
lost set visits its lines and then ends; HQ_REMOVE, FCH_CLEAN and FCH_MIRROR_CLR start and clear what they name. What rests on the
model's own choices: log entries 35, 102 and 166. -/
def Obligations.SlicesSweepAndCount : Prop :=
  (∀ (k : Nat) (s : State), ∃ t, exec (.sweepItem k) s = .next t ∧ TrafficOnly s t) ∧
  (∀ (k d : Nat) (pm : Postmark) (s : State), k < 64 → serving s.m k = true → (sliceOf s.m k).sweepPm = [] → (sliceOf s.m k).sweepDue = d + 1 →
      (sliceOf s.m k).sweepFrom ≤ s.time.now.toNat → s.time.now.toNat < (sliceOf s.m k).sweepFrom + 64 →
      (∀ r, r < k → (sliceOf s.m r).sweepDue ≠ d + 1) → pm = (internalPm s.m 146 d).1 → agentTurn s.m k pm = false →
    ∃ t, exec (.sweepItem k) s = .next t ∧ (sliceOf t.m k).sweepPm = [pm] ∧ (sliceOf t.m k).sweepDue = tickAdd d 16 + 1 ∧
      WatchFrame [.home, .pmu] [] s t) ∧
  (∀ (k : Nat) (pm : Postmark) (l : List Postmark) (s : State), k < 64 → serving s.m k = true → (sliceOf s.m k).sweepPm = pm :: l →
      (∀ r, r ≤ k → (sliceOf s.m r).sweepDue = 0 ∨ s.time.now.toNat < (sliceOf s.m r).sweepFrom) → agentTurn s.m k pm = true → s.m.home.removals = [] → s.m.amd.past = [] →
    ∃ t, exec (.sweepItem k) s = .next t ∧
      (overHosts s.m k (sliceOf s.m k) = [] → (sliceOf t.m k).sweepDue = 0 ∧ (sliceOf t.m k).sweepPtr = (sliceOf s.m k).sweepPtr) ∧
      (overHosts s.m k (sliceOf s.m k) ≠ [] → (sliceOf t.m k).sweepPm = l ∧
        (sliceOf t.m k).sweepPtr = ((sliceOf s.m k).sweepPtr + 1) % (64 * carbonK s.m k)) ∧ TrafficOnly s t) ∧
  (∀ (k : Nat) (e : HbmErr) (s : State), ∃ t, exec (.cleaningItem ⟨k, e⟩) s = .next t ∧ TrafficOnly s t) ∧
  (∀ (k d : Nat) (e : HbmErr) (pm : Postmark) (s : State), k < 64 → serving s.m k = true → s.m.home.cleanPm = none →
      (sliceOf s.m k).cleanPm = [] → (sliceOf s.m k).cleanDue = d + 1 → (sliceOf s.m k).cleanFrom ≤ s.time.now.toNat →
      s.time.now.toNat < (sliceOf s.m k).cleanFrom + 64 → (∀ r, r < k → (sliceOf s.m r).cleanDue ≠ d + 1) →
      pm = (internalPm s.m 145 d).1 → agentTurn s.m k pm = false →
    ∃ t, exec (.cleaningItem ⟨k, e⟩) s = .next t ∧ (sliceOf t.m k).cleanPm = [pm] ∧ (sliceOf t.m k).cleanDue = tickAdd d 16 + 1 ∧
      WatchFrame [.home, .pmu] [] s t) ∧
  (∀ (k : Nat) (e : HbmErr) (pm : Postmark) (l : List Postmark) (s : State), k < 64 → serving s.m k = true → s.m.home.cleanPm = none →
      (sliceOf s.m k).cleanPm = pm :: l → (∀ r, r ≤ k → (sliceOf s.m r).cleanDue = 0 ∨ s.time.now.toNat < (sliceOf s.m r).cleanFrom) → agentTurn s.m k pm = true →
      s.m.home.removals = [] → s.m.amd.past = [] → strandedSets s.m k = [] →
    ∃ t, exec (.cleaningItem ⟨k, e⟩) s = .next t ∧
      ((dirtyCount (sliceOf s.m k) = 0 ∨ dirtyCount (sliceOf s.m k) * 100 < gf s.m F.FCH_CFG_CLEAN_STOP * budgetOf s.m) →
        (sliceOf t.m k).cleanDue = 0 ∧ (sliceOf t.m k).cleanPtr = (sliceOf s.m k).cleanPtr) ∧
      (dirtyCount (sliceOf s.m k) ≠ 0 → gf s.m F.FCH_CFG_CLEAN_STOP * budgetOf s.m ≤ dirtyCount (sliceOf s.m k) * 100 →
        (sliceOf t.m k).cleanPm = l ∧ (sliceOf t.m k).cleanPtr = ((sliceOf s.m k).cleanPtr + 1) % 2 ^ 21) ∧ TrafficOnly s t) ∧
  (∀ (k : Nat) (e : HbmErr) (pm : Postmark) (s : State), k < 64 → serving s.m k = true → s.m.home.cleanPm = some pm →
      s.m.home.cleanTodo.contains k = true → agentTurn s.m k pm = true →
    ∃ t, exec (.cleaningItem ⟨k, e⟩) s = .next t ∧ t.m.home.cleanTodo = s.m.home.cleanTodo.filter (· != k) ∧ TrafficOnly s t) ∧
  (∀ (k fs : Nat) (ws : List Nat) (l : List (Nat × List Nat)) (e : HbmErr) (pm : Postmark) (s : State), k < 64 → serving s.m k = true →
      s.m.home.cleanPm = some pm → s.m.home.cleanTodo.contains k = false → (sliceOf s.m k).toClean = (fs, ws) :: l →
      (∀ r, r < k → s.m.home.cleanTodo.contains r = false ∧ (sliceOf s.m r).toClean = []) →
      agentTurn s.m k (internalPm s.m 145 pm.tick).1 = true →
    ∃ t, exec (.cleaningItem ⟨k, e⟩) s = .next t ∧ (sliceOf t.m k).toClean = l ∧ TrafficOnly s t) ∧
  (∀ (q : Nat) (r : Removal) (s : State), q < 4 → s.m.home.removals.find? (fun r => r.quad == q) = some r → r.host < 512 →
      (∀ j, j < 16 → serving s.m (16 * q + j) = true ∧ (r.applied.contains (16 * q + j) = true ∨ horizonPast s.m (1024 + (16 * q + j)) r.pm.tick = true)) →
    ∃ t, exec (.hostCensus q) s = .next t ∧ r ∉ t.m.home.removals ∧ gf t.m F.HQ_HOST_STATUS_SCRUB [q, r.host] = 0 ∧
      rd t.m Reg.HQ_REMOVE_STATUS [q] = statusWord r.ticket 3 0 (16 * 64 * gf t.m F.HQ_CARBON_CFG_K [q] / 4096) ∧ TrafficOnly s t) ∧
  (∀ (k tag : Nat) (c : Census) (pm : Postmark) (s : State), k < 64 → serving s.m k = true →
      s.m.home.setCensus.find? (fun c => c.slice == k) = some c → censusTag s.m (kOf s.m k) c.set c.tag = some tag →
      ((sliceOf s.m k).censusPm = some pm ∨ (sliceOf s.m k).censusPm = none ∧ max c.since (expandTick s.time.now.toNat c.tick) ≤ s.time.now.toNat ∧
        s.time.now.toNat < max c.since (expandTick s.time.now.toNat c.tick) + 64 ∧ pm = (internalPm s.m 146 c.tick).1) →
      agentTurn s.m k pm = true →
    ∃ t d, exec (.carbonCensus k) s = .next t ∧ d ∈ t.m.home.setCensus ∧ d.slice = k ∧ d.set = c.set ∧ d.tag = tag + 1 ∧ d.lines = c.lines + 1 ∧
      rd t.m Reg.RAS_CENSUS_STATUS = statusWord 0 2 0 (gf s.m F.RAS_CENSUS_STATUS_DONE_UNITS + 1) ∧ TrafficOnly s t) ∧
  (∀ (k : Nat) (c : Census) (s : State), k < 64 → serving s.m k = true → c.slice = k → s.m.home.setCensus = [c] → s.m.home.pairCensus = [] →
      censusTag s.m (kOf s.m k) c.set c.tag = none → (∀ x ∈ (sliceOf s.m k).snoops, x.capacity = false) →
    ∃ t, exec (.carbonCensus k) s = .next t ∧ t.m.home.setCensus = [] ∧
      rd t.m Reg.RAS_CENSUS_STATUS = statusWord 0 3 0 (gf s.m F.RAS_CENSUS_STATUS_DONE_UNITS) ∧
      WatchFrame [.home] [(Reg.RAS_CENSUS_STATUS, [])] s t) ∧
  (∀ (q ticket h : Nat) (s : State), q < 4 → stBusy (rd s.m Reg.HQ_REMOVE_STATUS [q]) = false → h < 512 → gf s.m F.HQ_HOST_CFG_VALID [q, h] = 1 →
    ∃ t, exec (.hqRemove q ticket h) s = .next t ∧ gf t.m F.HQ_HOST_STATUS_SCRUB [q, h] = 1 ∧
      rd t.m Reg.HQ_REMOVE_STATUS [q] = statusWord ticket 2 0 0 ∧
      t.m.home.removals = s.m.home.removals ++ [⟨h, (internalPm s.m 144 (tick48 s.time.now.toNat)).1, q, [], ticket⟩] ∧
      Frame [.home, .pmu, .logs] (isReg ([(Reg.HQ_HOST_STATUS, [q, h]), (Reg.HQ_REMOVE_STATUS, [q])] ++ logRegs)) s t) ∧
  (∀ (q ticket h : Nat) (s : State), q < 4 → stBusy (rd s.m Reg.HQ_REMOVE_STATUS [q]) = false → (512 ≤ h ∨ gf s.m F.HQ_HOST_CFG_VALID [q, h] = 0) →
    ∃ t, exec (.hqRemove q ticket h) s = .next t ∧ rd t.m Reg.HQ_REMOVE_STATUS [q] = statusWord ticket 4 0x301 0 ∧
      Frame [.logs] (isReg ([(Reg.HQ_REMOVE_STATUS, [q])] ++ logRegs)) s t) ∧
  (∀ (ticket : Nat) (s : State), stBusy (rd s.m Reg.FCH_CLEAN_STATUS) = false →
    ∃ t, exec (.fchClean ticket) s = .next t ∧ rd t.m Reg.FCH_CLEAN_STATUS = statusWord ticket 2 0 0 ∧
      t.m.home.cleanPm = some (internalPm s.m 144 (tick48 s.time.now.toNat)).1 ∧ 
      t.m.home.cleanTodo = (List.range 64).filter (fun k => bitAt (gf s.m F.HQ_SLICE_MAP_ACTIVE [k / 16]) (k % 16)) ∧ t.m.home.cleanLeft = 0 ∧
      t.m.home.cleanFailed = false ∧ Frame [.home, .pmu] (isReg [(Reg.FCH_CLEAN_STATUS, [])]) s t) ∧
  (∀ (ticket : Nat) (s : State), stBusy (rd s.m Reg.FCH_CLEAN_STATUS) = true →
    ∃ t, exec (.fchClean ticket) s = .next t ∧ gf t.m F.RAS_MGMT_ERR_DISCARD [] = (gf s.m F.RAS_MGMT_ERR_DISCARD [] + 1) % 65536 ∧
      Frame [] (isReg [(Reg.RAS_MGMT_ERR, [])]) s t) ∧
  (∀ (g : Nat) (s : State), 0 < g → g < 256 →
    ∃ t, exec (.fchMirrorClr g) s = .next t ∧ gf t.m F.FCH_MGRP_STATUS_DEGRADED [g] = 0 ∧ g ∉ t.m.home.degraded ∧
      Frame [.home] (isReg [(Reg.FCH_MGRP_STATUS, [g])]) s t) ∧
  (∀ s : State, exec (.fchMirrorClr 0) s = .next s)

/-! ### Chapter 08: parcels -/

/-- R195, R196, R197, R203, R204, R205, R7: a settled write to slots that is no doorbell writes descriptor bytes, in each slot that it
reaches, and is discarded and counted where it touches a doorbell. SUBMIT admits a valid descriptor to the engine with the fewest parcels and ends an invalid one with
0x501; RELEASE clears a result area; ABORT ends its parcel, once nothing of it is outstanding, in STATE 5 with 0x509. A doorbell on
a busy slot, a wrong ticket, or a slot not granted is counted with its cause. Reserved doorbells and descriptors stop the model.
What rests on the model's own choices: log entries 9 and 175. -/
def Obligations.DoorbellsAreServed : Prop :=
  (∀ (x : Msg) (f k off : Nat) (s : State), dispatchNext s.m 5 = some x → slotOf x = some (f, k, off) → x.h.kind = .mwr → isDoorbell x off = false →
      touchesDoorbell k off x.h.data.length = none →
    ∃ t, exec .descriptorWrite s = .next t ∧
      (∀ z ∈ slotSpans k off x.h.data.length, slotAt t.m f z.1 = { slotAt s.m f z.1 with
        desc := writeDesc (slotAt s.m f z.1).desc (x.h.data.drop z.2.2) z.2.1 }) ∧
      (∀ j, (∀ z ∈ slotSpans k off x.h.data.length, j ≠ 16 * f + z.1) → tget ({} : PSlot) t.m.eng.slots j = tget {} s.m.eng.slots j) ∧
      tget [] t.m.eng.intake 5 = (tget [] s.m.eng.intake 5).erase x ∧ t.m.eng.parcels = s.m.eng.parcels ∧ CountFrame [.eng] [] s t) ∧
  (∀ (x : Msg) (f k off j : Nat) (s : State), dispatchNext s.m 5 = some x → slotOf x = some (f, k, off) → x.h.kind = .mwr →
      isDoorbell x off = false → touchesDoorbell k off x.h.data.length = some j →
    ∃ t, exec .descriptorWrite s = .next t ∧ Counted 5 f j t ∧ t.m.eng.slots = s.m.eng.slots ∧
      tget [] t.m.eng.intake 5 = (tget [] s.m.eng.intake 5).erase x ∧ CountFrame [.eng] [(Reg.PCL_DB_ERR, [])] s t) ∧
  (∀ (x : Msg) (f k ticket : Nat) (s : State), reservedDoorbell s.m = none → nextDoorbell s.m 0 = some (x, f, k, ticket) →
      k < gf s.m F.TEN_FLD_CFG_SLOTS [f] → busyState (slotAt s.m f k).cur.state = false → descriptorReserved (slotAt s.m f k).desc = false →
      descriptorOk (slotAt s.m f k).desc = true →
    ∃ t p, exec .doorbellSubmit s = .next t ∧ t.m.eng.parcels = s.m.eng.parcels ++ [p] ∧ p.num = s.m.eng.accepted ∧ p.fld = f ∧ p.slot = k ∧
      p.desc = (slotAt s.m f k).desc ∧ p.engine = chooseEngine s.m ∧ p.world = (if x.world = 3 then 0 else x.world) ∧ p.lag = gf s.m F.PCL_CFG_LAG [] ∧ p.flying = [] ∧
      p.j = 0 ∧ p.stopped = false ∧ t.m.eng.accepted = s.m.eng.accepted + 1 ∧ (slotAt t.m f k).cur = { ticket := ticket, state := 1 } ∧
      CountFrame [.eng] [(Reg.PCL_ENG_STATUS, [chooseEngine s.m])] s t) ∧
  (∀ (x : Msg) (f k ticket : Nat) (s : State), reservedDoorbell s.m = none → nextDoorbell s.m 0 = some (x, f, k, ticket) →
      k < gf s.m F.TEN_FLD_CFG_SLOTS [f] → busyState (slotAt s.m f k).cur.state = false → descriptorReserved (slotAt s.m f k).desc = false →
      descriptorOk (slotAt s.m f k).desc = false →
    ∃ t, exec .doorbellSubmit s = .next t ∧ t.m.eng.parcels = s.m.eng.parcels ∧
      (slotAt t.m f k).cur = { ticket := ticket, state := 4, reason := 0x501 } ∧ CountFrame [.eng] [] s t) ∧
  (∀ (x : Msg) (f k ticket : Nat) (s : State), reservedDoorbell s.m = none → nextDoorbell s.m 0 = some (x, f, k, ticket) →
      k < gf s.m F.TEN_FLD_CFG_SLOTS [f] → busyState (slotAt s.m f k).cur.state = true →
    ∃ t, exec .doorbellSubmit s = .next t ∧ Counted 1 f k t ∧ slotAt t.m f k = slotAt s.m f k ∧ CountFrame [.eng] [(Reg.PCL_DB_ERR, [])] s t) ∧
  (∀ (x : Msg) (f k ticket cmd : Nat) (c : Instr) (s : State),
      (c = .doorbellSubmit ∧ cmd = 0 ∨ c = .doorbellRelease ∧ cmd = 1 ∨ c = .doorbellAbort ∧ cmd = 2) →
      reservedDoorbell s.m = none → nextDoorbell s.m cmd = some (x, f, k, ticket) → gf s.m F.TEN_FLD_CFG_SLOTS [f] ≤ k →
    ∃ t, exec c s = .next t ∧ Counted 4 f k t ∧ slotAt t.m f k = slotAt s.m f k ∧ CountFrame [.eng] [(Reg.PCL_DB_ERR, [])] s t) ∧
  (∀ (x : Msg) (f k ticket : Nat) (s : State), reservedDoorbell s.m = none → nextDoorbell s.m 1 = some (x, f, k, ticket) →
      k < gf s.m F.TEN_FLD_CFG_SLOTS [f] → busyState (slotAt s.m f k).cur.state = false →
    ∃ t, exec .doorbellRelease s = .next t ∧ (slotAt t.m f k).cur = { ticket := ticket } ∧ (slotAt t.m f k).desc = (slotAt s.m f k).desc ∧
      CountFrame [.eng] [] s t) ∧
  (∀ (x : Msg) (f k ticket : Nat) (s : State), reservedDoorbell s.m = none → nextDoorbell s.m 1 = some (x, f, k, ticket) →
      k < gf s.m F.TEN_FLD_CFG_SLOTS [f] → busyState (slotAt s.m f k).cur.state = true →
    ∃ t, exec .doorbellRelease s = .next t ∧ Counted 2 f k t ∧ slotAt t.m f k = slotAt s.m f k ∧ CountFrame [.eng] [(Reg.PCL_DB_ERR, [])] s t) ∧
  (∀ (x : Msg) (f k ticket : Nat) (p : Parcel) (s : State), reservedDoorbell s.m = none → nextDoorbell s.m 2 = some (x, f, k, ticket) →
      k < gf s.m F.TEN_FLD_CFG_SLOTS [f] → busyState (slotAt s.m f k).cur.state = true → (slotAt s.m f k).cur.ticket = ticket →
      s.m.eng.parcels.find? (fun p => !p.postmaster && p.fld == f && p.slot == k) = some p → parcelOf s.m p.num = some p →
      p.stopped = false → p.flying = [] →
    ∃ t, exec .doorbellAbort s = .next t ∧ (∀ q ∈ t.m.eng.parcels, q.num ≠ p.num) ∧ (slotAt t.m f k).cur.state = 5 ∧
      (slotAt t.m f k).cur.reason = 0x509 ∧ (slotAt t.m f k).cur.ticket = ticket ∧
      CountFrame [.eng] [(Reg.PCL_ENG_STATUS, [p.engine])] s t) ∧
  (∀ (x : Msg) (f k ticket : Nat) (s : State), reservedDoorbell s.m = none → nextDoorbell s.m 2 = some (x, f, k, ticket) →
      k < gf s.m F.TEN_FLD_CFG_SLOTS [f] → (busyState (slotAt s.m f k).cur.state = false ∨ (slotAt s.m f k).cur.ticket ≠ ticket) →
    ∃ t, exec .doorbellAbort s = .next t ∧ Counted 3 f k t ∧ slotAt t.m f k = slotAt s.m f k ∧ CountFrame [.eng] [(Reg.PCL_DB_ERR, [])] s t) ∧
  (∀ (f k : Nat) (c : Instr) (s : State), (c = .doorbellSubmit ∨ c = .doorbellRelease ∨ c = .doorbellAbort) → reservedDoorbell s.m = some (f, k) →
    exec c s = .fault (.reservedParcel f k)) ∧
  (∀ (x : Msg) (f k ticket : Nat) (s : State), nextDoorbell s.m 0 = some (x, f, k, ticket) → k < gf s.m F.TEN_FLD_CFG_SLOTS [f] →
      busyState (slotAt s.m f k).cur.state = false → descriptorReserved (slotAt s.m f k).desc = true →
    exec .doorbellSubmit s = .fault (.reservedParcel f k))

/-- R206, R207, R208, R211, R212, R214: at an engine's next slot a parcel whose doorbell is 256 ticks old joins the rotation, and the head of
the rotation issues its next slot, once; with 4,096 operations outstanding the engine waits, and a slot 64 ticks overdue slips by what it
is late. A write whose data has come is issued once. An answer settles its operation once, and one that no operation awaits is
dead-lettered. A settled read of a slot is answered with one snapshot of its bytes. What rests on the model's own choices: log entry 43. -/
def Obligations.ParcelsRun : Prop :=
  (∀ (e k num : Nat) (m : Mach) (p : Parcel) (s : State), e < 16 → e ∉ s.m.eng.lost → engineNext s.m.eng e = some k → k ≤ s.time.now.toNat →
      m = joinRotation s.m e k → (tget [] m.eng.rotation e).head? = some num → parcelOf m num = some p →
    (s.time.now.toNat < max k p.accAt + 64 → linesInFlight m e < 4096 →
      ∃ t, exec (.engineSlot e) s = .next t ∧ (∀ q, parcelOf t.m num = some q → q.j = p.j + 1) ∧ tget 0 t.m.eng.last e = k + 1 ∧ TrafficOnly s t) ∧
    (s.time.now.toNat < max k p.accAt + 64 → 4096 ≤ linesInFlight m e →
      ∃ t, exec (.engineSlot e) s = .next t ∧ t.m.eng.parcels = m.eng.parcels ∧ tget 0 t.m.eng.last e = k - 3 ∧
        tget 0 t.m.eng.shift e = tget 0 s.m.eng.shift e ∧ WatchFrame [.eng] [] s t) ∧
    (max k p.accAt + 64 ≤ s.time.now.toNat →
      ∃ t, exec (.engineSlot e) s = .next t ∧ tget 0 t.m.eng.shift e = tget 0 s.m.eng.shift e + (s.time.now.toNat - k) ∧
        gf t.m F.FTM_SLIP_SLIPPED [] = 1 ∧ gf t.m F.FTM_SLIP_LAST_SOURCE [] = 128 + e ∧ gf t.m F.PCL_ENG_STATUS_SLIP [e] = 1 ∧
        (linesInFlight m e < 4096 → ∀ q, parcelOf t.m num = some q → q.j = p.j + 1) ∧ TrafficOnly s t)) ∧
  (∀ (e k : Nat) (p : Parcel) (s : State), e < 16 → e ∉ s.m.eng.lost → engineNext s.m.eng e = some k → k ≤ s.time.now.toNat →
      p ∈ s.m.eng.parcels → p.engine = e → p.ready = none → p.doorbellTick + 256 ≤ k →
    ∃ t, exec (.engineSlot e) s = .next t ∧ (∀ q ∈ t.m.eng.parcels, q.num = p.num → q.ready = some k) ∧ TrafficOnly s t) ∧
  (∀ (e : Nat) (s : State), (∀ k, engineNext s.m.eng e = some k → s.time.now.toNat < k) →
    ∃ t, exec (.engineSlot e) s = .next t ∧ WatchFrame [] [] s t) ∧
  (∀ (e num : Nat) (w : DueWrite) (p : Parcel) (s : State), writeDue s.m e = some (num, w) → parcelOf s.m num = some p →
      s.time.now.toNat < w.since + 63 →
    ∃ t, exec (.parcelWriteIssue e) s = .next t ∧ (∀ q, parcelOf t.m num = some q → q.due = p.due.erase w ∨ q.due = []) ∧ TrafficOnly s t) ∧
  (∀ (e num : Nat) (w : DueWrite) (s : State), e < 16 → writeDue s.m e = some (num, w) → w.since + 63 ≤ s.time.now.toNat →
    ∃ t, exec (.parcelWriteIssue e) s = .next t ∧ gf t.m F.FTM_SLIP_SLIPPED [] = 1 ∧ gf t.m F.PCL_ENG_STATUS_SLIP [e] = 1 ∧ TrafficOnly s t) ∧
  (∀ (n e num : Nat) (x : Transit) (o : LineOp) (p : Parcel) (s : State), s.m.sof.transit[n]? = some x → x.tgt = .engine e → x.msg.n ≤ x.got.length →
      s.m.eng.parcels.findSome? (fun p => if p.engine == e then (p.flying.find? (fun o => o.tag == x.msg.h.etag)).map (fun o => (p.num, o)) else none)
        = some (num, o) → parcelOf s.m num = some p →
    ∃ t, exec (.lineOpSettle n) s = .next t ∧ (∀ q, parcelOf t.m num = some q → q.flying = p.flying.erase o) ∧
      t.m.sof.transit = s.m.sof.transit.filter (fun y => y.key != x.key) ∧ TrafficOnly s t) ∧
  (∀ (n e : Nat) (x : Transit) (s : State), s.m.sof.transit[n]? = some x → x.tgt = .engine e → x.msg.n ≤ x.got.length →
      s.m.eng.parcels.findSome? (fun p => if p.engine == e then (p.flying.find? (fun o => o.tag == x.msg.h.etag)).map (fun o => (p.num, o)) else none)
        = none →
    ∃ t, exec (.lineOpSettle n) s = .next t ∧ t.m.sof.transit = s.m.sof.transit.filter (fun y => y.key != x.key) ∧
      WatchFrame [.sof] [(Reg.SOF_ING_STATUS, [x.msg.att])] s t) ∧
  (∀ (x y : Msg) (f k off : Nat) (g : Target) (s : State), dispatchNext s.m 6 = some x → slotOf x = some (f, k, off) →
      y = replyTo s.m x 132 .cplD false false .ok (bytesAt ((List.range (16 - k)).map (fun i => slotBytes (slotAt s.m f (k + i)) x.pm)).flatten off
        x.h.len) x.pm x.sc → replyTarget s.m x y = .inl g →
    ∃ t, exec .resultAreaRead s = .next t ∧ tget [] t.m.eng.intake 6 = (tget [] s.m.eng.intake 6).erase x ∧
      (∃ z ∈ t.m.sof.transit, z.msg = y ∧ z.tgt = g ∧ z.phase = .flying) ∧ t.m.eng.slots = s.m.eng.slots ∧
      Frame [.sof, .eng] (fun _ => false) s t)
end

