-- ==== Sys2Proof/Laws/Tables.lean ====
section
/-!
SUPPORT. What the table operations can do: reading after writing, the canonical form, and the list helpers.
-/

namespace Sys2Proof.Machine
open Sys2Proof

variable {α : Type}

/-! ### Reading after writing -/

theorem tget_tput_same (d : α) (t : Table α) (i : Nat) (v : α) : tget d (tput t i v) i = v := by
  induction t with
  | nil => simp [tput, tget]
  | cons x t ih =>
    obtain ⟨k, w⟩ := x
    simp only [tput]
    split
    · simp [tget]
    · split
      · simp [tget]
      · rename_i h
        simp [tget, ih, show ¬ k = i from fun e => h e.symm]

theorem tget_tput_other (d : α) (t : Table α) {i j : Nat} (v : α) (h : i ≠ j) : tget d (tput t i v) j = tget d t j := by
  induction t with
  | nil => simp [tput, tget, h]
  | cons x t ih =>
    obtain ⟨k, w⟩ := x
    simp only [tput]
    split
    · simp [tget, h]
    · split
      · subst_vars; simp [tget, h]
      · simp [tget, ih]

theorem tget_tdrop_same (d : α) (t : Table α) (i : Nat) : tget d (tdrop t i) i = d := by
  induction t with
  | nil => rfl
  | cons x t ih =>
    obtain ⟨k, w⟩ := x
    simp only [tdrop]
    split
    · exact ih
    · rename_i h
      simp [tget, ih, show ¬ k = i from fun e => h e.symm]

theorem tget_tdrop_other (d : α) (t : Table α) {i j : Nat} (h : i ≠ j) : tget d (tdrop t i) j = tget d t j := by
  induction t with
  | nil => rfl
  | cons x t ih =>
    obtain ⟨k, w⟩ := x
    simp only [tdrop]
    split
    · subst_vars; simp [tget, h, ih]
    · simp [tget, ih]

variable [DecidableEq α]

/-- A key reads as what was last written to it. -/
@[simp] theorem tget_tset_same (d : α) (t : Table α) (i : Nat) (v : α) : tget d (tset d t i v) i = v := by
  unfold tset
  split
  · subst_vars; exact tget_tdrop_same _ _ _
  · exact tget_tput_same _ _ _ _

/-- A write leaves every other key alone. -/
theorem tget_tset_other (d e : α) (t : Table α) {i j : Nat} (v : α) (h : i ≠ j) : tget e (tset d t i v) j = tget e t j := by
  unfold tset
  split
  · exact tget_tdrop_other _ _ h
  · exact tget_tput_other _ _ _ h

/-- Both together. -/
theorem tget_tset (d : α) (t : Table α) (i j : Nat) (v : α) : tget d (tset d t i v) j = if i = j then v else tget d t j := by
  split
  · subst_vars; simp
  · exact tget_tset_other _ _ _ _ ‹_›

@[simp] theorem tget_tmod_same (d : α) (t : Table α) (i : Nat) (f : α → α) : tget d (tmod d t i f) i = f (tget d t i) := by
  simp [tmod]

theorem tget_tmod_other (d : α) (t : Table α) {i j : Nat} (f : α → α) (h : i ≠ j) : tget d (tmod d t i f) j = tget d t j :=
  tget_tset_other _ _ _ _ h

/-! ### The canonical form -/

theorem twfFrom_mono (d : α) {b : Option Nat} {m : Nat} (t : Table α) (h : ∀ x, b = some x → x < m)
    (w : twfFrom d (some m) t = true) : twfFrom d b t = true := by
  cases t with
  | nil => rfl
  | cons x t =>
    obtain ⟨k, v⟩ := x
    simp only [twfFrom, Bool.and_eq_true, decide_eq_true_eq] at w ⊢
    refine ⟨⟨?_, w.1.2⟩, w.2⟩
    cases b with
    | none => rfl
    | some y => simpa using Nat.lt_trans (h y rfl) w.1.1

theorem twfFrom_tput (d : α) (t : Table α) (i : Nat) (v : α) (hv : v ≠ d) :
    ∀ b, twfFrom d b t = true → (∀ x, b = some x → x < i) → twfFrom d b (tput t i v) = true := by
  induction t with
  | nil =>
    intro b _ hb
    cases b with
    | none => simp [tput, twfFrom, hv]
    | some y => simp [tput, twfFrom, hv, hb y rfl]
  | cons x t ih =>
    obtain ⟨k, w⟩ := x
    intro b h hb
    simp only [twfFrom, Bool.and_eq_true, decide_eq_true_eq] at h
    simp only [tput]
    split
    · rename_i hlt
      simp only [twfFrom, Bool.and_eq_true, decide_eq_true_eq]
      refine ⟨⟨?_, hv⟩, ⟨hlt, h.1.2⟩, h.2⟩
      cases b with
      | none => rfl
      | some y => simpa using hb y rfl
    · split
      · subst_vars
        simp only [twfFrom, Bool.and_eq_true, decide_eq_true_eq]
        exact ⟨⟨h.1.1, hv⟩, h.2⟩
      · simp only [twfFrom, Bool.and_eq_true, decide_eq_true_eq]
        refine ⟨h.1, ih (some k) h.2 ?_⟩
        intro x hx
        cases hx
        omega

theorem twfFrom_tdrop (d : α) (t : Table α) (i : Nat) : ∀ b, twfFrom d b t = true → twfFrom d b (tdrop t i) = true := by
  induction t with
  | nil => intro b _; rfl
  | cons x t ih =>
    obtain ⟨k, w⟩ := x
    intro b h
    simp only [twfFrom, Bool.and_eq_true, decide_eq_true_eq] at h
    simp only [tdrop]
    split
    · refine twfFrom_mono d (m := k) _ ?_ (ih _ h.2)
      intro x hx
      subst hx
      simpa using h.1.1
    · simp only [twfFrom, Bool.and_eq_true, decide_eq_true_eq]
      exact ⟨h.1, ih _ h.2⟩

/-- A write keeps the canonical form. -/
theorem twf_tset (d : α) (t : Table α) (i : Nat) (v : α) (h : twf d t = true) : twf d (tset d t i v) = true := by
  unfold tset
  split
  · exact twfFrom_tdrop d t i none h
  · exact twfFrom_tput d t i v ‹_› none h (by simp)

theorem twf_tsetList (d : α) (t : Table α) (i : Nat) (vs : List α) (h : twf d t = true) : twf d (tsetList d t i vs) = true := by
  induction vs generalizing t i with
  | nil => exact h
  | cons v vs ih => exact ih _ _ (twf_tset d t i v h)

/-- Writing a run of keys leaves the keys outside it alone. -/
theorem tget_tsetList_other (d e : α) (t : Table α) (i j : Nat) (vs : List α) (h : j < i ∨ i + vs.length ≤ j) :
    tget e (tsetList d t i vs) j = tget e t j := by
  induction vs generalizing t i with
  | nil => rfl
  | cons v vs ih =>
    simp only [List.length_cons] at h
    rw [tsetList, ih _ _ (by omega), tget_tset_other _ _ _ _ (by omega)]

/-- Each key of a run reads as its value. -/
theorem tget_tsetList_in (d : α) (t : Table α) (i k : Nat) (vs : List α) (h : k < vs.length) :
    tget d (tsetList d t i vs) (i + k) = vs[k] := by
  induction vs generalizing t i k with
  | nil => simp at h
  | cons v vs ih =>
    cases k with
    | zero => rw [tsetList, tget_tsetList_other _ _ _ _ _ _ (by omega)]; simp
    | succ k =>
      have := ih (tset d t i v) (i + 1) k (by simpa using h)
      rw [tsetList, show i + (k + 1) = i + 1 + k by omega, this]
      simp

/-! ### Lists -/

omit [DecidableEq α] in
/-- The element that `lbest` answers is in the list. -/
theorem lbest_mem {better : α → α → Bool} {l : List α} {x : α} (h : lbest better l = some x) : x ∈ l := by
  induction l generalizing x with
  | nil => simp [lbest] at h
  | cons y l ih =>
    simp only [lbest] at h
    split at h
    · simp_all
    · split at h
      · cases h; exact List.mem_cons_of_mem _ (ih ‹_›)
      · cases h; exact List.mem_cons_self

omit [DecidableEq α] in
@[simp] theorem lmod_length (f : α → α) (l : List α) (i : Nat) : (lmod f l i).length = l.length := by
  induction l generalizing i with
  | nil => rfl
  | cons x l ih => cases i <;> simp [lmod, ih]

end Sys2Proof.Machine
end

