-- ==== Sys2Proof/Laws/Word.lean ====
section
/-!
SUPPORT. Reading and replacing bit ranges of register words.
-/

namespace Sys2Proof

theorem bitsOf_eq (n hi lo : Nat) : bitsOf n hi lo = n / 2 ^ lo % 2 ^ (hi + 1 - lo) := by
  simp [bitsOf, Nat.shiftRight_eq_div_pow]

theorem bitsOf_lt (n hi lo : Nat) : bitsOf n hi lo < 2 ^ (hi + 1 - lo) := by
  rw [bitsOf_eq]; exact Nat.mod_lt _ (Nat.two_pow_pos _)

theorem getBits_lt (w : Word) (hi lo : Nat) : getBits w hi lo < 2 ^ (hi + 1 - lo) := bitsOf_lt _ _ _

/-- What replacing a middle digit `n / P % K` of `n` by `u` gives. -/
theorem replace_digit (n u P K : Nat) : n - n / P % K * P + u * P = n % P + P * (u + K * (n / P / K)) := by
  have hn : n = n % P + (P * (n / P % K) + P * (K * (n / P / K))) := by
    rw [← Nat.mul_add, Nat.mod_add_div (n / P) K, Nat.mod_add_div]
  rw [Nat.mul_comm (n / P % K) P, Nat.mul_comm u P, Nat.mul_add]
  omega

/-- With the digit in range, the number stays below a multiple of the digit's span. -/
theorem replace_digit_lt (n u P K M : Nat) (hP : 0 < P) (hu : u < K) (hn : n < P * K * M) :
    n % P + P * (u + K * (n / P / K)) < P * K * M := by
  have hK : 0 < K := by omega
  have h1 : n / P / K < M := by
    rw [Nat.div_div_eq_div_mul, Nat.div_lt_iff_lt_mul (Nat.mul_pos hP hK), Nat.mul_comm]; exact hn
  have h2 : n % P < P := Nat.mod_lt _ hP
  have h3 : P * (u + 1 + K * (n / P / K)) ≤ P * (K * M) := by
    apply Nat.mul_le_mul_left
    calc u + 1 + K * (n / P / K) ≤ K + K * (n / P / K) := by omega
      _ = K * (n / P / K + 1) := by rw [Nat.mul_add, Nat.mul_one, Nat.add_comm]
      _ ≤ K * M := Nat.mul_le_mul_left _ h1
  have h4 : P * (u + 1 + K * (n / P / K)) = P * (u + K * (n / P / K)) + P := by
    rw [show u + 1 + K * (n / P / K) = u + K * (n / P / K) + 1 by omega, Nat.mul_add, Nat.mul_one]
  rw [Nat.mul_assoc]
  omega

/-- The number a word with replaced bits holds, split at the ends of the range. -/
theorem setBits_toNat (w : Word) (hi lo v : Nat) (h : lo ≤ hi) (h64 : hi < 64) :
    (setBits w hi lo v).toNat =
      w.toNat % 2 ^ lo + 2 ^ lo * (v % 2 ^ (hi + 1 - lo) + 2 ^ (hi + 1 - lo) * (w.toNat / 2 ^ lo / 2 ^ (hi + 1 - lo))) := by
  have hpk : 2 ^ lo * 2 ^ (hi + 1 - lo) * 2 ^ (63 - hi) = 2 ^ 64 := by
    rw [← Nat.pow_add, ← Nat.pow_add]; congr 1; omega
  simp only [setBits, BitVec.toNat_ofNat, bitsOf_eq, replace_digit]
  apply Nat.mod_eq_of_lt
  rw [← hpk]
  apply replace_digit_lt _ _ _ _ _ (Nat.two_pow_pos _) (Nat.mod_lt _ (Nat.two_pow_pos _))
  rw [hpk]; exact w.isLt

/-- A replaced range reads as what was put there. -/
theorem getBits_setBits_same (w : Word) (hi lo v : Nat) (h : lo ≤ hi) (h64 : hi < 64) :
    getBits (setBits w hi lo v) hi lo = v % 2 ^ (hi + 1 - lo) := by
  rw [getBits, bitsOf_eq, setBits_toNat w hi lo v h h64, Nat.add_mul_div_left _ _ (Nat.two_pow_pos _),
    Nat.div_eq_of_lt (Nat.mod_lt _ (Nat.two_pow_pos _)), Nat.zero_add, Nat.add_mul_mod_self_left, Nat.mod_mod]

/-- A range below the replaced one reads as before. -/
theorem getBits_setBits_below (w : Word) (hi lo v a b : Nat) (h : lo ≤ hi) (h64 : hi < 64) (ha : a < lo) :
    getBits (setBits w hi lo v) a b = getBits w a b := by
  by_cases hab : b ≤ a
  · have e : ∀ n, n / 2 ^ b % 2 ^ (a + 1 - b) = n % 2 ^ (a + 1) / 2 ^ b := by
      intro n
      have : 2 ^ (a + 1) = 2 ^ b * 2 ^ (a + 1 - b) := by rw [← Nat.pow_add]; congr 1; omega
      rw [this, Nat.mod_mul_right_div_self]
    have d : 2 ^ (a + 1) ∣ 2 ^ lo := Nat.pow_dvd_pow 2 (by omega)
    rw [getBits, getBits, bitsOf_eq, bitsOf_eq, e, e, setBits_toNat w hi lo v h h64]
    congr 1
    rw [← Nat.mod_mod_of_dvd _ d, Nat.add_mul_mod_self_left, Nat.mod_mod, Nat.mod_mod_of_dvd _ d]
  · rw [getBits, getBits, bitsOf_eq, bitsOf_eq, show a + 1 - b = 0 by omega]; simp [Nat.mod_one]

/-- A range above the replaced one reads as before. -/
theorem getBits_setBits_above (w : Word) (hi lo v a b : Nat) (h : lo ≤ hi) (h64 : hi < 64) (hb : hi < b) :
    getBits (setBits w hi lo v) a b = getBits w a b := by
  have e : ∀ n, n / 2 ^ b = n / 2 ^ lo / 2 ^ (hi + 1 - lo) / 2 ^ (b - (hi + 1)) := by
    intro n
    rw [Nat.div_div_eq_div_mul, Nat.div_div_eq_div_mul, ← Nat.pow_add, ← Nat.pow_add]
    congr 2; omega
  rw [getBits, getBits, bitsOf_eq, bitsOf_eq, e, e w.toNat, setBits_toNat w hi lo v h h64,
    Nat.add_mul_div_left _ _ (Nat.two_pow_pos _), Nat.div_eq_of_lt (Nat.mod_lt _ (Nat.two_pow_pos _)), Nat.zero_add,
    Nat.add_mul_div_left _ _ (Nat.two_pow_pos _), Nat.div_eq_of_lt (Nat.mod_lt _ (Nat.two_pow_pos _)), Nat.zero_add]

/-- A range that does not meet the replaced one reads as before. -/
theorem getBits_setBits_other (w : Word) (hi lo v a b : Nat) (h : lo ≤ hi) (h64 : hi < 64) (hd : a < lo ∨ hi < b) :
    getBits (setBits w hi lo v) a b = getBits w a b :=
  hd.elim (getBits_setBits_below w hi lo v a b h h64) (getBits_setBits_above w hi lo v a b h h64)

end Sys2Proof
end

