-- ==== Sys2Proof/Laws/State.lean ====
section
/-!
SUPPORT. One lemma for each field of the machine and each register update: a register update changes the register file
and nothing else; and what a register, and a field of one, reads as after it.
-/

namespace Sys2Proof.Machine
open Sys2Proof

/-! ### Every other field is unchanged -/

@[simp] theorem wr_free (m : Mach) (r : RegDef) (ix : List Nat) (w : Word) : (wr m r ix w).free = m.free := rfl
@[simp] theorem wr_sof (m : Mach) (r : RegDef) (ix : List Nat) (w : Word) : (wr m r ix w).sof = m.sof := rfl
@[simp] theorem wr_home (m : Mach) (r : RegDef) (ix : List Nat) (w : Word) : (wr m r ix w).home = m.home := rfl
@[simp] theorem wr_eng (m : Mach) (r : RegDef) (ix : List Nat) (w : Word) : (wr m r ix w).eng = m.eng := rfl
@[simp] theorem wr_hdm (m : Mach) (r : RegDef) (ix : List Nat) (w : Word) : (wr m r ix w).hdm = m.hdm := rfl
@[simp] theorem wr_vppb (m : Mach) (r : RegDef) (ix : List Nat) (w : Word) : (wr m r ix w).vppb = m.vppb := rfl
@[simp] theorem wr_pmReqs (m : Mach) (r : RegDef) (ix : List Nat) (w : Word) : (wr m r ix w).pmReqs = m.pmReqs := rfl
@[simp] theorem wr_sched (m : Mach) (r : RegDef) (ix : List Nat) (w : Word) : (wr m r ix w).sched = m.sched := rfl
@[simp] theorem wr_ports (m : Mach) (r : RegDef) (ix : List Nat) (w : Word) : (wr m r ix w).ports = m.ports := rfl
@[simp] theorem wr_courier (m : Mach) (r : RegDef) (ix : List Nat) (w : Word) : (wr m r ix w).courier = m.courier := rfl
@[simp] theorem wr_logs (m : Mach) (r : RegDef) (ix : List Nat) (w : Word) : (wr m r ix w).logs = m.logs := rfl
@[simp] theorem wr_pmu (m : Mach) (r : RegDef) (ix : List Nat) (w : Word) : (wr m r ix w).pmu = m.pmu := rfl
@[simp] theorem wr_amd (m : Mach) (r : RegDef) (ix : List Nat) (w : Word) : (wr m r ix w).amd = m.amd := rfl
@[simp] theorem wr_ten (m : Mach) (r : RegDef) (ix : List Nat) (w : Word) : (wr m r ix w).ten = m.ten := rfl
@[simp] theorem wr_replies (m : Mach) (r : RegDef) (ix : List Nat) (w : Word) : (wr m r ix w).replies = m.replies := rfl
@[simp] theorem wr_cci (m : Mach) (r : RegDef) (ix : List Nat) (w : Word) : (wr m r ix w).cci = m.cci := rfl
@[simp] theorem wr_brumin (m : Mach) (r : RegDef) (ix : List Nat) (w : Word) : (wr m r ix w).brumin = m.brumin := rfl
@[simp] theorem wr_load (m : Mach) (r : RegDef) (ix : List Nat) (w : Word) : (wr m r ix w).load = m.load := rfl
@[simp] theorem wr_fw (m : Mach) (r : RegDef) (ix : List Nat) (w : Word) : (wr m r ix w).fw = m.fw := rfl
@[simp] theorem wr_sec (m : Mach) (r : RegDef) (ix : List Nat) (w : Word) : (wr m r ix w).sec = m.sec := rfl
@[simp] theorem wr_inl (m : Mach) (r : RegDef) (ix : List Nat) (w : Word) : (wr m r ix w).inl = m.inl := rfl
@[simp] theorem wr_resets (m : Mach) (r : RegDef) (ix : List Nat) (w : Word) : (wr m r ix w).resets = m.resets := rfl
@[simp] theorem wr_boot (m : Mach) (r : RegDef) (ix : List Nat) (w : Word) : (wr m r ix w).boot = m.boot := rfl
@[simp] theorem wr_step8 (m : Mach) (r : RegDef) (ix : List Nat) (w : Word) : (wr m r ix w).step8 = m.step8 := rfl
@[simp] theorem wr_sram (m : Mach) (r : RegDef) (ix : List Nat) (w : Word) : (wr m r ix w).sram = m.sram := rfl
@[simp] theorem wr_sensed (m : Mach) (r : RegDef) (ix : List Nat) (w : Word) : (wr m r ix w).sensed = m.sensed := rfl
@[simp] theorem wr_i3cAddr (m : Mach) (r : RegDef) (ix : List Nat) (w : Word) : (wr m r ix w).i3cAddr = m.i3cAddr := rfl
@[simp] theorem wr_eids (m : Mach) (r : RegDef) (ix : List Nat) (w : Word) : (wr m r ix w).eids = m.eids := rfl
@[simp] theorem wr_tids (m : Mach) (r : RegDef) (ix : List Nat) (w : Word) : (wr m r ix w).tids = m.tids := rfl

@[simp] theorem sf_free (m : Mach) (f : FieldRef) (ix : List Nat) (v : Nat) : (sf m f ix v).free = m.free := wr_free _ _ _ _
@[simp] theorem sf_sof (m : Mach) (f : FieldRef) (ix : List Nat) (v : Nat) : (sf m f ix v).sof = m.sof := wr_sof _ _ _ _
@[simp] theorem sf_home (m : Mach) (f : FieldRef) (ix : List Nat) (v : Nat) : (sf m f ix v).home = m.home := wr_home _ _ _ _
@[simp] theorem sf_eng (m : Mach) (f : FieldRef) (ix : List Nat) (v : Nat) : (sf m f ix v).eng = m.eng := wr_eng _ _ _ _
@[simp] theorem sf_hdm (m : Mach) (f : FieldRef) (ix : List Nat) (v : Nat) : (sf m f ix v).hdm = m.hdm := wr_hdm _ _ _ _
@[simp] theorem sf_vppb (m : Mach) (f : FieldRef) (ix : List Nat) (v : Nat) : (sf m f ix v).vppb = m.vppb := wr_vppb _ _ _ _
@[simp] theorem sf_pmReqs (m : Mach) (f : FieldRef) (ix : List Nat) (v : Nat) : (sf m f ix v).pmReqs = m.pmReqs := wr_pmReqs _ _ _ _
@[simp] theorem sf_sched (m : Mach) (f : FieldRef) (ix : List Nat) (v : Nat) : (sf m f ix v).sched = m.sched := wr_sched _ _ _ _
@[simp] theorem sf_ports (m : Mach) (f : FieldRef) (ix : List Nat) (v : Nat) : (sf m f ix v).ports = m.ports := wr_ports _ _ _ _
@[simp] theorem sf_courier (m : Mach) (f : FieldRef) (ix : List Nat) (v : Nat) : (sf m f ix v).courier = m.courier := wr_courier _ _ _ _
@[simp] theorem sf_logs (m : Mach) (f : FieldRef) (ix : List Nat) (v : Nat) : (sf m f ix v).logs = m.logs := wr_logs _ _ _ _
@[simp] theorem sf_pmu (m : Mach) (f : FieldRef) (ix : List Nat) (v : Nat) : (sf m f ix v).pmu = m.pmu := wr_pmu _ _ _ _
@[simp] theorem sf_amd (m : Mach) (f : FieldRef) (ix : List Nat) (v : Nat) : (sf m f ix v).amd = m.amd := wr_amd _ _ _ _
@[simp] theorem sf_ten (m : Mach) (f : FieldRef) (ix : List Nat) (v : Nat) : (sf m f ix v).ten = m.ten := wr_ten _ _ _ _
@[simp] theorem sf_replies (m : Mach) (f : FieldRef) (ix : List Nat) (v : Nat) : (sf m f ix v).replies = m.replies := wr_replies _ _ _ _
@[simp] theorem sf_cci (m : Mach) (f : FieldRef) (ix : List Nat) (v : Nat) : (sf m f ix v).cci = m.cci := wr_cci _ _ _ _
@[simp] theorem sf_brumin (m : Mach) (f : FieldRef) (ix : List Nat) (v : Nat) : (sf m f ix v).brumin = m.brumin := wr_brumin _ _ _ _
@[simp] theorem sf_load (m : Mach) (f : FieldRef) (ix : List Nat) (v : Nat) : (sf m f ix v).load = m.load := wr_load _ _ _ _
@[simp] theorem sf_fw (m : Mach) (f : FieldRef) (ix : List Nat) (v : Nat) : (sf m f ix v).fw = m.fw := wr_fw _ _ _ _
@[simp] theorem sf_sec (m : Mach) (f : FieldRef) (ix : List Nat) (v : Nat) : (sf m f ix v).sec = m.sec := wr_sec _ _ _ _
@[simp] theorem sf_inl (m : Mach) (f : FieldRef) (ix : List Nat) (v : Nat) : (sf m f ix v).inl = m.inl := wr_inl _ _ _ _
@[simp] theorem sf_resets (m : Mach) (f : FieldRef) (ix : List Nat) (v : Nat) : (sf m f ix v).resets = m.resets := wr_resets _ _ _ _
@[simp] theorem sf_boot (m : Mach) (f : FieldRef) (ix : List Nat) (v : Nat) : (sf m f ix v).boot = m.boot := wr_boot _ _ _ _
@[simp] theorem sf_step8 (m : Mach) (f : FieldRef) (ix : List Nat) (v : Nat) : (sf m f ix v).step8 = m.step8 := wr_step8 _ _ _ _
@[simp] theorem sf_sram (m : Mach) (f : FieldRef) (ix : List Nat) (v : Nat) : (sf m f ix v).sram = m.sram := wr_sram _ _ _ _
@[simp] theorem sf_sensed (m : Mach) (f : FieldRef) (ix : List Nat) (v : Nat) : (sf m f ix v).sensed = m.sensed := wr_sensed _ _ _ _
@[simp] theorem sf_i3cAddr (m : Mach) (f : FieldRef) (ix : List Nat) (v : Nat) : (sf m f ix v).i3cAddr = m.i3cAddr := wr_i3cAddr _ _ _ _
@[simp] theorem sf_eids (m : Mach) (f : FieldRef) (ix : List Nat) (v : Nat) : (sf m f ix v).eids = m.eids := wr_eids _ _ _ _
@[simp] theorem sf_tids (m : Mach) (f : FieldRef) (ix : List Nat) (v : Nat) : (sf m f ix v).tids = m.tids := wr_tids _ _ _ _

@[simp] theorem ackEvent_free (m : Mach) (f : FieldRef) (ix : List Nat) : (ackEvent m f ix).free = m.free := wr_free _ _ _ _
@[simp] theorem ackEvent_sof (m : Mach) (f : FieldRef) (ix : List Nat) : (ackEvent m f ix).sof = m.sof := wr_sof _ _ _ _
@[simp] theorem ackEvent_home (m : Mach) (f : FieldRef) (ix : List Nat) : (ackEvent m f ix).home = m.home := wr_home _ _ _ _
@[simp] theorem ackEvent_eng (m : Mach) (f : FieldRef) (ix : List Nat) : (ackEvent m f ix).eng = m.eng := wr_eng _ _ _ _
@[simp] theorem ackEvent_hdm (m : Mach) (f : FieldRef) (ix : List Nat) : (ackEvent m f ix).hdm = m.hdm := wr_hdm _ _ _ _
@[simp] theorem ackEvent_vppb (m : Mach) (f : FieldRef) (ix : List Nat) : (ackEvent m f ix).vppb = m.vppb := wr_vppb _ _ _ _
@[simp] theorem ackEvent_pmReqs (m : Mach) (f : FieldRef) (ix : List Nat) : (ackEvent m f ix).pmReqs = m.pmReqs := wr_pmReqs _ _ _ _
@[simp] theorem ackEvent_sched (m : Mach) (f : FieldRef) (ix : List Nat) : (ackEvent m f ix).sched = m.sched := wr_sched _ _ _ _
@[simp] theorem ackEvent_ports (m : Mach) (f : FieldRef) (ix : List Nat) : (ackEvent m f ix).ports = m.ports := wr_ports _ _ _ _
@[simp] theorem ackEvent_courier (m : Mach) (f : FieldRef) (ix : List Nat) : (ackEvent m f ix).courier = m.courier := wr_courier _ _ _ _
@[simp] theorem ackEvent_logs (m : Mach) (f : FieldRef) (ix : List Nat) : (ackEvent m f ix).logs = m.logs := wr_logs _ _ _ _
@[simp] theorem ackEvent_pmu (m : Mach) (f : FieldRef) (ix : List Nat) : (ackEvent m f ix).pmu = m.pmu := wr_pmu _ _ _ _
@[simp] theorem ackEvent_amd (m : Mach) (f : FieldRef) (ix : List Nat) : (ackEvent m f ix).amd = m.amd := wr_amd _ _ _ _
@[simp] theorem ackEvent_ten (m : Mach) (f : FieldRef) (ix : List Nat) : (ackEvent m f ix).ten = m.ten := wr_ten _ _ _ _
@[simp] theorem ackEvent_replies (m : Mach) (f : FieldRef) (ix : List Nat) : (ackEvent m f ix).replies = m.replies := wr_replies _ _ _ _
@[simp] theorem ackEvent_cci (m : Mach) (f : FieldRef) (ix : List Nat) : (ackEvent m f ix).cci = m.cci := wr_cci _ _ _ _
@[simp] theorem ackEvent_brumin (m : Mach) (f : FieldRef) (ix : List Nat) : (ackEvent m f ix).brumin = m.brumin := wr_brumin _ _ _ _
@[simp] theorem ackEvent_load (m : Mach) (f : FieldRef) (ix : List Nat) : (ackEvent m f ix).load = m.load := wr_load _ _ _ _
@[simp] theorem ackEvent_fw (m : Mach) (f : FieldRef) (ix : List Nat) : (ackEvent m f ix).fw = m.fw := wr_fw _ _ _ _
@[simp] theorem ackEvent_sec (m : Mach) (f : FieldRef) (ix : List Nat) : (ackEvent m f ix).sec = m.sec := wr_sec _ _ _ _
@[simp] theorem ackEvent_inl (m : Mach) (f : FieldRef) (ix : List Nat) : (ackEvent m f ix).inl = m.inl := wr_inl _ _ _ _
@[simp] theorem ackEvent_resets (m : Mach) (f : FieldRef) (ix : List Nat) : (ackEvent m f ix).resets = m.resets := wr_resets _ _ _ _
@[simp] theorem ackEvent_boot (m : Mach) (f : FieldRef) (ix : List Nat) : (ackEvent m f ix).boot = m.boot := wr_boot _ _ _ _
@[simp] theorem ackEvent_step8 (m : Mach) (f : FieldRef) (ix : List Nat) : (ackEvent m f ix).step8 = m.step8 := wr_step8 _ _ _ _
@[simp] theorem ackEvent_sram (m : Mach) (f : FieldRef) (ix : List Nat) : (ackEvent m f ix).sram = m.sram := wr_sram _ _ _ _
@[simp] theorem ackEvent_sensed (m : Mach) (f : FieldRef) (ix : List Nat) : (ackEvent m f ix).sensed = m.sensed := wr_sensed _ _ _ _
@[simp] theorem ackEvent_i3cAddr (m : Mach) (f : FieldRef) (ix : List Nat) : (ackEvent m f ix).i3cAddr = m.i3cAddr := wr_i3cAddr _ _ _ _
@[simp] theorem ackEvent_eids (m : Mach) (f : FieldRef) (ix : List Nat) : (ackEvent m f ix).eids = m.eids := wr_eids _ _ _ _
@[simp] theorem ackEvent_tids (m : Mach) (f : FieldRef) (ix : List Nat) : (ackEvent m f ix).tids = m.tids := wr_tids _ _ _ _

@[simp] theorem satInc_free (m : Mach) (f : FieldRef) (ix : List Nat) : (satInc m f ix).free = m.free := sf_free _ _ _ _
@[simp] theorem satInc_sof (m : Mach) (f : FieldRef) (ix : List Nat) : (satInc m f ix).sof = m.sof := sf_sof _ _ _ _
@[simp] theorem satInc_home (m : Mach) (f : FieldRef) (ix : List Nat) : (satInc m f ix).home = m.home := sf_home _ _ _ _
@[simp] theorem satInc_eng (m : Mach) (f : FieldRef) (ix : List Nat) : (satInc m f ix).eng = m.eng := sf_eng _ _ _ _
@[simp] theorem satInc_hdm (m : Mach) (f : FieldRef) (ix : List Nat) : (satInc m f ix).hdm = m.hdm := sf_hdm _ _ _ _
@[simp] theorem satInc_vppb (m : Mach) (f : FieldRef) (ix : List Nat) : (satInc m f ix).vppb = m.vppb := sf_vppb _ _ _ _
@[simp] theorem satInc_pmReqs (m : Mach) (f : FieldRef) (ix : List Nat) : (satInc m f ix).pmReqs = m.pmReqs := sf_pmReqs _ _ _ _
@[simp] theorem satInc_sched (m : Mach) (f : FieldRef) (ix : List Nat) : (satInc m f ix).sched = m.sched := sf_sched _ _ _ _
@[simp] theorem satInc_ports (m : Mach) (f : FieldRef) (ix : List Nat) : (satInc m f ix).ports = m.ports := sf_ports _ _ _ _
@[simp] theorem satInc_courier (m : Mach) (f : FieldRef) (ix : List Nat) : (satInc m f ix).courier = m.courier := sf_courier _ _ _ _
@[simp] theorem satInc_logs (m : Mach) (f : FieldRef) (ix : List Nat) : (satInc m f ix).logs = m.logs := sf_logs _ _ _ _
@[simp] theorem satInc_pmu (m : Mach) (f : FieldRef) (ix : List Nat) : (satInc m f ix).pmu = m.pmu := sf_pmu _ _ _ _
@[simp] theorem satInc_amd (m : Mach) (f : FieldRef) (ix : List Nat) : (satInc m f ix).amd = m.amd := sf_amd _ _ _ _
@[simp] theorem satInc_ten (m : Mach) (f : FieldRef) (ix : List Nat) : (satInc m f ix).ten = m.ten := sf_ten _ _ _ _
@[simp] theorem satInc_replies (m : Mach) (f : FieldRef) (ix : List Nat) : (satInc m f ix).replies = m.replies := sf_replies _ _ _ _
@[simp] theorem satInc_cci (m : Mach) (f : FieldRef) (ix : List Nat) : (satInc m f ix).cci = m.cci := sf_cci _ _ _ _
@[simp] theorem satInc_brumin (m : Mach) (f : FieldRef) (ix : List Nat) : (satInc m f ix).brumin = m.brumin := sf_brumin _ _ _ _
@[simp] theorem satInc_load (m : Mach) (f : FieldRef) (ix : List Nat) : (satInc m f ix).load = m.load := sf_load _ _ _ _
@[simp] theorem satInc_fw (m : Mach) (f : FieldRef) (ix : List Nat) : (satInc m f ix).fw = m.fw := sf_fw _ _ _ _
@[simp] theorem satInc_sec (m : Mach) (f : FieldRef) (ix : List Nat) : (satInc m f ix).sec = m.sec := sf_sec _ _ _ _
@[simp] theorem satInc_inl (m : Mach) (f : FieldRef) (ix : List Nat) : (satInc m f ix).inl = m.inl := sf_inl _ _ _ _
@[simp] theorem satInc_resets (m : Mach) (f : FieldRef) (ix : List Nat) : (satInc m f ix).resets = m.resets := sf_resets _ _ _ _
@[simp] theorem satInc_boot (m : Mach) (f : FieldRef) (ix : List Nat) : (satInc m f ix).boot = m.boot := sf_boot _ _ _ _
@[simp] theorem satInc_step8 (m : Mach) (f : FieldRef) (ix : List Nat) : (satInc m f ix).step8 = m.step8 := sf_step8 _ _ _ _
@[simp] theorem satInc_sram (m : Mach) (f : FieldRef) (ix : List Nat) : (satInc m f ix).sram = m.sram := sf_sram _ _ _ _
@[simp] theorem satInc_sensed (m : Mach) (f : FieldRef) (ix : List Nat) : (satInc m f ix).sensed = m.sensed := sf_sensed _ _ _ _
@[simp] theorem satInc_i3cAddr (m : Mach) (f : FieldRef) (ix : List Nat) : (satInc m f ix).i3cAddr = m.i3cAddr := sf_i3cAddr _ _ _ _
@[simp] theorem satInc_eids (m : Mach) (f : FieldRef) (ix : List Nat) : (satInc m f ix).eids = m.eids := sf_eids _ _ _ _
@[simp] theorem satInc_tids (m : Mach) (f : FieldRef) (ix : List Nat) : (satInc m f ix).tids = m.tids := sf_tids _ _ _ _

@[simp] theorem wrapAdd_free (m : Mach) (f : FieldRef) (k : Nat) (ix : List Nat) : (wrapAdd m f k ix).free = m.free := sf_free _ _ _ _
@[simp] theorem wrapAdd_sof (m : Mach) (f : FieldRef) (k : Nat) (ix : List Nat) : (wrapAdd m f k ix).sof = m.sof := sf_sof _ _ _ _
@[simp] theorem wrapAdd_home (m : Mach) (f : FieldRef) (k : Nat) (ix : List Nat) : (wrapAdd m f k ix).home = m.home := sf_home _ _ _ _
@[simp] theorem wrapAdd_eng (m : Mach) (f : FieldRef) (k : Nat) (ix : List Nat) : (wrapAdd m f k ix).eng = m.eng := sf_eng _ _ _ _
@[simp] theorem wrapAdd_hdm (m : Mach) (f : FieldRef) (k : Nat) (ix : List Nat) : (wrapAdd m f k ix).hdm = m.hdm := sf_hdm _ _ _ _
@[simp] theorem wrapAdd_vppb (m : Mach) (f : FieldRef) (k : Nat) (ix : List Nat) : (wrapAdd m f k ix).vppb = m.vppb := sf_vppb _ _ _ _
@[simp] theorem wrapAdd_pmReqs (m : Mach) (f : FieldRef) (k : Nat) (ix : List Nat) : (wrapAdd m f k ix).pmReqs = m.pmReqs := sf_pmReqs _ _ _ _
@[simp] theorem wrapAdd_sched (m : Mach) (f : FieldRef) (k : Nat) (ix : List Nat) : (wrapAdd m f k ix).sched = m.sched := sf_sched _ _ _ _
@[simp] theorem wrapAdd_ports (m : Mach) (f : FieldRef) (k : Nat) (ix : List Nat) : (wrapAdd m f k ix).ports = m.ports := sf_ports _ _ _ _
@[simp] theorem wrapAdd_courier (m : Mach) (f : FieldRef) (k : Nat) (ix : List Nat) : (wrapAdd m f k ix).courier = m.courier := sf_courier _ _ _ _
@[simp] theorem wrapAdd_logs (m : Mach) (f : FieldRef) (k : Nat) (ix : List Nat) : (wrapAdd m f k ix).logs = m.logs := sf_logs _ _ _ _
@[simp] theorem wrapAdd_pmu (m : Mach) (f : FieldRef) (k : Nat) (ix : List Nat) : (wrapAdd m f k ix).pmu = m.pmu := sf_pmu _ _ _ _
@[simp] theorem wrapAdd_amd (m : Mach) (f : FieldRef) (k : Nat) (ix : List Nat) : (wrapAdd m f k ix).amd = m.amd := sf_amd _ _ _ _
@[simp] theorem wrapAdd_ten (m : Mach) (f : FieldRef) (k : Nat) (ix : List Nat) : (wrapAdd m f k ix).ten = m.ten := sf_ten _ _ _ _
@[simp] theorem wrapAdd_replies (m : Mach) (f : FieldRef) (k : Nat) (ix : List Nat) : (wrapAdd m f k ix).replies = m.replies := sf_replies _ _ _ _
@[simp] theorem wrapAdd_cci (m : Mach) (f : FieldRef) (k : Nat) (ix : List Nat) : (wrapAdd m f k ix).cci = m.cci := sf_cci _ _ _ _
@[simp] theorem wrapAdd_brumin (m : Mach) (f : FieldRef) (k : Nat) (ix : List Nat) : (wrapAdd m f k ix).brumin = m.brumin := sf_brumin _ _ _ _
@[simp] theorem wrapAdd_load (m : Mach) (f : FieldRef) (k : Nat) (ix : List Nat) : (wrapAdd m f k ix).load = m.load := sf_load _ _ _ _
@[simp] theorem wrapAdd_fw (m : Mach) (f : FieldRef) (k : Nat) (ix : List Nat) : (wrapAdd m f k ix).fw = m.fw := sf_fw _ _ _ _
@[simp] theorem wrapAdd_sec (m : Mach) (f : FieldRef) (k : Nat) (ix : List Nat) : (wrapAdd m f k ix).sec = m.sec := sf_sec _ _ _ _
@[simp] theorem wrapAdd_inl (m : Mach) (f : FieldRef) (k : Nat) (ix : List Nat) : (wrapAdd m f k ix).inl = m.inl := sf_inl _ _ _ _
@[simp] theorem wrapAdd_resets (m : Mach) (f : FieldRef) (k : Nat) (ix : List Nat) : (wrapAdd m f k ix).resets = m.resets := sf_resets _ _ _ _
@[simp] theorem wrapAdd_boot (m : Mach) (f : FieldRef) (k : Nat) (ix : List Nat) : (wrapAdd m f k ix).boot = m.boot := sf_boot _ _ _ _
@[simp] theorem wrapAdd_step8 (m : Mach) (f : FieldRef) (k : Nat) (ix : List Nat) : (wrapAdd m f k ix).step8 = m.step8 := sf_step8 _ _ _ _
@[simp] theorem wrapAdd_sram (m : Mach) (f : FieldRef) (k : Nat) (ix : List Nat) : (wrapAdd m f k ix).sram = m.sram := sf_sram _ _ _ _
@[simp] theorem wrapAdd_sensed (m : Mach) (f : FieldRef) (k : Nat) (ix : List Nat) : (wrapAdd m f k ix).sensed = m.sensed := sf_sensed _ _ _ _
@[simp] theorem wrapAdd_i3cAddr (m : Mach) (f : FieldRef) (k : Nat) (ix : List Nat) : (wrapAdd m f k ix).i3cAddr = m.i3cAddr := sf_i3cAddr _ _ _ _
@[simp] theorem wrapAdd_eids (m : Mach) (f : FieldRef) (k : Nat) (ix : List Nat) : (wrapAdd m f k ix).eids = m.eids := sf_eids _ _ _ _
@[simp] theorem wrapAdd_tids (m : Mach) (f : FieldRef) (k : Nat) (ix : List Nat) : (wrapAdd m f k ix).tids = m.tids := sf_tids _ _ _ _

@[simp] theorem countDiscard_free (m : Mach) : (countDiscard m).free = m.free := sf_free _ _ _ _
@[simp] theorem countDiscard_sof (m : Mach) : (countDiscard m).sof = m.sof := sf_sof _ _ _ _
@[simp] theorem countDiscard_home (m : Mach) : (countDiscard m).home = m.home := sf_home _ _ _ _
@[simp] theorem countDiscard_eng (m : Mach) : (countDiscard m).eng = m.eng := sf_eng _ _ _ _
@[simp] theorem countDiscard_hdm (m : Mach) : (countDiscard m).hdm = m.hdm := sf_hdm _ _ _ _
@[simp] theorem countDiscard_vppb (m : Mach) : (countDiscard m).vppb = m.vppb := sf_vppb _ _ _ _
@[simp] theorem countDiscard_pmReqs (m : Mach) : (countDiscard m).pmReqs = m.pmReqs := sf_pmReqs _ _ _ _
@[simp] theorem countDiscard_sched (m : Mach) : (countDiscard m).sched = m.sched := sf_sched _ _ _ _
@[simp] theorem countDiscard_ports (m : Mach) : (countDiscard m).ports = m.ports := sf_ports _ _ _ _
@[simp] theorem countDiscard_courier (m : Mach) : (countDiscard m).courier = m.courier := sf_courier _ _ _ _
@[simp] theorem countDiscard_logs (m : Mach) : (countDiscard m).logs = m.logs := sf_logs _ _ _ _
@[simp] theorem countDiscard_pmu (m : Mach) : (countDiscard m).pmu = m.pmu := sf_pmu _ _ _ _
@[simp] theorem countDiscard_amd (m : Mach) : (countDiscard m).amd = m.amd := sf_amd _ _ _ _
@[simp] theorem countDiscard_ten (m : Mach) : (countDiscard m).ten = m.ten := sf_ten _ _ _ _
@[simp] theorem countDiscard_replies (m : Mach) : (countDiscard m).replies = m.replies := sf_replies _ _ _ _
@[simp] theorem countDiscard_cci (m : Mach) : (countDiscard m).cci = m.cci := sf_cci _ _ _ _
@[simp] theorem countDiscard_brumin (m : Mach) : (countDiscard m).brumin = m.brumin := sf_brumin _ _ _ _
@[simp] theorem countDiscard_load (m : Mach) : (countDiscard m).load = m.load := sf_load _ _ _ _
@[simp] theorem countDiscard_fw (m : Mach) : (countDiscard m).fw = m.fw := sf_fw _ _ _ _
@[simp] theorem countDiscard_sec (m : Mach) : (countDiscard m).sec = m.sec := sf_sec _ _ _ _
@[simp] theorem countDiscard_inl (m : Mach) : (countDiscard m).inl = m.inl := sf_inl _ _ _ _
@[simp] theorem countDiscard_resets (m : Mach) : (countDiscard m).resets = m.resets := sf_resets _ _ _ _
@[simp] theorem countDiscard_boot (m : Mach) : (countDiscard m).boot = m.boot := sf_boot _ _ _ _
@[simp] theorem countDiscard_step8 (m : Mach) : (countDiscard m).step8 = m.step8 := sf_step8 _ _ _ _
@[simp] theorem countDiscard_sram (m : Mach) : (countDiscard m).sram = m.sram := sf_sram _ _ _ _
@[simp] theorem countDiscard_sensed (m : Mach) : (countDiscard m).sensed = m.sensed := sf_sensed _ _ _ _
@[simp] theorem countDiscard_i3cAddr (m : Mach) : (countDiscard m).i3cAddr = m.i3cAddr := sf_i3cAddr _ _ _ _
@[simp] theorem countDiscard_eids (m : Mach) : (countDiscard m).eids = m.eids := sf_eids _ _ _ _
@[simp] theorem countDiscard_tids (m : Mach) : (countDiscard m).tids = m.tids := sf_tids _ _ _ _

@[simp] theorem countFraming_free (m : Mach) : (countFraming m).free = m.free := sf_free _ _ _ _
@[simp] theorem countFraming_sof (m : Mach) : (countFraming m).sof = m.sof := sf_sof _ _ _ _
@[simp] theorem countFraming_home (m : Mach) : (countFraming m).home = m.home := sf_home _ _ _ _
@[simp] theorem countFraming_eng (m : Mach) : (countFraming m).eng = m.eng := sf_eng _ _ _ _
@[simp] theorem countFraming_hdm (m : Mach) : (countFraming m).hdm = m.hdm := sf_hdm _ _ _ _
@[simp] theorem countFraming_vppb (m : Mach) : (countFraming m).vppb = m.vppb := sf_vppb _ _ _ _
@[simp] theorem countFraming_pmReqs (m : Mach) : (countFraming m).pmReqs = m.pmReqs := sf_pmReqs _ _ _ _
@[simp] theorem countFraming_sched (m : Mach) : (countFraming m).sched = m.sched := sf_sched _ _ _ _
@[simp] theorem countFraming_ports (m : Mach) : (countFraming m).ports = m.ports := sf_ports _ _ _ _
@[simp] theorem countFraming_courier (m : Mach) : (countFraming m).courier = m.courier := sf_courier _ _ _ _
@[simp] theorem countFraming_logs (m : Mach) : (countFraming m).logs = m.logs := sf_logs _ _ _ _
@[simp] theorem countFraming_pmu (m : Mach) : (countFraming m).pmu = m.pmu := sf_pmu _ _ _ _
@[simp] theorem countFraming_amd (m : Mach) : (countFraming m).amd = m.amd := sf_amd _ _ _ _
@[simp] theorem countFraming_ten (m : Mach) : (countFraming m).ten = m.ten := sf_ten _ _ _ _
@[simp] theorem countFraming_replies (m : Mach) : (countFraming m).replies = m.replies := sf_replies _ _ _ _
@[simp] theorem countFraming_cci (m : Mach) : (countFraming m).cci = m.cci := sf_cci _ _ _ _
@[simp] theorem countFraming_brumin (m : Mach) : (countFraming m).brumin = m.brumin := sf_brumin _ _ _ _
@[simp] theorem countFraming_load (m : Mach) : (countFraming m).load = m.load := sf_load _ _ _ _
@[simp] theorem countFraming_fw (m : Mach) : (countFraming m).fw = m.fw := sf_fw _ _ _ _
@[simp] theorem countFraming_sec (m : Mach) : (countFraming m).sec = m.sec := sf_sec _ _ _ _
@[simp] theorem countFraming_inl (m : Mach) : (countFraming m).inl = m.inl := sf_inl _ _ _ _
@[simp] theorem countFraming_resets (m : Mach) : (countFraming m).resets = m.resets := sf_resets _ _ _ _
@[simp] theorem countFraming_boot (m : Mach) : (countFraming m).boot = m.boot := sf_boot _ _ _ _
@[simp] theorem countFraming_step8 (m : Mach) : (countFraming m).step8 = m.step8 := sf_step8 _ _ _ _
@[simp] theorem countFraming_sram (m : Mach) : (countFraming m).sram = m.sram := sf_sram _ _ _ _
@[simp] theorem countFraming_sensed (m : Mach) : (countFraming m).sensed = m.sensed := sf_sensed _ _ _ _
@[simp] theorem countFraming_i3cAddr (m : Mach) : (countFraming m).i3cAddr = m.i3cAddr := sf_i3cAddr _ _ _ _
@[simp] theorem countFraming_eids (m : Mach) : (countFraming m).eids = m.eids := sf_eids _ _ _ _
@[simp] theorem countFraming_tids (m : Mach) : (countFraming m).tids = m.tids := sf_tids _ _ _ _

@[simp] theorem countUnmapped_free (m : Mach) : (countUnmapped m).free = m.free := sf_free _ _ _ _
@[simp] theorem countUnmapped_sof (m : Mach) : (countUnmapped m).sof = m.sof := sf_sof _ _ _ _
@[simp] theorem countUnmapped_home (m : Mach) : (countUnmapped m).home = m.home := sf_home _ _ _ _
@[simp] theorem countUnmapped_eng (m : Mach) : (countUnmapped m).eng = m.eng := sf_eng _ _ _ _
@[simp] theorem countUnmapped_hdm (m : Mach) : (countUnmapped m).hdm = m.hdm := sf_hdm _ _ _ _
@[simp] theorem countUnmapped_vppb (m : Mach) : (countUnmapped m).vppb = m.vppb := sf_vppb _ _ _ _
@[simp] theorem countUnmapped_pmReqs (m : Mach) : (countUnmapped m).pmReqs = m.pmReqs := sf_pmReqs _ _ _ _
@[simp] theorem countUnmapped_sched (m : Mach) : (countUnmapped m).sched = m.sched := sf_sched _ _ _ _
@[simp] theorem countUnmapped_ports (m : Mach) : (countUnmapped m).ports = m.ports := sf_ports _ _ _ _
@[simp] theorem countUnmapped_courier (m : Mach) : (countUnmapped m).courier = m.courier := sf_courier _ _ _ _
@[simp] theorem countUnmapped_logs (m : Mach) : (countUnmapped m).logs = m.logs := sf_logs _ _ _ _
@[simp] theorem countUnmapped_pmu (m : Mach) : (countUnmapped m).pmu = m.pmu := sf_pmu _ _ _ _
@[simp] theorem countUnmapped_amd (m : Mach) : (countUnmapped m).amd = m.amd := sf_amd _ _ _ _
@[simp] theorem countUnmapped_ten (m : Mach) : (countUnmapped m).ten = m.ten := sf_ten _ _ _ _
@[simp] theorem countUnmapped_replies (m : Mach) : (countUnmapped m).replies = m.replies := sf_replies _ _ _ _
@[simp] theorem countUnmapped_cci (m : Mach) : (countUnmapped m).cci = m.cci := sf_cci _ _ _ _
@[simp] theorem countUnmapped_brumin (m : Mach) : (countUnmapped m).brumin = m.brumin := sf_brumin _ _ _ _
@[simp] theorem countUnmapped_load (m : Mach) : (countUnmapped m).load = m.load := sf_load _ _ _ _
@[simp] theorem countUnmapped_fw (m : Mach) : (countUnmapped m).fw = m.fw := sf_fw _ _ _ _
@[simp] theorem countUnmapped_sec (m : Mach) : (countUnmapped m).sec = m.sec := sf_sec _ _ _ _
@[simp] theorem countUnmapped_inl (m : Mach) : (countUnmapped m).inl = m.inl := sf_inl _ _ _ _
@[simp] theorem countUnmapped_resets (m : Mach) : (countUnmapped m).resets = m.resets := sf_resets _ _ _ _
@[simp] theorem countUnmapped_boot (m : Mach) : (countUnmapped m).boot = m.boot := sf_boot _ _ _ _
@[simp] theorem countUnmapped_step8 (m : Mach) : (countUnmapped m).step8 = m.step8 := sf_step8 _ _ _ _
@[simp] theorem countUnmapped_sram (m : Mach) : (countUnmapped m).sram = m.sram := sf_sram _ _ _ _
@[simp] theorem countUnmapped_sensed (m : Mach) : (countUnmapped m).sensed = m.sensed := sf_sensed _ _ _ _
@[simp] theorem countUnmapped_i3cAddr (m : Mach) : (countUnmapped m).i3cAddr = m.i3cAddr := sf_i3cAddr _ _ _ _
@[simp] theorem countUnmapped_eids (m : Mach) : (countUnmapped m).eids = m.eids := sf_eids _ _ _ _
@[simp] theorem countUnmapped_tids (m : Mach) : (countUnmapped m).tids = m.tids := sf_tids _ _ _ _

@[simp] theorem setDomain_free (m : Mach) (d v : Nat) : (setDomain m d v).free = m.free := sf_free _ _ _ _
@[simp] theorem setDomain_sof (m : Mach) (d v : Nat) : (setDomain m d v).sof = m.sof := sf_sof _ _ _ _
@[simp] theorem setDomain_home (m : Mach) (d v : Nat) : (setDomain m d v).home = m.home := sf_home _ _ _ _
@[simp] theorem setDomain_eng (m : Mach) (d v : Nat) : (setDomain m d v).eng = m.eng := sf_eng _ _ _ _
@[simp] theorem setDomain_hdm (m : Mach) (d v : Nat) : (setDomain m d v).hdm = m.hdm := sf_hdm _ _ _ _
@[simp] theorem setDomain_vppb (m : Mach) (d v : Nat) : (setDomain m d v).vppb = m.vppb := sf_vppb _ _ _ _
@[simp] theorem setDomain_pmReqs (m : Mach) (d v : Nat) : (setDomain m d v).pmReqs = m.pmReqs := sf_pmReqs _ _ _ _
@[simp] theorem setDomain_sched (m : Mach) (d v : Nat) : (setDomain m d v).sched = m.sched := sf_sched _ _ _ _
@[simp] theorem setDomain_ports (m : Mach) (d v : Nat) : (setDomain m d v).ports = m.ports := sf_ports _ _ _ _
@[simp] theorem setDomain_courier (m : Mach) (d v : Nat) : (setDomain m d v).courier = m.courier := sf_courier _ _ _ _
@[simp] theorem setDomain_logs (m : Mach) (d v : Nat) : (setDomain m d v).logs = m.logs := sf_logs _ _ _ _
@[simp] theorem setDomain_pmu (m : Mach) (d v : Nat) : (setDomain m d v).pmu = m.pmu := sf_pmu _ _ _ _
@[simp] theorem setDomain_amd (m : Mach) (d v : Nat) : (setDomain m d v).amd = m.amd := sf_amd _ _ _ _
@[simp] theorem setDomain_ten (m : Mach) (d v : Nat) : (setDomain m d v).ten = m.ten := sf_ten _ _ _ _
@[simp] theorem setDomain_replies (m : Mach) (d v : Nat) : (setDomain m d v).replies = m.replies := sf_replies _ _ _ _
@[simp] theorem setDomain_cci (m : Mach) (d v : Nat) : (setDomain m d v).cci = m.cci := sf_cci _ _ _ _
@[simp] theorem setDomain_brumin (m : Mach) (d v : Nat) : (setDomain m d v).brumin = m.brumin := sf_brumin _ _ _ _
@[simp] theorem setDomain_load (m : Mach) (d v : Nat) : (setDomain m d v).load = m.load := sf_load _ _ _ _
@[simp] theorem setDomain_fw (m : Mach) (d v : Nat) : (setDomain m d v).fw = m.fw := sf_fw _ _ _ _
@[simp] theorem setDomain_sec (m : Mach) (d v : Nat) : (setDomain m d v).sec = m.sec := sf_sec _ _ _ _
@[simp] theorem setDomain_inl (m : Mach) (d v : Nat) : (setDomain m d v).inl = m.inl := sf_inl _ _ _ _
@[simp] theorem setDomain_resets (m : Mach) (d v : Nat) : (setDomain m d v).resets = m.resets := sf_resets _ _ _ _
@[simp] theorem setDomain_boot (m : Mach) (d v : Nat) : (setDomain m d v).boot = m.boot := sf_boot _ _ _ _
@[simp] theorem setDomain_step8 (m : Mach) (d v : Nat) : (setDomain m d v).step8 = m.step8 := sf_step8 _ _ _ _
@[simp] theorem setDomain_sram (m : Mach) (d v : Nat) : (setDomain m d v).sram = m.sram := sf_sram _ _ _ _
@[simp] theorem setDomain_sensed (m : Mach) (d v : Nat) : (setDomain m d v).sensed = m.sensed := sf_sensed _ _ _ _
@[simp] theorem setDomain_i3cAddr (m : Mach) (d v : Nat) : (setDomain m d v).i3cAddr = m.i3cAddr := sf_i3cAddr _ _ _ _
@[simp] theorem setDomain_eids (m : Mach) (d v : Nat) : (setDomain m d v).eids = m.eids := sf_eids _ _ _ _
@[simp] theorem setDomain_tids (m : Mach) (d v : Nat) : (setDomain m d v).tids = m.tids := sf_tids _ _ _ _

@[simp] theorem takeFree_fst (m : Mach) : (takeFree m).1 = Config.freeValue m.free := rfl
@[simp] theorem takeFree_free (m : Mach) : (takeFree m).2.free = m.free + 1 := rfl
@[simp] theorem takeFree_regs (m : Mach) : (takeFree m).2.regs = m.regs := rfl
@[simp] theorem takeFree_sof (m : Mach) : (takeFree m).2.sof = m.sof := rfl
@[simp] theorem takeFree_home (m : Mach) : (takeFree m).2.home = m.home := rfl
@[simp] theorem takeFree_eng (m : Mach) : (takeFree m).2.eng = m.eng := rfl
@[simp] theorem takeFree_hdm (m : Mach) : (takeFree m).2.hdm = m.hdm := rfl
@[simp] theorem takeFree_vppb (m : Mach) : (takeFree m).2.vppb = m.vppb := rfl
@[simp] theorem takeFree_pmReqs (m : Mach) : (takeFree m).2.pmReqs = m.pmReqs := rfl
@[simp] theorem takeFree_sched (m : Mach) : (takeFree m).2.sched = m.sched := rfl
@[simp] theorem takeFree_ports (m : Mach) : (takeFree m).2.ports = m.ports := rfl
@[simp] theorem takeFree_courier (m : Mach) : (takeFree m).2.courier = m.courier := rfl
@[simp] theorem takeFree_logs (m : Mach) : (takeFree m).2.logs = m.logs := rfl
@[simp] theorem takeFree_pmu (m : Mach) : (takeFree m).2.pmu = m.pmu := rfl
@[simp] theorem takeFree_amd (m : Mach) : (takeFree m).2.amd = m.amd := rfl
@[simp] theorem takeFree_ten (m : Mach) : (takeFree m).2.ten = m.ten := rfl
@[simp] theorem takeFree_replies (m : Mach) : (takeFree m).2.replies = m.replies := rfl
@[simp] theorem takeFree_cci (m : Mach) : (takeFree m).2.cci = m.cci := rfl
@[simp] theorem takeFree_brumin (m : Mach) : (takeFree m).2.brumin = m.brumin := rfl
@[simp] theorem takeFree_load (m : Mach) : (takeFree m).2.load = m.load := rfl
@[simp] theorem takeFree_fw (m : Mach) : (takeFree m).2.fw = m.fw := rfl
@[simp] theorem takeFree_sec (m : Mach) : (takeFree m).2.sec = m.sec := rfl
@[simp] theorem takeFree_inl (m : Mach) : (takeFree m).2.inl = m.inl := rfl
@[simp] theorem takeFree_resets (m : Mach) : (takeFree m).2.resets = m.resets := rfl
@[simp] theorem takeFree_boot (m : Mach) : (takeFree m).2.boot = m.boot := rfl
@[simp] theorem takeFree_step8 (m : Mach) : (takeFree m).2.step8 = m.step8 := rfl
@[simp] theorem takeFree_sram (m : Mach) : (takeFree m).2.sram = m.sram := rfl
@[simp] theorem takeFree_sensed (m : Mach) : (takeFree m).2.sensed = m.sensed := rfl
@[simp] theorem takeFree_i3cAddr (m : Mach) : (takeFree m).2.i3cAddr = m.i3cAddr := rfl
@[simp] theorem takeFree_eids (m : Mach) : (takeFree m).2.eids = m.eids := rfl
@[simp] theorem takeFree_tids (m : Mach) : (takeFree m).2.tids = m.tids := rfl

/-! ### Registers and their fields -/

/-- A register reads as what was last written to it. -/
@[simp] theorem rd_wr_same (m : Mach) (r : RegDef) (ix : List Nat) (w : Word) : rd (wr m r ix w) r ix = w := by
  simp [rd, wr]

/-- A register at another address reads as before. -/
theorem rd_wr_other (m : Mach) (r q : RegDef) (ix jx : List Nat) (w : Word) (h : regAddr r ix ≠ regAddr q jx) :
    rd (wr m r ix w) q jx = rd m q jx := by
  simp [rd, wr, tget_tset_other _ _ _ _ h]

/-- A register reads the same in machines with equal register files. -/
theorem rd_congr {a b : Mach} (h : a.regs = b.regs) (r : RegDef) (ix : List Nat) : rd a r ix = rd b r ix := by
  simp [rd, h]

theorem gf_congr {a b : Mach} (h : a.regs = b.regs) (f : FieldRef) (ix : List Nat) : gf a f ix = gf b f ix := by
  simp [gf, rd_congr h]

theorem gf_wr_same (m : Mach) (f : FieldRef) (ix : List Nat) (w : Word) : gf (wr m f.reg ix w) f ix = getBits w f.hi f.lo := by
  simp [gf]

theorem gf_wr_other (m : Mach) (r : RegDef) (f : FieldRef) (ix jx : List Nat) (w : Word) (h : regAddr r ix ≠ regAddr f.reg jx) :
    gf (wr m r ix w) f jx = gf m f jx := by
  simp [gf, rd_wr_other _ _ _ _ _ _ h]

@[simp] theorem rd_sf_same (m : Mach) (f : FieldRef) (ix : List Nat) (v : Nat) :
    rd (sf m f ix v) f.reg ix = setBits (rd m f.reg ix) f.hi f.lo v := by
  simp [sf]

theorem rd_sf_other (m : Mach) (f : FieldRef) (q : RegDef) (ix jx : List Nat) (v : Nat) (h : regAddr f.reg ix ≠ regAddr q jx) :
    rd (sf m f ix v) q jx = rd m q jx := rd_wr_other _ _ _ _ _ _ h

/-- A field reads as what was put there. -/
theorem gf_sf_same (m : Mach) (f : FieldRef) (ix : List Nat) (v : Nat) (h : f.lo ≤ f.hi) (h64 : f.hi < 64) :
    gf (sf m f ix v) f ix = v % 2 ^ (f.hi + 1 - f.lo) := by
  simp [gf, getBits_setBits_same _ _ _ _ h h64]

/-- Another field of the same register reads as before. -/
theorem gf_sf_field (m : Mach) (f g : FieldRef) (ix : List Nat) (v : Nat) (hr : g.reg = f.reg) (h : f.lo ≤ f.hi) (h64 : f.hi < 64)
    (hd : g.hi < f.lo ∨ f.hi < g.lo) : gf (sf m f ix v) g ix = gf m g ix := by
  simp only [gf, hr, rd_sf_same]
  exact getBits_setBits_other _ _ _ _ _ _ h h64 hd

/-- A field of a register at another address reads as before. -/
theorem gf_sf_other (m : Mach) (f g : FieldRef) (ix jx : List Nat) (v : Nat) (h : regAddr f.reg ix ≠ regAddr g.reg jx) :
    gf (sf m f ix v) g jx = gf m g jx := gf_wr_other _ _ _ _ _ _ h

/-- A field never exceeds its width. -/
theorem gf_lt (m : Mach) (f : FieldRef) (ix : List Nat) : gf m f ix < 2 ^ (f.hi + 1 - f.lo) := getBits_lt _ _ _

/-- R12: after one more event of an ACK field its flag reads 1. -/
theorem gf_ackEvent_flag (m : Mach) (f : FieldRef) (ix : List Nat) (h : f.lo = f.hi) (h64 : f.hi < 64) :
    gf (ackEvent m f ix) f ix = 1 := by
  simp only [ackEvent, gf_wr_same, h]
  rw [getBits_setBits_same _ _ _ _ (Nat.le_refl _) h64, show f.hi + 1 - f.hi = 1 by omega]; rfl

/-- R12: and its count, directly below the flag, has risen by 1 modulo 65,536. -/
theorem gf_ackEvent_count (m : Mach) (f c : FieldRef) (ix : List Nat) (hr : c.reg = f.reg) (h16 : 16 ≤ f.hi) (h64 : f.hi < 64)
    (hc : c.hi = f.hi - 1) (hl : c.lo = f.hi - 16) : gf (ackEvent m f ix) c ix = (gf m c ix + 1) % 65536 := by
  simp only [ackEvent, gf, hr, rd_wr_same, hc, hl]
  rw [getBits_setBits_below _ _ _ _ _ _ (Nat.le_refl _) h64 (by omega), getBits_setBits_same _ _ _ _ (by omega) (by omega),
    show f.hi - 1 + 1 - (f.hi - 16) = 16 by omega]; exact Nat.mod_mod _ _

/-- R12: the register's other fields read as before. -/
theorem gf_ackEvent_field (m : Mach) (f g : FieldRef) (ix : List Nat) (hr : g.reg = f.reg) (h16 : 16 ≤ f.hi) (h64 : f.hi < 64)
    (hd : g.hi < f.hi - 16 ∨ f.hi < g.lo) : gf (ackEvent m f ix) g ix = gf m g ix := by
  simp only [ackEvent, gf, hr, rd_wr_same]
  rw [getBits_setBits_other _ _ _ _ _ _ (Nat.le_refl _) h64 (by omega),
    getBits_setBits_other _ _ _ _ _ _ (by omega) (by omega) (by omega)]

theorem rd_ackEvent_other (m : Mach) (f : FieldRef) (q : RegDef) (ix jx : List Nat) (h : regAddr f.reg ix ≠ regAddr q jx) :
    rd (ackEvent m f ix) q jx = rd m q jx := rd_wr_other _ _ _ _ _ _ h

theorem gf_ackEvent_other (m : Mach) (f g : FieldRef) (ix jx : List Nat) (h : regAddr f.reg ix ≠ regAddr g.reg jx) :
    gf (ackEvent m f ix) g jx = gf m g jx := gf_wr_other _ _ _ _ _ _ h

end Sys2Proof.Machine
end

