-- ==== Sys2Proof/Laws/Logs.lean ====
section
/-!
SUPPORT. What an event, a log entry, a dead letter and a round of the watermark monitors can change: the logs, and the
registers of the event queue, the RAS log, the dead-letter log and the monitors.
-/

namespace Sys2Proof.Machine
open Sys2Proof

/-- Only the logs, and the registers that `p` holds of, may differ. -/
structure LogFrame (p : Nat → Bool) (a b : Mach) : Prop where
  rest : { b with logs := a.logs, regs := a.regs } = a
  reg : ∀ (d : Word) (i : Nat), p i = false → tget d b.regs i = tget d a.regs i

theorem LogFrame.eq {p : Nat → Bool} {a b : Mach} (h : LogFrame p a b) : b = { a with logs := b.logs, regs := b.regs } :=
  congrArg (fun m : Mach => { m with logs := b.logs, regs := b.regs }) h.rest

theorem LogFrame.part {β : Type} {p : Nat → Bool} {a b : Mach} (h : LogFrame p a b) (f : Mach → β)
    (hf : ∀ (m : Mach) (l : Logs) (t : Table Word), f { m with logs := l, regs := t } = f m) : f b = f a :=
  (hf b a.logs a.regs).symm.trans (congrArg f h.rest)

theorem LogFrame.refl (p : Nat → Bool) (a : Mach) : LogFrame p a a := ⟨rfl, fun _ _ _ => rfl⟩

theorem LogFrame.trans {p : Nat → Bool} {a b c : Mach} (h : LogFrame p a b) (k : LogFrame p b c) : LogFrame p a c where
  rest := h.rest ▸ congrArg (fun m : Mach => { m with logs := a.logs, regs := a.regs }) k.rest
  reg d i hi := (k.reg d i hi).trans (h.reg d i hi)

theorem LogFrame.mono {p q : Nat → Bool} {a b : Mach} (h : LogFrame p a b) (hpq : ∀ i, q i = false → p i = false) : LogFrame q a b :=
  ⟨h.rest, fun d i hi => h.reg d i (hpq i hi)⟩

theorem LogFrame.rd {p : Nat → Bool} {a b : Mach} (h : LogFrame p a b) (r : RegDef) (ix : List Nat) (hp : p (regAddr r ix) = false) :
    rd b r ix = rd a r ix := h.reg _ _ hp

theorem LogFrame.gf {p : Nat → Bool} {a b : Mach} (h : LogFrame p a b) (f : FieldRef) (ix : List Nat)
    (hp : p (regAddr f.reg ix) = false) : gf b f ix = gf a f ix := by
  rw [Machine.gf, Machine.gf, h.rd _ _ hp]

theorem LogFrame.ofLogs (p : Nat → Bool) (m : Mach) (l : Logs) : LogFrame p m { m with logs := l } := ⟨rfl, fun _ _ _ => rfl⟩

theorem LogFrame.ofWr (p : Nat → Bool) (m : Mach) (r : RegDef) (ix : List Nat) (w : Word) (h : p (regAddr r ix) = true) :
    LogFrame p m (wr m r ix w) :=
  ⟨rfl, fun _ _ hi => tget_tset_other _ _ _ _ (by intro e; rw [← e, h] at hi; cases hi)⟩

theorem LogFrame.ofSf (p : Nat → Bool) (m : Mach) (f : FieldRef) (ix : List Nat) (v : Nat) (h : p (regAddr f.reg ix) = true) :
    LogFrame p m (sf m f ix v) := LogFrame.ofWr p m f.reg ix _ h

theorem LogFrame.ofAck (p : Nat → Bool) (m : Mach) (f : FieldRef) (ix : List Nat) (h : p (regAddr f.reg ix) = true) :
    LogFrame p m (ackEvent m f ix) := LogFrame.ofWr p m f.reg ix _ h

theorem LogFrame.ofSat (p : Nat → Bool) (m : Mach) (f : FieldRef) (ix : List Nat) (h : p (regAddr f.reg ix) = true) :
    LogFrame p m (satInc m f ix) := by unfold satInc; exact LogFrame.ofSf p m f ix _ h

/-! ### The operations -/

theorem evqPut_logs (m : Mach) (now type sev inst : Nat) (pm : Word) (detail : Nat) :
    LogFrame (isReg logRegs) m (evqPut m now type sev inst pm detail) := by
  unfold evqPut
  exact ((LogFrame.ofLogs _ _ _).trans (LogFrame.ofSf _ _ _ _ _ (by decide))).trans (LogFrame.ofAck _ _ _ _ (by decide))

theorem evqSignal_logs (m : Mach) : LogFrame (isReg logRegs) m (evqSignal m) := LogFrame.ofLogs _ _ _

theorem event_logs (m : Mach) (now type sev inst : Nat) (pm : Postmark) (detail : Nat) :
    LogFrame (isReg logRegs) m (event m now type sev inst pm detail) := by
  unfold event
  split
  · exact LogFrame.refl _ _
  · dsimp only
    split
    · exact (LogFrame.ofLogs _ _ _).trans (LogFrame.ofSat _ _ _ _ (by decide))
    · split
      · exact (((evqPut_logs _ _ _ _ _ _ _).trans (LogFrame.ofLogs _ _ _)).trans (evqPut_logs _ _ _ _ _ _ _)).trans (evqSignal_logs _)
      · exact (evqPut_logs _ _ _ _ _ _ _).trans (evqSignal_logs _)

theorem event_if_logs {m b : Mach} {now sev kind detail : Nat} {pm : Postmark} {c : Prop} [Decidable c] (h : LogFrame (isReg logRegs) m b) :
    LogFrame (isReg logRegs) m (if c then event b now 0x20 sev kind pm detail else b) := by
  split
  · exact h.trans (event_logs _ _ _ _ _ _ _)
  · exact h

theorem rasLog_logs (m : Mach) (now kind sev inst : Nat) (pm : Postmark) (addr world sg src d0 d1 : Nat) :
    LogFrame (isReg logRegs) m (rasLog m now kind sev inst pm addr world sg src d0 d1) := by
  unfold rasLog
  extract_lets seq head tail full l0 m1 ws put m2
  have hp : ∀ b, LogFrame (isReg logRegs) b (put b) := by
    intro b
    refine LogFrame.trans ?_ (LogFrame.ofAck _ _ _ _ (by decide))
    refine LogFrame.trans ?_ (LogFrame.ofSf _ _ _ _ _ (by decide))
    exact LogFrame.ofLogs _ b _
  have h1 : LogFrame (isReg logRegs) m m1 := LogFrame.ofLogs _ m _
  have h2 : LogFrame (isReg logRegs) m m2 := by
    refine h1.trans ?_
    by_cases c : (!full) = true
    · simp only [m2, if_pos c]; exact hp _
    · by_cases d : gfb m1 F.RAS_LOG_CFG_OVERWRITE = true
      · simp only [m2, if_neg c, if_pos d]
        refine LogFrame.trans ?_ (hp _)
        refine LogFrame.trans ?_ (LogFrame.ofSat _ _ _ _ (by decide))
        exact LogFrame.ofSf _ _ _ _ _ (by decide)
      · simp only [m2, if_neg c, if_neg d]
        exact LogFrame.ofSat _ _ _ _ (by decide)
  exact event_if_logs h2

theorem deadLetter_logs (m : Mach) (now : Nat) (x : Msg) (cause : Nat) (ans : DlAnswer) (port group : Option Nat) (maybe : Bool)
    (fence : Postmark) : LogFrame (isReg logRegs) m (deadLetter m now x cause ans port group maybe fence) := by
  unfold deadLetter
  dsimp only
  split
  · exact (LogFrame.ofLogs _ _ _).trans ((LogFrame.ofSf _ _ _ _ _ (by decide)).trans (LogFrame.ofAck _ _ _ _ (by decide)))
  · split
    · exact (LogFrame.ofSf _ _ _ _ _ (by decide)).trans ((LogFrame.ofSat _ _ _ _ (by decide)).trans
        ((LogFrame.ofLogs _ _ _).trans ((LogFrame.ofSf _ _ _ _ _ (by decide)).trans (LogFrame.ofAck _ _ _ _ (by decide)))))
    · exact LogFrame.ofSat _ _ _ _ (by decide)

theorem opEnded_logs (m : Mach) (now block : Nat) (w : Word) : LogFrame (isReg logRegs) m (opEnded m now block w) := by
  unfold opEnded
  split
  · exact LogFrame.refl _ _
  · exact event_logs _ _ _ _ _ _ _

theorem isReg_append (p q : List (RegDef × List Nat)) (a : Nat) : isReg (p ++ q) a = (isReg p a || isReg q a) := by
  simp [isReg, List.any_append]

theorem isReg_wm (k : Nat) (h : k < 64) : isReg watchRegs (regAddr Reg.RAS_WM_STATUS [k]) = true := by
  rw [watchRegs, isReg_append, Bool.or_eq_true]
  right
  simp only [isReg, List.any_map, List.any_eq_true, List.mem_range]
  exact ⟨k, h, by simp⟩

theorem isReg_logs_of_watch (i : Nat) (h : isReg watchRegs i = false) : isReg logRegs i = false := by
  rw [watchRegs, isReg_append, Bool.or_eq_false_iff] at h
  exact h.1

theorem event_watch (m : Mach) (now type sev inst : Nat) (pm : Postmark) (detail : Nat) :
    LogFrame (isReg watchRegs) m (event m now type sev inst pm detail) :=
  (event_logs _ _ _ _ _ _ _).mono isReg_logs_of_watch

theorem wmEval_watch (fresh : Bool) (now : Nat) (m : Mach) (k : Nat) (hk : k < 64) : LogFrame (isReg watchRegs) m (wmEval fresh now m k) := by
  have hw := isReg_wm k hk
  unfold wmEval
  split
  · exact LogFrame.refl _ _
  · dsimp only
    split
    · exact LogFrame.refl _ _
    · split
      · exact (((LogFrame.ofSf _ _ _ _ _ hw).trans (LogFrame.ofSf _ _ _ _ _ hw)).trans (LogFrame.ofAck _ _ _ _ hw)).trans
          (event_watch _ _ _ _ _ _ _)
      · split
        · split
          · exact ((LogFrame.ofSf _ _ _ _ _ hw).trans (LogFrame.ofSf _ _ _ _ _ hw)).trans (event_watch _ _ _ _ _ _ _)
          · exact (LogFrame.ofSf _ _ _ _ _ hw).trans (LogFrame.ofSf _ _ _ _ _ hw)
        · exact LogFrame.ofSf _ _ _ _ _ hw

/-- A round of the monitors changes the monitors and, by their events, the logs. -/
theorem wmAll_watch (now : Nat) (m : Mach) : LogFrame (isReg watchRegs) m (wmAll now m) := by
  have h : ∀ (l : List Nat) (m : Mach), (∀ k ∈ l, k < 64) → LogFrame (isReg watchRegs) m (l.foldl (wmEval false now) m) := by
    intro l
    induction l with
    | nil => intro m _; exact LogFrame.refl _ _
    | cons k l ih =>
      intro m hl
      exact (wmEval_watch false now m k (hl k List.mem_cons_self)).trans (ih _ (fun j hj => hl j (List.mem_cons_of_mem _ hj)))
  exact h _ m (by intro k hk; simpa using hk)

@[simp] theorem event_free (m : Mach) (now type sev inst : Nat) (pm : Postmark) (detail : Nat) : (event m now type sev inst pm detail).free = m.free := (event_logs _ _ _ _ _ _ _).part Mach.free fun _ _ _ => rfl
@[simp] theorem event_sof (m : Mach) (now type sev inst : Nat) (pm : Postmark) (detail : Nat) : (event m now type sev inst pm detail).sof = m.sof := (event_logs _ _ _ _ _ _ _).part Mach.sof fun _ _ _ => rfl
@[simp] theorem event_home (m : Mach) (now type sev inst : Nat) (pm : Postmark) (detail : Nat) : (event m now type sev inst pm detail).home = m.home := (event_logs _ _ _ _ _ _ _).part Mach.home fun _ _ _ => rfl
@[simp] theorem event_eng (m : Mach) (now type sev inst : Nat) (pm : Postmark) (detail : Nat) : (event m now type sev inst pm detail).eng = m.eng := (event_logs _ _ _ _ _ _ _).part Mach.eng fun _ _ _ => rfl
@[simp] theorem event_hdm (m : Mach) (now type sev inst : Nat) (pm : Postmark) (detail : Nat) : (event m now type sev inst pm detail).hdm = m.hdm := (event_logs _ _ _ _ _ _ _).part Mach.hdm fun _ _ _ => rfl
@[simp] theorem event_vppb (m : Mach) (now type sev inst : Nat) (pm : Postmark) (detail : Nat) : (event m now type sev inst pm detail).vppb = m.vppb := (event_logs _ _ _ _ _ _ _).part Mach.vppb fun _ _ _ => rfl
@[simp] theorem event_pmReqs (m : Mach) (now type sev inst : Nat) (pm : Postmark) (detail : Nat) : (event m now type sev inst pm detail).pmReqs = m.pmReqs := (event_logs _ _ _ _ _ _ _).part Mach.pmReqs fun _ _ _ => rfl
@[simp] theorem event_sched (m : Mach) (now type sev inst : Nat) (pm : Postmark) (detail : Nat) : (event m now type sev inst pm detail).sched = m.sched := (event_logs _ _ _ _ _ _ _).part Mach.sched fun _ _ _ => rfl
@[simp] theorem event_ports (m : Mach) (now type sev inst : Nat) (pm : Postmark) (detail : Nat) : (event m now type sev inst pm detail).ports = m.ports := (event_logs _ _ _ _ _ _ _).part Mach.ports fun _ _ _ => rfl
@[simp] theorem event_courier (m : Mach) (now type sev inst : Nat) (pm : Postmark) (detail : Nat) : (event m now type sev inst pm detail).courier = m.courier := (event_logs _ _ _ _ _ _ _).part Mach.courier fun _ _ _ => rfl
@[simp] theorem event_pmu (m : Mach) (now type sev inst : Nat) (pm : Postmark) (detail : Nat) : (event m now type sev inst pm detail).pmu = m.pmu := (event_logs _ _ _ _ _ _ _).part Mach.pmu fun _ _ _ => rfl
@[simp] theorem event_amd (m : Mach) (now type sev inst : Nat) (pm : Postmark) (detail : Nat) : (event m now type sev inst pm detail).amd = m.amd := (event_logs _ _ _ _ _ _ _).part Mach.amd fun _ _ _ => rfl
@[simp] theorem event_ten (m : Mach) (now type sev inst : Nat) (pm : Postmark) (detail : Nat) : (event m now type sev inst pm detail).ten = m.ten := (event_logs _ _ _ _ _ _ _).part Mach.ten fun _ _ _ => rfl
@[simp] theorem event_replies (m : Mach) (now type sev inst : Nat) (pm : Postmark) (detail : Nat) : (event m now type sev inst pm detail).replies = m.replies := (event_logs _ _ _ _ _ _ _).part Mach.replies fun _ _ _ => rfl
@[simp] theorem event_cci (m : Mach) (now type sev inst : Nat) (pm : Postmark) (detail : Nat) : (event m now type sev inst pm detail).cci = m.cci := (event_logs _ _ _ _ _ _ _).part Mach.cci fun _ _ _ => rfl
@[simp] theorem event_brumin (m : Mach) (now type sev inst : Nat) (pm : Postmark) (detail : Nat) : (event m now type sev inst pm detail).brumin = m.brumin := (event_logs _ _ _ _ _ _ _).part Mach.brumin fun _ _ _ => rfl
@[simp] theorem event_load (m : Mach) (now type sev inst : Nat) (pm : Postmark) (detail : Nat) : (event m now type sev inst pm detail).load = m.load := (event_logs _ _ _ _ _ _ _).part Mach.load fun _ _ _ => rfl
@[simp] theorem event_fw (m : Mach) (now type sev inst : Nat) (pm : Postmark) (detail : Nat) : (event m now type sev inst pm detail).fw = m.fw := (event_logs _ _ _ _ _ _ _).part Mach.fw fun _ _ _ => rfl
@[simp] theorem event_sec (m : Mach) (now type sev inst : Nat) (pm : Postmark) (detail : Nat) : (event m now type sev inst pm detail).sec = m.sec := (event_logs _ _ _ _ _ _ _).part Mach.sec fun _ _ _ => rfl
@[simp] theorem event_inl (m : Mach) (now type sev inst : Nat) (pm : Postmark) (detail : Nat) : (event m now type sev inst pm detail).inl = m.inl := (event_logs _ _ _ _ _ _ _).part Mach.inl fun _ _ _ => rfl
@[simp] theorem event_resets (m : Mach) (now type sev inst : Nat) (pm : Postmark) (detail : Nat) : (event m now type sev inst pm detail).resets = m.resets := (event_logs _ _ _ _ _ _ _).part Mach.resets fun _ _ _ => rfl
@[simp] theorem event_boot (m : Mach) (now type sev inst : Nat) (pm : Postmark) (detail : Nat) : (event m now type sev inst pm detail).boot = m.boot := (event_logs _ _ _ _ _ _ _).part Mach.boot fun _ _ _ => rfl
@[simp] theorem event_step8 (m : Mach) (now type sev inst : Nat) (pm : Postmark) (detail : Nat) : (event m now type sev inst pm detail).step8 = m.step8 := (event_logs _ _ _ _ _ _ _).part Mach.step8 fun _ _ _ => rfl
@[simp] theorem event_sram (m : Mach) (now type sev inst : Nat) (pm : Postmark) (detail : Nat) : (event m now type sev inst pm detail).sram = m.sram := (event_logs _ _ _ _ _ _ _).part Mach.sram fun _ _ _ => rfl
@[simp] theorem event_sensed (m : Mach) (now type sev inst : Nat) (pm : Postmark) (detail : Nat) : (event m now type sev inst pm detail).sensed = m.sensed := (event_logs _ _ _ _ _ _ _).part Mach.sensed fun _ _ _ => rfl
@[simp] theorem event_i3cAddr (m : Mach) (now type sev inst : Nat) (pm : Postmark) (detail : Nat) : (event m now type sev inst pm detail).i3cAddr = m.i3cAddr := (event_logs _ _ _ _ _ _ _).part Mach.i3cAddr fun _ _ _ => rfl
@[simp] theorem event_eids (m : Mach) (now type sev inst : Nat) (pm : Postmark) (detail : Nat) : (event m now type sev inst pm detail).eids = m.eids := (event_logs _ _ _ _ _ _ _).part Mach.eids fun _ _ _ => rfl
@[simp] theorem event_tids (m : Mach) (now type sev inst : Nat) (pm : Postmark) (detail : Nat) : (event m now type sev inst pm detail).tids = m.tids := (event_logs _ _ _ _ _ _ _).part Mach.tids fun _ _ _ => rfl

@[simp] theorem rasLog_free (m : Mach) (now kind sev inst : Nat) (pm : Postmark) (addr world sg src d0 d1 : Nat) : (rasLog m now kind sev inst pm addr world sg src d0 d1).free = m.free := (rasLog_logs _ _ _ _ _ _ _ _ _ _ _ _).part Mach.free fun _ _ _ => rfl
@[simp] theorem rasLog_sof (m : Mach) (now kind sev inst : Nat) (pm : Postmark) (addr world sg src d0 d1 : Nat) : (rasLog m now kind sev inst pm addr world sg src d0 d1).sof = m.sof := (rasLog_logs _ _ _ _ _ _ _ _ _ _ _ _).part Mach.sof fun _ _ _ => rfl
@[simp] theorem rasLog_home (m : Mach) (now kind sev inst : Nat) (pm : Postmark) (addr world sg src d0 d1 : Nat) : (rasLog m now kind sev inst pm addr world sg src d0 d1).home = m.home := (rasLog_logs _ _ _ _ _ _ _ _ _ _ _ _).part Mach.home fun _ _ _ => rfl
@[simp] theorem rasLog_eng (m : Mach) (now kind sev inst : Nat) (pm : Postmark) (addr world sg src d0 d1 : Nat) : (rasLog m now kind sev inst pm addr world sg src d0 d1).eng = m.eng := (rasLog_logs _ _ _ _ _ _ _ _ _ _ _ _).part Mach.eng fun _ _ _ => rfl
@[simp] theorem rasLog_hdm (m : Mach) (now kind sev inst : Nat) (pm : Postmark) (addr world sg src d0 d1 : Nat) : (rasLog m now kind sev inst pm addr world sg src d0 d1).hdm = m.hdm := (rasLog_logs _ _ _ _ _ _ _ _ _ _ _ _).part Mach.hdm fun _ _ _ => rfl
@[simp] theorem rasLog_vppb (m : Mach) (now kind sev inst : Nat) (pm : Postmark) (addr world sg src d0 d1 : Nat) : (rasLog m now kind sev inst pm addr world sg src d0 d1).vppb = m.vppb := (rasLog_logs _ _ _ _ _ _ _ _ _ _ _ _).part Mach.vppb fun _ _ _ => rfl
@[simp] theorem rasLog_pmReqs (m : Mach) (now kind sev inst : Nat) (pm : Postmark) (addr world sg src d0 d1 : Nat) : (rasLog m now kind sev inst pm addr world sg src d0 d1).pmReqs = m.pmReqs := (rasLog_logs _ _ _ _ _ _ _ _ _ _ _ _).part Mach.pmReqs fun _ _ _ => rfl
@[simp] theorem rasLog_sched (m : Mach) (now kind sev inst : Nat) (pm : Postmark) (addr world sg src d0 d1 : Nat) : (rasLog m now kind sev inst pm addr world sg src d0 d1).sched = m.sched := (rasLog_logs _ _ _ _ _ _ _ _ _ _ _ _).part Mach.sched fun _ _ _ => rfl
@[simp] theorem rasLog_ports (m : Mach) (now kind sev inst : Nat) (pm : Postmark) (addr world sg src d0 d1 : Nat) : (rasLog m now kind sev inst pm addr world sg src d0 d1).ports = m.ports := (rasLog_logs _ _ _ _ _ _ _ _ _ _ _ _).part Mach.ports fun _ _ _ => rfl
@[simp] theorem rasLog_courier (m : Mach) (now kind sev inst : Nat) (pm : Postmark) (addr world sg src d0 d1 : Nat) : (rasLog m now kind sev inst pm addr world sg src d0 d1).courier = m.courier := (rasLog_logs _ _ _ _ _ _ _ _ _ _ _ _).part Mach.courier fun _ _ _ => rfl
@[simp] theorem rasLog_pmu (m : Mach) (now kind sev inst : Nat) (pm : Postmark) (addr world sg src d0 d1 : Nat) : (rasLog m now kind sev inst pm addr world sg src d0 d1).pmu = m.pmu := (rasLog_logs _ _ _ _ _ _ _ _ _ _ _ _).part Mach.pmu fun _ _ _ => rfl
@[simp] theorem rasLog_amd (m : Mach) (now kind sev inst : Nat) (pm : Postmark) (addr world sg src d0 d1 : Nat) : (rasLog m now kind sev inst pm addr world sg src d0 d1).amd = m.amd := (rasLog_logs _ _ _ _ _ _ _ _ _ _ _ _).part Mach.amd fun _ _ _ => rfl
@[simp] theorem rasLog_ten (m : Mach) (now kind sev inst : Nat) (pm : Postmark) (addr world sg src d0 d1 : Nat) : (rasLog m now kind sev inst pm addr world sg src d0 d1).ten = m.ten := (rasLog_logs _ _ _ _ _ _ _ _ _ _ _ _).part Mach.ten fun _ _ _ => rfl
@[simp] theorem rasLog_replies (m : Mach) (now kind sev inst : Nat) (pm : Postmark) (addr world sg src d0 d1 : Nat) : (rasLog m now kind sev inst pm addr world sg src d0 d1).replies = m.replies := (rasLog_logs _ _ _ _ _ _ _ _ _ _ _ _).part Mach.replies fun _ _ _ => rfl
@[simp] theorem rasLog_cci (m : Mach) (now kind sev inst : Nat) (pm : Postmark) (addr world sg src d0 d1 : Nat) : (rasLog m now kind sev inst pm addr world sg src d0 d1).cci = m.cci := (rasLog_logs _ _ _ _ _ _ _ _ _ _ _ _).part Mach.cci fun _ _ _ => rfl
@[simp] theorem rasLog_brumin (m : Mach) (now kind sev inst : Nat) (pm : Postmark) (addr world sg src d0 d1 : Nat) : (rasLog m now kind sev inst pm addr world sg src d0 d1).brumin = m.brumin := (rasLog_logs _ _ _ _ _ _ _ _ _ _ _ _).part Mach.brumin fun _ _ _ => rfl
@[simp] theorem rasLog_load (m : Mach) (now kind sev inst : Nat) (pm : Postmark) (addr world sg src d0 d1 : Nat) : (rasLog m now kind sev inst pm addr world sg src d0 d1).load = m.load := (rasLog_logs _ _ _ _ _ _ _ _ _ _ _ _).part Mach.load fun _ _ _ => rfl
@[simp] theorem rasLog_fw (m : Mach) (now kind sev inst : Nat) (pm : Postmark) (addr world sg src d0 d1 : Nat) : (rasLog m now kind sev inst pm addr world sg src d0 d1).fw = m.fw := (rasLog_logs _ _ _ _ _ _ _ _ _ _ _ _).part Mach.fw fun _ _ _ => rfl
@[simp] theorem rasLog_sec (m : Mach) (now kind sev inst : Nat) (pm : Postmark) (addr world sg src d0 d1 : Nat) : (rasLog m now kind sev inst pm addr world sg src d0 d1).sec = m.sec := (rasLog_logs _ _ _ _ _ _ _ _ _ _ _ _).part Mach.sec fun _ _ _ => rfl
@[simp] theorem rasLog_inl (m : Mach) (now kind sev inst : Nat) (pm : Postmark) (addr world sg src d0 d1 : Nat) : (rasLog m now kind sev inst pm addr world sg src d0 d1).inl = m.inl := (rasLog_logs _ _ _ _ _ _ _ _ _ _ _ _).part Mach.inl fun _ _ _ => rfl
@[simp] theorem rasLog_resets (m : Mach) (now kind sev inst : Nat) (pm : Postmark) (addr world sg src d0 d1 : Nat) : (rasLog m now kind sev inst pm addr world sg src d0 d1).resets = m.resets := (rasLog_logs _ _ _ _ _ _ _ _ _ _ _ _).part Mach.resets fun _ _ _ => rfl
@[simp] theorem rasLog_boot (m : Mach) (now kind sev inst : Nat) (pm : Postmark) (addr world sg src d0 d1 : Nat) : (rasLog m now kind sev inst pm addr world sg src d0 d1).boot = m.boot := (rasLog_logs _ _ _ _ _ _ _ _ _ _ _ _).part Mach.boot fun _ _ _ => rfl
@[simp] theorem rasLog_step8 (m : Mach) (now kind sev inst : Nat) (pm : Postmark) (addr world sg src d0 d1 : Nat) : (rasLog m now kind sev inst pm addr world sg src d0 d1).step8 = m.step8 := (rasLog_logs _ _ _ _ _ _ _ _ _ _ _ _).part Mach.step8 fun _ _ _ => rfl
@[simp] theorem rasLog_sram (m : Mach) (now kind sev inst : Nat) (pm : Postmark) (addr world sg src d0 d1 : Nat) : (rasLog m now kind sev inst pm addr world sg src d0 d1).sram = m.sram := (rasLog_logs _ _ _ _ _ _ _ _ _ _ _ _).part Mach.sram fun _ _ _ => rfl
@[simp] theorem rasLog_sensed (m : Mach) (now kind sev inst : Nat) (pm : Postmark) (addr world sg src d0 d1 : Nat) : (rasLog m now kind sev inst pm addr world sg src d0 d1).sensed = m.sensed := (rasLog_logs _ _ _ _ _ _ _ _ _ _ _ _).part Mach.sensed fun _ _ _ => rfl
@[simp] theorem rasLog_i3cAddr (m : Mach) (now kind sev inst : Nat) (pm : Postmark) (addr world sg src d0 d1 : Nat) : (rasLog m now kind sev inst pm addr world sg src d0 d1).i3cAddr = m.i3cAddr := (rasLog_logs _ _ _ _ _ _ _ _ _ _ _ _).part Mach.i3cAddr fun _ _ _ => rfl
@[simp] theorem rasLog_eids (m : Mach) (now kind sev inst : Nat) (pm : Postmark) (addr world sg src d0 d1 : Nat) : (rasLog m now kind sev inst pm addr world sg src d0 d1).eids = m.eids := (rasLog_logs _ _ _ _ _ _ _ _ _ _ _ _).part Mach.eids fun _ _ _ => rfl
@[simp] theorem rasLog_tids (m : Mach) (now kind sev inst : Nat) (pm : Postmark) (addr world sg src d0 d1 : Nat) : (rasLog m now kind sev inst pm addr world sg src d0 d1).tids = m.tids := (rasLog_logs _ _ _ _ _ _ _ _ _ _ _ _).part Mach.tids fun _ _ _ => rfl

@[simp] theorem deadLetter_free (m : Mach) (now : Nat) (x : Msg) (cause : Nat) (ans : DlAnswer) (port group : Option Nat) (maybe : Bool) (fence : Postmark) : (deadLetter m now x cause ans port group maybe fence).free = m.free := (deadLetter_logs _ _ _ _ _ _ _ _ _).part Mach.free fun _ _ _ => rfl
@[simp] theorem deadLetter_sof (m : Mach) (now : Nat) (x : Msg) (cause : Nat) (ans : DlAnswer) (port group : Option Nat) (maybe : Bool) (fence : Postmark) : (deadLetter m now x cause ans port group maybe fence).sof = m.sof := (deadLetter_logs _ _ _ _ _ _ _ _ _).part Mach.sof fun _ _ _ => rfl
@[simp] theorem deadLetter_home (m : Mach) (now : Nat) (x : Msg) (cause : Nat) (ans : DlAnswer) (port group : Option Nat) (maybe : Bool) (fence : Postmark) : (deadLetter m now x cause ans port group maybe fence).home = m.home := (deadLetter_logs _ _ _ _ _ _ _ _ _).part Mach.home fun _ _ _ => rfl
@[simp] theorem deadLetter_eng (m : Mach) (now : Nat) (x : Msg) (cause : Nat) (ans : DlAnswer) (port group : Option Nat) (maybe : Bool) (fence : Postmark) : (deadLetter m now x cause ans port group maybe fence).eng = m.eng := (deadLetter_logs _ _ _ _ _ _ _ _ _).part Mach.eng fun _ _ _ => rfl
@[simp] theorem deadLetter_hdm (m : Mach) (now : Nat) (x : Msg) (cause : Nat) (ans : DlAnswer) (port group : Option Nat) (maybe : Bool) (fence : Postmark) : (deadLetter m now x cause ans port group maybe fence).hdm = m.hdm := (deadLetter_logs _ _ _ _ _ _ _ _ _).part Mach.hdm fun _ _ _ => rfl
@[simp] theorem deadLetter_vppb (m : Mach) (now : Nat) (x : Msg) (cause : Nat) (ans : DlAnswer) (port group : Option Nat) (maybe : Bool) (fence : Postmark) : (deadLetter m now x cause ans port group maybe fence).vppb = m.vppb := (deadLetter_logs _ _ _ _ _ _ _ _ _).part Mach.vppb fun _ _ _ => rfl
@[simp] theorem deadLetter_pmReqs (m : Mach) (now : Nat) (x : Msg) (cause : Nat) (ans : DlAnswer) (port group : Option Nat) (maybe : Bool) (fence : Postmark) : (deadLetter m now x cause ans port group maybe fence).pmReqs = m.pmReqs := (deadLetter_logs _ _ _ _ _ _ _ _ _).part Mach.pmReqs fun _ _ _ => rfl
@[simp] theorem deadLetter_sched (m : Mach) (now : Nat) (x : Msg) (cause : Nat) (ans : DlAnswer) (port group : Option Nat) (maybe : Bool) (fence : Postmark) : (deadLetter m now x cause ans port group maybe fence).sched = m.sched := (deadLetter_logs _ _ _ _ _ _ _ _ _).part Mach.sched fun _ _ _ => rfl
@[simp] theorem deadLetter_ports (m : Mach) (now : Nat) (x : Msg) (cause : Nat) (ans : DlAnswer) (port group : Option Nat) (maybe : Bool) (fence : Postmark) : (deadLetter m now x cause ans port group maybe fence).ports = m.ports := (deadLetter_logs _ _ _ _ _ _ _ _ _).part Mach.ports fun _ _ _ => rfl
@[simp] theorem deadLetter_courier (m : Mach) (now : Nat) (x : Msg) (cause : Nat) (ans : DlAnswer) (port group : Option Nat) (maybe : Bool) (fence : Postmark) : (deadLetter m now x cause ans port group maybe fence).courier = m.courier := (deadLetter_logs _ _ _ _ _ _ _ _ _).part Mach.courier fun _ _ _ => rfl
@[simp] theorem deadLetter_pmu (m : Mach) (now : Nat) (x : Msg) (cause : Nat) (ans : DlAnswer) (port group : Option Nat) (maybe : Bool) (fence : Postmark) : (deadLetter m now x cause ans port group maybe fence).pmu = m.pmu := (deadLetter_logs _ _ _ _ _ _ _ _ _).part Mach.pmu fun _ _ _ => rfl
@[simp] theorem deadLetter_amd (m : Mach) (now : Nat) (x : Msg) (cause : Nat) (ans : DlAnswer) (port group : Option Nat) (maybe : Bool) (fence : Postmark) : (deadLetter m now x cause ans port group maybe fence).amd = m.amd := (deadLetter_logs _ _ _ _ _ _ _ _ _).part Mach.amd fun _ _ _ => rfl
@[simp] theorem deadLetter_ten (m : Mach) (now : Nat) (x : Msg) (cause : Nat) (ans : DlAnswer) (port group : Option Nat) (maybe : Bool) (fence : Postmark) : (deadLetter m now x cause ans port group maybe fence).ten = m.ten := (deadLetter_logs _ _ _ _ _ _ _ _ _).part Mach.ten fun _ _ _ => rfl
@[simp] theorem deadLetter_replies (m : Mach) (now : Nat) (x : Msg) (cause : Nat) (ans : DlAnswer) (port group : Option Nat) (maybe : Bool) (fence : Postmark) : (deadLetter m now x cause ans port group maybe fence).replies = m.replies := (deadLetter_logs _ _ _ _ _ _ _ _ _).part Mach.replies fun _ _ _ => rfl
@[simp] theorem deadLetter_cci (m : Mach) (now : Nat) (x : Msg) (cause : Nat) (ans : DlAnswer) (port group : Option Nat) (maybe : Bool) (fence : Postmark) : (deadLetter m now x cause ans port group maybe fence).cci = m.cci := (deadLetter_logs _ _ _ _ _ _ _ _ _).part Mach.cci fun _ _ _ => rfl
@[simp] theorem deadLetter_brumin (m : Mach) (now : Nat) (x : Msg) (cause : Nat) (ans : DlAnswer) (port group : Option Nat) (maybe : Bool) (fence : Postmark) : (deadLetter m now x cause ans port group maybe fence).brumin = m.brumin := (deadLetter_logs _ _ _ _ _ _ _ _ _).part Mach.brumin fun _ _ _ => rfl
@[simp] theorem deadLetter_load (m : Mach) (now : Nat) (x : Msg) (cause : Nat) (ans : DlAnswer) (port group : Option Nat) (maybe : Bool) (fence : Postmark) : (deadLetter m now x cause ans port group maybe fence).load = m.load := (deadLetter_logs _ _ _ _ _ _ _ _ _).part Mach.load fun _ _ _ => rfl
@[simp] theorem deadLetter_fw (m : Mach) (now : Nat) (x : Msg) (cause : Nat) (ans : DlAnswer) (port group : Option Nat) (maybe : Bool) (fence : Postmark) : (deadLetter m now x cause ans port group maybe fence).fw = m.fw := (deadLetter_logs _ _ _ _ _ _ _ _ _).part Mach.fw fun _ _ _ => rfl
@[simp] theorem deadLetter_sec (m : Mach) (now : Nat) (x : Msg) (cause : Nat) (ans : DlAnswer) (port group : Option Nat) (maybe : Bool) (fence : Postmark) : (deadLetter m now x cause ans port group maybe fence).sec = m.sec := (deadLetter_logs _ _ _ _ _ _ _ _ _).part Mach.sec fun _ _ _ => rfl
@[simp] theorem deadLetter_inl (m : Mach) (now : Nat) (x : Msg) (cause : Nat) (ans : DlAnswer) (port group : Option Nat) (maybe : Bool) (fence : Postmark) : (deadLetter m now x cause ans port group maybe fence).inl = m.inl := (deadLetter_logs _ _ _ _ _ _ _ _ _).part Mach.inl fun _ _ _ => rfl
@[simp] theorem deadLetter_resets (m : Mach) (now : Nat) (x : Msg) (cause : Nat) (ans : DlAnswer) (port group : Option Nat) (maybe : Bool) (fence : Postmark) : (deadLetter m now x cause ans port group maybe fence).resets = m.resets := (deadLetter_logs _ _ _ _ _ _ _ _ _).part Mach.resets fun _ _ _ => rfl
@[simp] theorem deadLetter_boot (m : Mach) (now : Nat) (x : Msg) (cause : Nat) (ans : DlAnswer) (port group : Option Nat) (maybe : Bool) (fence : Postmark) : (deadLetter m now x cause ans port group maybe fence).boot = m.boot := (deadLetter_logs _ _ _ _ _ _ _ _ _).part Mach.boot fun _ _ _ => rfl
@[simp] theorem deadLetter_step8 (m : Mach) (now : Nat) (x : Msg) (cause : Nat) (ans : DlAnswer) (port group : Option Nat) (maybe : Bool) (fence : Postmark) : (deadLetter m now x cause ans port group maybe fence).step8 = m.step8 := (deadLetter_logs _ _ _ _ _ _ _ _ _).part Mach.step8 fun _ _ _ => rfl
@[simp] theorem deadLetter_sram (m : Mach) (now : Nat) (x : Msg) (cause : Nat) (ans : DlAnswer) (port group : Option Nat) (maybe : Bool) (fence : Postmark) : (deadLetter m now x cause ans port group maybe fence).sram = m.sram := (deadLetter_logs _ _ _ _ _ _ _ _ _).part Mach.sram fun _ _ _ => rfl
@[simp] theorem deadLetter_sensed (m : Mach) (now : Nat) (x : Msg) (cause : Nat) (ans : DlAnswer) (port group : Option Nat) (maybe : Bool) (fence : Postmark) : (deadLetter m now x cause ans port group maybe fence).sensed = m.sensed := (deadLetter_logs _ _ _ _ _ _ _ _ _).part Mach.sensed fun _ _ _ => rfl
@[simp] theorem deadLetter_i3cAddr (m : Mach) (now : Nat) (x : Msg) (cause : Nat) (ans : DlAnswer) (port group : Option Nat) (maybe : Bool) (fence : Postmark) : (deadLetter m now x cause ans port group maybe fence).i3cAddr = m.i3cAddr := (deadLetter_logs _ _ _ _ _ _ _ _ _).part Mach.i3cAddr fun _ _ _ => rfl
@[simp] theorem deadLetter_eids (m : Mach) (now : Nat) (x : Msg) (cause : Nat) (ans : DlAnswer) (port group : Option Nat) (maybe : Bool) (fence : Postmark) : (deadLetter m now x cause ans port group maybe fence).eids = m.eids := (deadLetter_logs _ _ _ _ _ _ _ _ _).part Mach.eids fun _ _ _ => rfl
@[simp] theorem deadLetter_tids (m : Mach) (now : Nat) (x : Msg) (cause : Nat) (ans : DlAnswer) (port group : Option Nat) (maybe : Bool) (fence : Postmark) : (deadLetter m now x cause ans port group maybe fence).tids = m.tids := (deadLetter_logs _ _ _ _ _ _ _ _ _).part Mach.tids fun _ _ _ => rfl

@[simp] theorem opEnded_free (m : Mach) (now block : Nat) (w : Word) : (opEnded m now block w).free = m.free := (opEnded_logs _ _ _ _).part Mach.free fun _ _ _ => rfl
@[simp] theorem opEnded_sof (m : Mach) (now block : Nat) (w : Word) : (opEnded m now block w).sof = m.sof := (opEnded_logs _ _ _ _).part Mach.sof fun _ _ _ => rfl
@[simp] theorem opEnded_home (m : Mach) (now block : Nat) (w : Word) : (opEnded m now block w).home = m.home := (opEnded_logs _ _ _ _).part Mach.home fun _ _ _ => rfl
@[simp] theorem opEnded_eng (m : Mach) (now block : Nat) (w : Word) : (opEnded m now block w).eng = m.eng := (opEnded_logs _ _ _ _).part Mach.eng fun _ _ _ => rfl
@[simp] theorem opEnded_hdm (m : Mach) (now block : Nat) (w : Word) : (opEnded m now block w).hdm = m.hdm := (opEnded_logs _ _ _ _).part Mach.hdm fun _ _ _ => rfl
@[simp] theorem opEnded_vppb (m : Mach) (now block : Nat) (w : Word) : (opEnded m now block w).vppb = m.vppb := (opEnded_logs _ _ _ _).part Mach.vppb fun _ _ _ => rfl
@[simp] theorem opEnded_pmReqs (m : Mach) (now block : Nat) (w : Word) : (opEnded m now block w).pmReqs = m.pmReqs := (opEnded_logs _ _ _ _).part Mach.pmReqs fun _ _ _ => rfl
@[simp] theorem opEnded_sched (m : Mach) (now block : Nat) (w : Word) : (opEnded m now block w).sched = m.sched := (opEnded_logs _ _ _ _).part Mach.sched fun _ _ _ => rfl
@[simp] theorem opEnded_ports (m : Mach) (now block : Nat) (w : Word) : (opEnded m now block w).ports = m.ports := (opEnded_logs _ _ _ _).part Mach.ports fun _ _ _ => rfl
@[simp] theorem opEnded_courier (m : Mach) (now block : Nat) (w : Word) : (opEnded m now block w).courier = m.courier := (opEnded_logs _ _ _ _).part Mach.courier fun _ _ _ => rfl
@[simp] theorem opEnded_pmu (m : Mach) (now block : Nat) (w : Word) : (opEnded m now block w).pmu = m.pmu := (opEnded_logs _ _ _ _).part Mach.pmu fun _ _ _ => rfl
@[simp] theorem opEnded_amd (m : Mach) (now block : Nat) (w : Word) : (opEnded m now block w).amd = m.amd := (opEnded_logs _ _ _ _).part Mach.amd fun _ _ _ => rfl
@[simp] theorem opEnded_ten (m : Mach) (now block : Nat) (w : Word) : (opEnded m now block w).ten = m.ten := (opEnded_logs _ _ _ _).part Mach.ten fun _ _ _ => rfl
@[simp] theorem opEnded_replies (m : Mach) (now block : Nat) (w : Word) : (opEnded m now block w).replies = m.replies := (opEnded_logs _ _ _ _).part Mach.replies fun _ _ _ => rfl
@[simp] theorem opEnded_cci (m : Mach) (now block : Nat) (w : Word) : (opEnded m now block w).cci = m.cci := (opEnded_logs _ _ _ _).part Mach.cci fun _ _ _ => rfl
@[simp] theorem opEnded_brumin (m : Mach) (now block : Nat) (w : Word) : (opEnded m now block w).brumin = m.brumin := (opEnded_logs _ _ _ _).part Mach.brumin fun _ _ _ => rfl
@[simp] theorem opEnded_load (m : Mach) (now block : Nat) (w : Word) : (opEnded m now block w).load = m.load := (opEnded_logs _ _ _ _).part Mach.load fun _ _ _ => rfl
@[simp] theorem opEnded_fw (m : Mach) (now block : Nat) (w : Word) : (opEnded m now block w).fw = m.fw := (opEnded_logs _ _ _ _).part Mach.fw fun _ _ _ => rfl
@[simp] theorem opEnded_sec (m : Mach) (now block : Nat) (w : Word) : (opEnded m now block w).sec = m.sec := (opEnded_logs _ _ _ _).part Mach.sec fun _ _ _ => rfl
@[simp] theorem opEnded_inl (m : Mach) (now block : Nat) (w : Word) : (opEnded m now block w).inl = m.inl := (opEnded_logs _ _ _ _).part Mach.inl fun _ _ _ => rfl
@[simp] theorem opEnded_resets (m : Mach) (now block : Nat) (w : Word) : (opEnded m now block w).resets = m.resets := (opEnded_logs _ _ _ _).part Mach.resets fun _ _ _ => rfl
@[simp] theorem opEnded_boot (m : Mach) (now block : Nat) (w : Word) : (opEnded m now block w).boot = m.boot := (opEnded_logs _ _ _ _).part Mach.boot fun _ _ _ => rfl
@[simp] theorem opEnded_step8 (m : Mach) (now block : Nat) (w : Word) : (opEnded m now block w).step8 = m.step8 := (opEnded_logs _ _ _ _).part Mach.step8 fun _ _ _ => rfl
@[simp] theorem opEnded_sram (m : Mach) (now block : Nat) (w : Word) : (opEnded m now block w).sram = m.sram := (opEnded_logs _ _ _ _).part Mach.sram fun _ _ _ => rfl
@[simp] theorem opEnded_sensed (m : Mach) (now block : Nat) (w : Word) : (opEnded m now block w).sensed = m.sensed := (opEnded_logs _ _ _ _).part Mach.sensed fun _ _ _ => rfl
@[simp] theorem opEnded_i3cAddr (m : Mach) (now block : Nat) (w : Word) : (opEnded m now block w).i3cAddr = m.i3cAddr := (opEnded_logs _ _ _ _).part Mach.i3cAddr fun _ _ _ => rfl
@[simp] theorem opEnded_eids (m : Mach) (now block : Nat) (w : Word) : (opEnded m now block w).eids = m.eids := (opEnded_logs _ _ _ _).part Mach.eids fun _ _ _ => rfl
@[simp] theorem opEnded_tids (m : Mach) (now block : Nat) (w : Word) : (opEnded m now block w).tids = m.tids := (opEnded_logs _ _ _ _).part Mach.tids fun _ _ _ => rfl

@[simp] theorem wmAll_free (m : Mach) (now : Nat) : (wmAll now m).free = m.free := (wmAll_watch _ _).part Mach.free fun _ _ _ => rfl
@[simp] theorem wmAll_sof (m : Mach) (now : Nat) : (wmAll now m).sof = m.sof := (wmAll_watch _ _).part Mach.sof fun _ _ _ => rfl
@[simp] theorem wmAll_home (m : Mach) (now : Nat) : (wmAll now m).home = m.home := (wmAll_watch _ _).part Mach.home fun _ _ _ => rfl
@[simp] theorem wmAll_eng (m : Mach) (now : Nat) : (wmAll now m).eng = m.eng := (wmAll_watch _ _).part Mach.eng fun _ _ _ => rfl
@[simp] theorem wmAll_hdm (m : Mach) (now : Nat) : (wmAll now m).hdm = m.hdm := (wmAll_watch _ _).part Mach.hdm fun _ _ _ => rfl
@[simp] theorem wmAll_vppb (m : Mach) (now : Nat) : (wmAll now m).vppb = m.vppb := (wmAll_watch _ _).part Mach.vppb fun _ _ _ => rfl
@[simp] theorem wmAll_pmReqs (m : Mach) (now : Nat) : (wmAll now m).pmReqs = m.pmReqs := (wmAll_watch _ _).part Mach.pmReqs fun _ _ _ => rfl
@[simp] theorem wmAll_sched (m : Mach) (now : Nat) : (wmAll now m).sched = m.sched := (wmAll_watch _ _).part Mach.sched fun _ _ _ => rfl
@[simp] theorem wmAll_ports (m : Mach) (now : Nat) : (wmAll now m).ports = m.ports := (wmAll_watch _ _).part Mach.ports fun _ _ _ => rfl
@[simp] theorem wmAll_courier (m : Mach) (now : Nat) : (wmAll now m).courier = m.courier := (wmAll_watch _ _).part Mach.courier fun _ _ _ => rfl
@[simp] theorem wmAll_pmu (m : Mach) (now : Nat) : (wmAll now m).pmu = m.pmu := (wmAll_watch _ _).part Mach.pmu fun _ _ _ => rfl
@[simp] theorem wmAll_amd (m : Mach) (now : Nat) : (wmAll now m).amd = m.amd := (wmAll_watch _ _).part Mach.amd fun _ _ _ => rfl
@[simp] theorem wmAll_ten (m : Mach) (now : Nat) : (wmAll now m).ten = m.ten := (wmAll_watch _ _).part Mach.ten fun _ _ _ => rfl
@[simp] theorem wmAll_replies (m : Mach) (now : Nat) : (wmAll now m).replies = m.replies := (wmAll_watch _ _).part Mach.replies fun _ _ _ => rfl
@[simp] theorem wmAll_cci (m : Mach) (now : Nat) : (wmAll now m).cci = m.cci := (wmAll_watch _ _).part Mach.cci fun _ _ _ => rfl
@[simp] theorem wmAll_brumin (m : Mach) (now : Nat) : (wmAll now m).brumin = m.brumin := (wmAll_watch _ _).part Mach.brumin fun _ _ _ => rfl
@[simp] theorem wmAll_load (m : Mach) (now : Nat) : (wmAll now m).load = m.load := (wmAll_watch _ _).part Mach.load fun _ _ _ => rfl
@[simp] theorem wmAll_fw (m : Mach) (now : Nat) : (wmAll now m).fw = m.fw := (wmAll_watch _ _).part Mach.fw fun _ _ _ => rfl
@[simp] theorem wmAll_sec (m : Mach) (now : Nat) : (wmAll now m).sec = m.sec := (wmAll_watch _ _).part Mach.sec fun _ _ _ => rfl
@[simp] theorem wmAll_inl (m : Mach) (now : Nat) : (wmAll now m).inl = m.inl := (wmAll_watch _ _).part Mach.inl fun _ _ _ => rfl
@[simp] theorem wmAll_resets (m : Mach) (now : Nat) : (wmAll now m).resets = m.resets := (wmAll_watch _ _).part Mach.resets fun _ _ _ => rfl
@[simp] theorem wmAll_boot (m : Mach) (now : Nat) : (wmAll now m).boot = m.boot := (wmAll_watch _ _).part Mach.boot fun _ _ _ => rfl
@[simp] theorem wmAll_step8 (m : Mach) (now : Nat) : (wmAll now m).step8 = m.step8 := (wmAll_watch _ _).part Mach.step8 fun _ _ _ => rfl
@[simp] theorem wmAll_sram (m : Mach) (now : Nat) : (wmAll now m).sram = m.sram := (wmAll_watch _ _).part Mach.sram fun _ _ _ => rfl
@[simp] theorem wmAll_sensed (m : Mach) (now : Nat) : (wmAll now m).sensed = m.sensed := (wmAll_watch _ _).part Mach.sensed fun _ _ _ => rfl
@[simp] theorem wmAll_i3cAddr (m : Mach) (now : Nat) : (wmAll now m).i3cAddr = m.i3cAddr := (wmAll_watch _ _).part Mach.i3cAddr fun _ _ _ => rfl
@[simp] theorem wmAll_eids (m : Mach) (now : Nat) : (wmAll now m).eids = m.eids := (wmAll_watch _ _).part Mach.eids fun _ _ _ => rfl
@[simp] theorem wmAll_tids (m : Mach) (now : Nat) : (wmAll now m).tids = m.tids := (wmAll_watch _ _).part Mach.tids fun _ _ _ => rfl

/-! ### What a register reads as after them -/

theorem rd_event (m : Mach) (now type sev inst : Nat) (pm : Postmark) (detail : Nat) (r : RegDef) (ix : List Nat) (h : (isReg logRegs) (regAddr r ix) = false) :
    rd (event m now type sev inst pm detail) r ix = rd m r ix := (event_logs _ _ _ _ _ _ _).rd _ _ h

theorem gf_event (m : Mach) (now type sev inst : Nat) (pm : Postmark) (detail : Nat) (f : FieldRef) (ix : List Nat) (h : (isReg logRegs) (regAddr f.reg ix) = false) :
    gf (event m now type sev inst pm detail) f ix = gf m f ix := (event_logs _ _ _ _ _ _ _).gf _ _ h

theorem rd_rasLog (m : Mach) (now kind sev inst : Nat) (pm : Postmark) (addr world sg src d0 d1 : Nat) (r : RegDef) (ix : List Nat) (h : (isReg logRegs) (regAddr r ix) = false) :
    rd (rasLog m now kind sev inst pm addr world sg src d0 d1) r ix = rd m r ix := (rasLog_logs _ _ _ _ _ _ _ _ _ _ _ _).rd _ _ h

theorem gf_rasLog (m : Mach) (now kind sev inst : Nat) (pm : Postmark) (addr world sg src d0 d1 : Nat) (f : FieldRef) (ix : List Nat) (h : (isReg logRegs) (regAddr f.reg ix) = false) :
    gf (rasLog m now kind sev inst pm addr world sg src d0 d1) f ix = gf m f ix := (rasLog_logs _ _ _ _ _ _ _ _ _ _ _ _).gf _ _ h

theorem rd_deadLetter (m : Mach) (now : Nat) (x : Msg) (cause : Nat) (ans : DlAnswer) (port group : Option Nat) (maybe : Bool) (fence : Postmark) (r : RegDef) (ix : List Nat) (h : (isReg logRegs) (regAddr r ix) = false) :
    rd (deadLetter m now x cause ans port group maybe fence) r ix = rd m r ix := (deadLetter_logs _ _ _ _ _ _ _ _ _).rd _ _ h

theorem gf_deadLetter (m : Mach) (now : Nat) (x : Msg) (cause : Nat) (ans : DlAnswer) (port group : Option Nat) (maybe : Bool) (fence : Postmark) (f : FieldRef) (ix : List Nat) (h : (isReg logRegs) (regAddr f.reg ix) = false) :
    gf (deadLetter m now x cause ans port group maybe fence) f ix = gf m f ix := (deadLetter_logs _ _ _ _ _ _ _ _ _).gf _ _ h

theorem rd_opEnded (m : Mach) (now block : Nat) (w : Word) (r : RegDef) (ix : List Nat) (h : (isReg logRegs) (regAddr r ix) = false) :
    rd (opEnded m now block w) r ix = rd m r ix := (opEnded_logs _ _ _ _).rd _ _ h

theorem gf_opEnded (m : Mach) (now block : Nat) (w : Word) (f : FieldRef) (ix : List Nat) (h : (isReg logRegs) (regAddr f.reg ix) = false) :
    gf (opEnded m now block w) f ix = gf m f ix := (opEnded_logs _ _ _ _).gf _ _ h

theorem rd_wmAll (m : Mach) (now : Nat) (r : RegDef) (ix : List Nat) (h : (isReg watchRegs) (regAddr r ix) = false) :
    rd (wmAll now m) r ix = rd m r ix := (wmAll_watch _ _).rd _ _ h

theorem gf_wmAll (m : Mach) (now : Nat) (f : FieldRef) (ix : List Nat) (h : (isReg watchRegs) (regAddr f.reg ix) = false) :
    gf (wmAll now m) f ix = gf m f ix := (wmAll_watch _ _).gf _ _ h

end Sys2Proof.Machine
end

