-- ==== Sys2Proof/Laws/Frame.lean ====
section
/-!
SUPPORT. How frames compose, and the frames of the operations that every family shares.
-/

namespace Sys2Proof.Machine
open Sys2Proof

theorem RegsKept.refl (q : Nat → Bool) (a : Mach) : RegsKept q a a := fun _ _ _ => rfl

theorem RegsKept.trans {q : Nat → Bool} {a b c : Mach} (h : RegsKept q a b) (k : RegsKept q b c) : RegsKept q a c :=
  fun d i hi => (k d i hi).trans (h d i hi)

theorem RegsKept.mono {q r : Nat → Bool} {a b : Mach} (h : RegsKept q a b) (hr : ∀ i, r i = false → q i = false) : RegsKept r a b :=
  fun d i hi => h d i (hr i hi)

theorem RegsKept.ofEq (q : Nat → Bool) {a b : Mach} (h : b.regs = a.regs) : RegsKept q a b := fun d i _ => by rw [h]

theorem RegsKept.ofWr (q : Nat → Bool) (m : Mach) (r : RegDef) (ix : List Nat) (w : Word) (h : q (regAddr r ix) = true) :
    RegsKept q m (wr m r ix w) := by
  intro d i hi
  exact tget_tset_other _ _ _ _ (by intro e; rw [← e, h] at hi; cases hi)

theorem RegsKept.ofSf (q : Nat → Bool) (m : Mach) (f : FieldRef) (ix : List Nat) (v : Nat) (h : q (regAddr f.reg ix) = true) :
    RegsKept q m (sf m f ix v) := RegsKept.ofWr q m f.reg ix _ h

theorem RegsKept.ofAck (q : Nat → Bool) (m : Mach) (f : FieldRef) (ix : List Nat) (h : q (regAddr f.reg ix) = true) :
    RegsKept q m (ackEvent m f ix) := RegsKept.ofWr q m f.reg ix _ h

theorem RegsKept.ofLog {p q : Nat → Bool} {a b : Mach} (h : LogFrame p a b) (hq : ∀ i, q i = false → p i = false) : RegsKept q a b :=
  fun d i hi => h.reg d i (hq i hi)

theorem Part.same_refl (s : State) (p : Part) : p.same s s := by cases p <;> simp [Part.same]

theorem Part.same_trans {s t u : State} (p : Part) (h : p.same s t) (k : p.same t u) : p.same s u := by
  cases p <;> simp_all [Part.same]

theorem Frame.refl (ps : List Part) (q : Nat → Bool) (s : State) : Frame ps q s s := ⟨fun p _ => Part.same_refl s p, RegsKept.refl _ _⟩

theorem Frame.trans {ps : List Part} {q : Nat → Bool} {s t u : State} (h : Frame ps q s t) (k : Frame ps q t u) : Frame ps q s u :=
  ⟨fun p hp => Part.same_trans p (h.1 p hp) (k.1 p hp), h.2.trans k.2⟩

theorem Frame.mono {ps qs : List Part} {q r : Nat → Bool} {s t : State} (h : Frame ps q s t) (hp : ∀ p ∈ ps, p ∈ qs)
    (hr : ∀ i, r i = false → q i = false) : Frame qs r s t :=
  ⟨fun p hq => h.1 p (fun e => hq (hp p e)), h.2.mono hr⟩

/-- What the monitors do beside a command's own effect: the logs and their registers. -/
theorem Frame.ofWatch {ps : List Part} {q : Nat → Bool} (s : State) {b : Mach} (h : LogFrame (isReg watchRegs) s.m b)
    (hp : Part.logs ∈ ps) (hq : ∀ i, q i = false → isReg watchRegs i = false) : Frame ps q s { s with m := b } := by
  refine ⟨?_, fun d i hi => h.reg d i (hq i hi)⟩
  intro p hn
  rw [h.eq]
  cases p <;> first | exact absurd hp hn | simp [Part.same]

theorem isReg_self (r : RegDef) (ix : List Nat) : isReg [(r, ix)] (regAddr r ix) = true := by simp [isReg]

theorem isReg_false_of_append_left {p q : List (RegDef × List Nat)} {i : Nat} (h : isReg (p ++ q) i = false) : isReg p i = false := by
  rw [isReg_append, Bool.or_eq_false_iff] at h; exact h.1

theorem isReg_false_of_append_right {p q : List (RegDef × List Nat)} {i : Nat} (h : isReg (p ++ q) i = false) : isReg q i = false := by
  rw [isReg_append, Bool.or_eq_false_iff] at h; exact h.2

end Sys2Proof.Machine
end

