-- ==== Sys2Proof/Laws/Inlet.lean ====
section
/-!
SUPPORT. What the operations of the inlet guard leave: the gate turned off, the main path down, a trip.
-/

namespace Sys2Proof.Machine
open Sys2Proof

@[simp] theorem showGuard_inl (m : Mach) : (showGuard m).inl = m.inl := by simp [showGuard]
theorem showGuard_state (m : Mach) : gf (showGuard m) F.INL_STATUS_STATE [] = guardState m.inl % 16 := by
  rw [showGuard, gf_sf_same _ _ _ _ (by decide) (by decide)]; rfl
/-- In the steps of R409 nothing holds the guard off. -/
theorem guardState_step {g : Inl} {k : Nat} (h : guardState g = 1 + k) (hk : k ≤ 3) : g.latched = false ∧ g.en = true ∧ g.lockout = 0 ∧ g.gate = k := by
  simp only [guardState] at h
  split at h
  · omega
  · split at h
    · omega
    · split at h
      · simp_all; omega
      · simp_all
theorem showGuard_frame (s : State) (g : Inl) :
    Frame [.inl] (isReg [(Reg.INL_STATUS, [])]) s { s with m := showGuard { s.m with inl := g } } := by
  refine ⟨?_, ?_⟩
  · intro p hp; cases p <;> simp_all [Part.same, showGuard]
  · exact RegsKept.ofSf _ { s.m with inl := g } F.INL_STATUS_STATE [] _ (isReg_self _ _)

/-! ### The gate turned off -/
theorem tget_filter (d : Word) (t : Table Word) (p : Nat × Word → Bool) (i : Nat) (h : ∀ v, p (i, v) = true) :
    tget d (t.filter p) i = tget d t i := by
  induction t with
  | nil => rfl
  | cons x t ih =>
    obtain ⟨k, w⟩ := x
    by_cases hk : k = i
    · subst hk; simp [h, tget]
    · by_cases hp : p (k, w) = true
      · simp [hp, tget, hk, ih]
      · simp [hp, tget, hk, ih]

theorem mainPathDown_rd (m : Mach) (r : RegDef) (ix : List Nat) (h : regAddr r ix < 0x1000000)
    (h1 : regAddr Reg.INL_PD_STATUS [] ≠ regAddr r ix) (h2 : regAddr Reg.GLB_STATUS [] ≠ regAddr r ix) :
    rd (mainPathDown m) r ix = rd m r ix := by
  unfold mainPathDown
  rw [rd_sf_other _ _ _ _ _ _ h2]
  refine (tget_tset_other _ _ _ _ h1).trans ?_
  apply tget_filter
  intro v
  simp; omega


@[simp] theorem gf_modInl (m : Mach) (g : Inl → Inl) (f : FieldRef) (ix : List Nat) : gf (modInl m g) f ix = gf m f ix := gf_congr rfl f ix
theorem mainPathDown_gf (m : Mach) (f : FieldRef) (ix : List Nat) (h : regAddr f.reg ix < 0x1000000)
    (h1 : regAddr Reg.INL_PD_STATUS [] ≠ regAddr f.reg ix) (h2 : regAddr Reg.GLB_STATUS [] ≠ regAddr f.reg ix) :
    gf (mainPathDown m) f ix = gf m f ix := by rw [gf, gf, mainPathDown_rd _ _ _ h h1 h2]
theorem endPrecharge_regs (m : Mach) (up e : Nat) : (endPrecharge m up e).regs = m.regs := by
  unfold endPrecharge modInl; split <;> rfl
theorem setLimit_gf (m : Mach) (up : Nat) (on : Bool) (f : FieldRef) (hr : f.reg = Reg.INL_STATUS)
    (hd : f.hi < 58 ∨ 58 < f.lo) : gf (setLimit m up on) f [] = gf m f [] := by
  unfold setLimit
  rw [gf_sf_field _ F.INL_STATUS_LIMIT f [] _ hr (by decide) (by decide) hd]
  rw [gf_modInl]
theorem gateOff_gf (m : Mach) (up e : Nat) (f : FieldRef) (hr : f.reg = Reg.INL_STATUS)
    (hd : f.hi < 58 ∨ 59 < f.lo) : gf (gateOff m up e) f [] = gf m f [] := by
  have hrr : regAddr f.reg [] = regAddr Reg.INL_STATUS [] := by rw [hr]
  have key : gf (sf (modInl (setLimit (endPrecharge m up e) up false) (fun g => { g with gate := 0, since := up })) F.INL_STATUS_PWRGD [] 0) f [] = gf m f [] := by
    rw [gf_sf_field _ F.INL_STATUS_PWRGD f [] _ hr (by decide) (by decide) (by simp only [F.INL_STATUS_PWRGD]; omega)]
    rw [gf_modInl, setLimit_gf (endPrecharge m up e) up false f hr (by omega)]
    exact gf_congr (endPrecharge_regs _ _ _) f []
  simp only [gateOff]
  split
  · rw [mainPathDown_gf _ _ _ (by rw [hrr]; decide) (by rw [hrr]; decide) (by rw [hrr]; decide)]; exact key
  · exact key
theorem gateOff_pwrgd (m : Mach) (up e : Nat) : gf (gateOff m up e) F.INL_STATUS_PWRGD [] = 0 := by
  simp only [gateOff]
  split
  · rw [mainPathDown_gf _ _ _ (by decide) (by decide) (by decide), gf_sf_same _ _ _ _ (by decide) (by decide)]; rfl
  · rw [gf_sf_same _ _ _ _ (by decide) (by decide)]; rfl
theorem mainPathDown_inl (m : Mach) : (mainPathDown m).inl = { m.inl with lost := true } := by
  simp [mainPathDown]
theorem endPrecharge_inl (m : Mach) (up e : Nat) : (endPrecharge m up e).inl =
   if m.inl.gate == 1 then { m.inl with heat := m.inl.heat + max 220 e * 8000000000, heatAt := up } else m.inl := by
  unfold endPrecharge modInl; split <;> rfl
theorem gateOff_inl (m : Mach) (up e : Nat) : (gateOff m up e).inl.gate = 0 ∧ (gateOff m up e).inl.latched = m.inl.latched ∧
    (gateOff m up e).inl.en = m.inl.en ∧ (gateOff m up e).inl.lockout = m.inl.lockout ∧ (gateOff m up e).inl.faultN = m.inl.faultN ∧ (gateOff m up e).inl.thermN = m.inl.thermN ∧ (gateOff m up e).inl.on = m.inl.on := by
  have h : ∃ a b c d ee, (gateOff m up e).inl = { (endPrecharge m up e).inl with gate := a, since := b, timer := c, timerAt := d, lost := ee } ∧ a = 0 := by
    simp only [gateOff]
    split
    · rw [mainPathDown_inl]; simp only [modInl, setLimit, sf_inl]; exact ⟨_, _, _, _, _, rfl, rfl⟩
    · simp only [modInl, setLimit, sf_inl]; exact ⟨_, _, _, _, _, rfl, rfl⟩
  obtain ⟨a, b, c, d, ee, h, h0⟩ := h
  rw [h, endPrecharge_inl]
  split <;> simp [h0]



/-! ### Trips -/

theorem bitAt_eq_testBit (n k : Nat) : bitAt n k = n.testBit k := by
  rw [bitAt, bitsOf_eq, show k + 1 - k = 1 by omega, Nat.pow_one, Nat.testBit_eq_decide_div_mod_eq]
  by_cases h : n / 2 ^ k % 2 = 1 <;> simp [h]

theorem bitAt_or_pow (n k w : Nat) (h : k < w) : bitAt ((n ||| 2 ^ k) % 2 ^ w) k = true := by
  rw [bitAt_eq_testBit, Nat.testBit_mod_two_pow, Nat.testBit_or, Nat.testBit_two_pow_self]
  simp [h]

/-- A tripped guard stays so through log entries, events and the monitors. -/
theorem GuardTripped.ofLog {k : Nat} {s t : State} (h : GuardTripped k s) (f : LogFrame (isReg watchRegs) s.m t.m) : GuardTripped k t := by
  obtain ⟨a, b, c, d, e, g⟩ := h
  have hi := f.part Mach.inl fun _ _ _ => rfl
  refine ⟨hi ▸ a, hi ▸ b, hi ▸ c, ?_, ?_, ?_⟩
  · rw [f.gf _ _ (by decide)]; exact d
  · rw [f.gf _ _ (by decide)]; exact e
  · rw [f.gf _ _ (by decide)]; exact g

theorem rasLog_watch (m : Mach) (now kind sev inst : Nat) (pm : Postmark) (addr world sg src d0 d1 : Nat) :
    LogFrame (isReg watchRegs) m (rasLog m now kind sev inst pm addr world sg src d0 d1) :=
  (rasLog_logs _ _ _ _ _ _ _ _ _ _ _ _).mono isReg_logs_of_watch

theorem rasFatal_m (kind inst detail : Nat) (s : State) : LogFrame (isReg watchRegs) s.m (rasFatal kind inst detail s).m := rasLog_watch _ _ _ _ _ _ _ _ _ _ _ _

theorem latchOff_gate (c up e : Nat) (m : Mach) : ∃ m1, latchOff c up e m =
    showGuard (modInl (gateOff m1 up e)
      (fun g => { g with latched := true, tripAt := up, lost := true, faultN := true, thermN := g.thermN || bitAt c 5 })) := ⟨_, rfl⟩

theorem latchOff_inl (c up e : Nat) (m : Mach) : (latchOff c up e m).inl.latched = true ∧ (latchOff c up e m).inl.faultN = true ∧
    (latchOff c up e m).inl.gate = 0 ∧ (bitAt c 5 = true → (latchOff c up e m).inl.thermN = true) := by
  obtain ⟨m1, h⟩ := latchOff_gate c up e m
  rw [h]
  have hg := (gateOff_inl m1 up e).1
  clear h
  generalize gateOff m1 up e = m2 at hg ⊢
  simp only [showGuard_inl, modInl, hg, true_and]
  intro h
  rw [h, Bool.or_true]

theorem latchOff_state (c up e : Nat) (m : Mach) : gf (latchOff c up e m) F.INL_STATUS_STATE [] = 5 := by
  obtain ⟨m1, h⟩ := latchOff_gate c up e m
  rw [h, showGuard_state]
  generalize gateOff m1 up e = m2
  simp [modInl, guardState]

theorem latchOff_pwrgd (c up e : Nat) (m : Mach) : gf (latchOff c up e m) F.INL_STATUS_PWRGD [] = 0 := by
  obtain ⟨m1, h⟩ := latchOff_gate c up e m
  rw [h, showGuard, gf_sf_field _ F.INL_STATUS_STATE F.INL_STATUS_PWRGD _ _ rfl (by decide) (by decide) (by decide), gf_modInl]
  exact gateOff_pwrgd m1 up e

theorem latchOff_causes (c up e : Nat) (m : Mach) : gf (latchOff c up e m) F.INL_STATUS_CAUSES [] = c % 2 ^ 6 := by
  unfold latchOff
  extract_lets low m1 m2
  rw [showGuard, gf_sf_field _ F.INL_STATUS_STATE F.INL_STATUS_CAUSES _ _ rfl (by decide) (by decide) (by decide), gf_modInl]
  simp only [m2]
  rw [gateOff_gf (ackEvent m1 F.INL_STATUS_TRIP) up e _ rfl (by decide)]
  rw [gf_ackEvent_field _ F.INL_STATUS_TRIP F.INL_STATUS_CAUSES _ rfl (by decide) (by decide) (by decide)]
  simp only [m1]
  rw [gf_sf_field _ F.INL_STATUS_CAUSE F.INL_STATUS_CAUSES _ _ rfl (by decide) (by decide) (by decide),
      gf_sf_same _ _ _ _ (by decide) (by decide)]
  rfl

/-- R418, R419: a trip with the cause of bit `k` latches the guard off; cause 6 pulls THERM_TRIP_N low. -/
theorem trip_tripped (k e : Nat) (s : State) (hk : k < 6) (hon : s.m.inl.on = true) (hl : s.m.inl.latched = false) :
    GuardTripped k (trip (2 ^ k) e s) ∧ (k = 5 → (trip (2 ^ k) e s).m.inl.thermN = true) := by
  unfold trip
  rw [if_neg (by simp [hon, hl])]
  extract_lets now causes m1 s1 tj
  have hc : bitAt causes k = true := by
    have := bitAt_or_pow (causesNow s.m s.time.up) k (k + 1) (by omega)
    rw [bitAt_eq_testBit, Nat.testBit_mod_two_pow, Bool.and_eq_true] at this
    rw [bitAt_eq_testBit]
    exact this.2
  have g0 : GuardTripped k { s with m := m1 } ∧ (k = 5 → m1.inl.thermN = true) := by
    obtain ⟨a, b, c, d⟩ := latchOff_inl causes s.time.up e s.m
    refine ⟨⟨a, b, c, latchOff_state _ _ _ _, latchOff_pwrgd _ _ _ _, ?_⟩, fun h => d (h ▸ hc)⟩
    show bitAt (gf m1 F.INL_STATUS_CAUSES []) k = true
    simp only [m1]
    rw [latchOff_causes, bitAt_eq_testBit, Nat.testBit_mod_two_pow, ← bitAt_eq_testBit, hc]
    simp [hk]
  have h4 : LogFrame (isReg watchRegs) m1 (event m1 now 0x30 3 1 pmNone (guardDetail m1)) := event_watch _ _ _ _ _ _ _
  have h1 : LogFrame (isReg watchRegs) m1 s1.m := h4.trans (rasFatal_m _ _ _ { s with m := event m1 now 0x30 3 1 pmNone (guardDetail m1) })
  clear h4 hc
  clear_value s1 m1
  have done : ∀ x : State, LogFrame (isReg watchRegs) m1 x.m →
      GuardTripped k x ∧ (k = 5 → x.m.inl.thermN = true) := by
    intro x hx
    refine ⟨GuardTripped.ofLog g0.1 hx, fun h => ?_⟩
    have := g0.2 h
    rw [hx.part Mach.inl fun _ _ _ => rfl]
    exact this
  split
  · exact done _ ((h1.trans (event_watch s1.m now 0x31 3 3 pmNone tj)).trans
      (rasFatal_m 0x19 0 tj { s1 with m := event s1.m now 0x31 3 3 pmNone tj }))
  · exact done _ h1

end Sys2Proof.Machine
end

