-- ==== Sys2Proof/WellFormed.lean ====
section
/-!
DEFINITION. Which commands are well formed: every operand lies in the range that the spec gives what it names. The meanings do not
ask for it: a command with an operand outside its range finds nothing to act on.
-/

namespace Sys2Proof

/-- Ports 0 to 127 (chapter 01, R265). -/
def portOk (p : Nat) : Bool := decide (p < 128)

/-- Home slices HS0 to HS63 (chapter 01). -/
def sliceOk (s : Nat) : Bool := decide (s < 64)

/-- R218: FLDs 0 to 4,095. -/
def fldOk (f : Nat) : Bool := decide (f < 4096)

/-- R367: a ticket has 16 bits. -/
def ticketOk (t : Nat) : Bool := decide (t < 65536)

/-- R352, R362: an interface names a port, an FLD or a 48-bit address. -/
def ifaceOk : Iface → Bool
  | .fld f => fldOk f
  | .cci p => portOk p
  | .pcie p => portOk p
  | .i3c => true
  | .brumin mac _ => decide (mac < 2 ^ 48)
  | .doe p => portOk p
  | .courier p => portOk p

/-- R303: a session ID has 16 bits, a postcode 18. -/
def sessionOk (f : SessionFlit) : Bool := decide (f.id < 65536) && decide (f.postcode < 2 ^ 18)

/-- The command's operands lie in their ranges. -/
def Instr.wf : Instr → Bool
  | .ftmLoad who _ => ifaceOk who
  | .flitArrival p _ => portOk p
  | .slip src => decide (src < 147)
  | .blankLetter src _ => decide (src < 147)
  | .planeRetire n _ => decide (n < 4)
  | .sofPlaneRetire bits => decide (bits < 16)
  | .sofPlaneRestore bits => decide (bits < 16)
  | .planeSelfTestDone n _ => decide (n < 4)
  | .mailbagRefill q _ => decide (q < 4096)
  | .settleMessage q => decide (q < 4096)
  | .egressBegin p _ => portOk p
  | .messageLeaveDone p => portOk p
  | .flushDiscard ticket scope p mc sc => ticketOk ticket && decide (scope < 4) && portOk p && decide (mc < 8) && decide (sc < 4)
  | .flushError ticket scope p mc sc => ticketOk ticket && decide (scope < 4) && portOk p && decide (mc < 8) && decide (sc < 4)
  | .flushAct q => decide (q < 4096)
  | .classStall p c => portOk p && decide (c < 8)
  | .devloadWindowEnd f => fldOk f
  | .applyBirsp s => sliceOk s
  | .applyMemberResponse s => sliceOk s
  | .confirmMemRd s _ => sliceOk s
  | .confirmMemInv s _ => sliceOk s
  | .confirmMemSpecRd s => sliceOk s
  | .confirmMemClnEvct s _ => sliceOk s
  | .confirmBiConflict s => sliceOk s
  | .confirmWriteback s _ => sliceOk s
  | .confirmNoncachingWrite s _ => sliceOk s
  | .confirmNoncachingRead s _ => sliceOk s
  | .confirmFarAtomic s _ => sliceOk s
  | .confirmCxlIoPool s _ => sliceOk s
  | .confirmMirrorWrite s => sliceOk s.n
  | .heldSnoopIssue s => sliceOk s
  | .evictionWaitResume s => sliceOk s
  | .sweepItem s => sliceOk s
  | .cleaningItem s => sliceOk s.n
  | .hostCensus q => decide (q < 4)
  | .carbonCensus s => sliceOk s
  | .hqRemove q ticket h => decide (q < 4) && ticketOk ticket && decide (h < 512)
  | .fchClean ticket => ticketOk ticket
  | .fchMirrorClr g => decide (g < 256)
  | .engineSlot e => decide (e < 16)
  | .parcelWriteIssue e => decide (e < 16)
  | .getDynamicCapacityConfiguration f => fldOk f
  | .getDynamicCapacityExtentList f => fldOk f
  | .addDynamicCapacityResponse f tick _ _ => fldOk f && decide (tick < 2 ^ 48)
  | .releaseDynamicCapacity f tick _ => fldOk f && decide (tick < 2 ^ 48)
  | .initiateDynamicCapacityAdd who f _ _ => ifaceOk who && fldOk f
  | .initiateDynamicCapacityRelease who f _ _ _ => ifaceOk who && fldOk f
  | .sanitizeOnRelease e => decide (e < 524288)
  | .bindVppb who p v q => ifaceOk who && portOk p && decide (v ≤ 48) && portOk q
  | .unbindVppb who p v _ => ifaceOk who && portOk p && decide (v ≤ 48)
  | .gateSwapRequest p ticket plen => portOk p && ticketOk ticket && decide (plen < 512)
  | .gateSwap p => portOk p
  | .perstNChange p _ => portOk p
  | .hotReset p => portOk p
  | .prsntDebounced p _ => portOk p
  | .perstRelease p => portOk p
  | .linkTrained p _ => portOk p
  | .linkDown p _ _ => portOk p
  | .linkStateChange p ls _ _ => portOk p && decide (ls < 8)
  | .l0pRequest p _ => portOk p
  | .perstAssert p _ => portOk p
  | .retrain p => portOk p
  | .rejoin p => portOk p
  | .dpcTriggerStatusClear p => portOk p
  | .dpcUncorrectable p tick slot _ => portOk p && decide (tick < 2 ^ 48) && decide (slot < 16)
  | .memTimeout p => portOk p
  | .viralIndication p tick slot => portOk p && decide (tick < 2 ^ 48) && decide (slot < 16)
  | .courierBringup p _ => portOk p
  | .admissionRetry p _ => portOk p
  | .courierFlitReceive p f => portOk p && decide (f.seq < 4096)
  | .nakReceive p ack => portOk p && decide (ack < 4096)
  | .courierRecovery p _ => portOk p
  | .sessionOpen p f => portOk p && sessionOk f
  | .sessionOpenAck p f => portOk p && sessionOk f
  | .sessionResume p f => portOk p && sessionOk f
  | .sessionResumeAck p f => portOk p && sessionOk f
  | .sessionRefuse p f => portOk p && sessionOk f
  | .sessionResend p => portOk p
  | .holdExpiry p => portOk p
  | .timeExchange p _ => portOk p
  | .ideKeyUpdate p => portOk p
  | .rasContain ticket p => ticketOk ticket && portOk p
  | .fenceComplete p => portOk p
  | .memberPurgeEnd p => portOk p
  | .glbReset who => ifaceOk who
  | .amdOpen who ticket => ifaceOk who && ticketOk ticket
  | .amdStageItem who a => ifaceOk who && decide (a < 2 ^ 32)
  | .amdCheck who => ifaceOk who
  | .amdDispatch who => ifaceOk who
  | .amdDiscard who => ifaceOk who
  | .amdPersist who ticket => ifaceOk who && ticketOk ticket
  | .mgmtRegisterWrite who a _ => ifaceOk who && decide (a < 2 ^ 32)
  | .ackFlagWrite who a _ => ifaceOk who && decide (a < 2 ^ 32)
  | .identify who => ifaceOk who
  | .backgroundOperationStatus who => ifaceOk who
  | .getResponseMessageLimit who => ifaceOk who
  | .setResponseMessageLimit who _ => ifaceOk who
  | .getEventRecords who _ => ifaceOk who
  | .clearEventRecords who _ _ _ => ifaceOk who
  | .getEventInterruptPolicy who => ifaceOk who
  | .setEventInterruptPolicy who _ => ifaceOk who
  | .getTimestamp who => ifaceOk who
  | .setTimestamp who _ => ifaceOk who
  | .physicalPortControl who p _ => ifaceOk who && portOk p
  | .tunnelManagementCommand who p _ => ifaceOk who && portOk p
  | .sendLdCxlIoConfigurationRequest who p ld _ _ => ifaceOk who && portOk p && decide (ld < 16)
  | .sendLdCxlIoMemoryRequest who p ld _ _ _ => ifaceOk who && portOk p && decide (ld < 16)
  | .getLdInfo who => ifaceOk who
  | .getLdAllocations who _ _ => ifaceOk who
  | .setLdAllocations who => ifaceOk who
  | .setDcRegionConfiguration who f _ _ _ => ifaceOk who && fldOk f
  | .pbrIdAssignment who p _ => ifaceOk who && portOk p
  | .getFwInfo who => ifaceOk who
  | .transferFw who => ifaceOk who
  | .activateFw who => ifaceOk who
  | .registerRead who a _ => ifaceOk who && decide (a < 2 ^ 32)
  | .registerWrite who a _ => ifaceOk who && decide (a < 2 ^ 32)
  | .eventQueueRead who _ => ifaceOk who
  | .amendmentCommand who _ ticket _ => ifaceOk who && ticketOk ticket
  | .stageItems who _ => ifaceOk who
  | .mctpControl who _ => ifaceOk who
  | .pldmRequest who _ => ifaceOk who
  | .spdmRequest who _ => ifaceOk who
  | .getMeasurements who _ => ifaceOk who
  | .setCertificate who _ _ => ifaceOk who
  | .discover who seq => ifaceOk who && decide (seq < 65536)
  | .regRead who seq a _ => ifaceOk who && decide (seq < 65536) && decide (a < 2 ^ 32)
  | .regWrite who seq a _ => ifaceOk who && decide (seq < 65536) && decide (a < 2 ^ 32)
  | .evqRead who seq _ => ifaceOk who && decide (seq < 65536)
  | .imageBegin who seq _ ticket _ => ifaceOk who && decide (seq < 65536) && ticketOk ticket
  | .imageData who seq _ body => ifaceOk who && decide (seq < 65536) && decide (body.length = 1024)
  | .imageEnd who seq _ => ifaceOk who && decide (seq < 65536)
  | .bruminMctp who seq _ => ifaceOk who && decide (seq < 65536)
  | .challenge who seq => ifaceOk who && decide (seq < 65536)
  | .present who seq _ => ifaceOk who && decide (seq < 65536)
  | .debugEnd who seq => ifaceOk who && decide (seq < 65536)
  | .mramRead who seq _ _ => ifaceOk who && decide (seq < 65536)
  | .mramWrite who seq _ _ => ifaceOk who && decide (seq < 65536)
  | .rma who seq _ => ifaceOk who && decide (seq < 65536)
  | .ownerSet who seq _ => ifaceOk who && decide (seq < 65536)
  | .fwBegin who seq _ ticket => ifaceOk who && decide (seq < 65536) && ticketOk ticket
  | .fwData who seq _ body => ifaceOk who && decide (seq < 65536) && decide (body.length = 1024)
  | .fwEnd who seq _ _ => ifaceOk who && decide (seq < 65536)
  | .fwActivate who seq ticket => ifaceOk who && decide (seq < 65536) && ticketOk ticket
  | .fwAbort who seq => ifaceOk who && decide (seq < 65536)
  | .ucodeStationLoad k _ => decide (k < 32)
  | .evqPop who => ifaceOk who
  | .evqHeadWrite who _ => ifaceOk who
  | .wmConfigWrite who k _ _ => ifaceOk who && decide (k < 64)
  | .ctrValueWrite c _ => decide (c < 2048)
  | .rdHeadWrite _ lap => decide (lap < 2)
  | .rearm who => ifaceOk who
  | .inlPdCtlWrite who _ => ifaceOk who
  | .domainPowerOnDone dom => decide (dom < 24)
  | .domainIsolation dom _ _ => decide (dom < 24)
  | .sliceRecordFailure s _ => sliceOk s
  | .quadrantTakeover n _ => decide (n < 4)
  | .hbmStackLoss b => decide (b < 8)
  | .tspLock who ticket => ifaceOk who && ticketOk ticket
  | .tspLockRequest p => portOk p
  | .ideKm p _ _ _ => portOk p
  | .ideCheckFailure p => portOk p
  | .fabricTimeTick => true
  | .ppsInEdge => true
  | .staleLimit => true
  | .internalMessageDue _ => true
  | .letterHandover _ _ => true
  | .letterResend _ => true
  | .admitMessage _ => true
  | .reoffer _ => true
  | .lowReset => true
  | .mc7BucketRefill => true
  | .receipt _ => true
  | .itemArrival _ => true
  | .applyHostRemoved _ => true
  | .descriptorWrite => true
  | .doorbellSubmit => true
  | .doorbellRelease => true
  | .doorbellAbort => true
  | .resultAreaRead => true
  | .lineOpSettle _ => true
  | .grdBarrier _ => true
  | .barrierComplete => true
  | .shaperRefill => true
  | .pacerRefill => true
  | .time _ => true
  | .dlHeadWrite _ => true
  | .vinRise _ _ _ => true
  | .aonLoss => true
  | .rstNAssert => true
  | .warmReset _ => true
  | .amdCheckDone => true
  | .amendmentCutover => true
  | .persistDone _ => true
  | .sensorUpdate _ => true
  | .courierSettleTimeout => true
  | .standbyBootDone _ _ => true
  | .fwHealthy _ => true
  | .fwHealthTimeout => true
  | .standbyReloadDone => true
  | .pmuClear => true
  | .pmuFreeze _ => true
  | .bwWindowEnd => true
  | .bwWinChange _ => true
  | .trackingReseed _ => true
  | .trkHeadWrite _ => true
  | .prechargeStart => true
  | .prechargeComplete _ => true
  | .prechargeTimeout _ => true
  | .gateRampDone => true
  | .pwrgdAssert _ => true
  | .uvlo _ _ => true
  | .ovlo _ _ => true
  | .lockoutEnd _ => true
  | .currentLimitEngage => true
  | .faultTimerTrip => true
  | .fastTrip _ => true
  | .fetSensorRead _ _ _ _ => true
  | .enFall _ => true
  | .enRise => true
  | .junctionRead _ _ => true
  | .sramUncorrectable _ _ => true
  | .postmasterFailover => true
  | .fatalFault _ => true
  | .autoReset _ => true
  | .rasLogHeadWrite _ => true
  | .debugTokenExpiry => true
  | .nonceExpiry => true
  | .jtagExtest _ => true
  | .postmasterRequestTimeout => true
  | .currentLimitRelease => true
  | .postmasterPairSelfTestDone _ => true
  | .i3cDynamicAddressAssignment _ => true

end Sys2Proof
end

