-- ==== Sys2Proof/Tests/Slice0.lean ====
section
/-!
SUPPORT. The model's own tests: states built by a few helpers, one theorem `meets_…` per obligation with hypotheses (a concrete state
and operands meet all of them, clause by clause), and small tests of one step each.
-/

set_option Elab.async false
set_option linter.unusedVariables false

namespace Sys2Proof.Tests
open Sys2Proof Sys2Proof.Machine

/-! ### States -/

/-- Fields set one after another. -/
def puts (l : List (FieldRef × List Nat × Nat)) (s : State) : State :=
  { s with m := l.foldl (fun m x => sf m x.1 x.2.1 x.2.2) s.m }

/-- Whole registers set one after another. -/
def regs (l : List (RegDef × List Nat × Nat)) (s : State) : State :=
  { s with m := l.foldl (fun m x => wr m x.1 x.2.1 (BitVec.ofNat 64 x.2.2)) s.m }

/-- The machine of a state changed. -/
def withM (f : Mach → Mach) (s : State) : State := { s with m := f s.m }

/-- The always-on domain is up, at Fabric Time 5,000,000,000; the main path is off. -/
def aon : State := { time := { now := 5000000000, up := 5000000000 }, m := { inl := { on := true } } }

/-- The guard in a step of the start-up of the main path. -/
def guardAt (g : Nat) (s : State) : State := puts [(F.INL_STATUS_STATE, [], g + 1)] (withM (fun m => modInl m (fun x => { x with gate := g })) s)

/-- The main path is on and start-up is done. -/
def ready : State :=
  puts [(F.INL_STATUS_PWRGD, [], 1), (F.GLB_STATUS_STEP, [], 8), (F.INL_PD_STATUS_STATE, [], 0xAAAAAAAAAAAA),
    (F.HQ_SLICE_MAP_ACTIVE, [0], 0xFFFF), (F.HQ_SLICE_MAP_ACTIVE, [3], 0xFFFF)] (guardAt 3 aon)

/-- The I3C target has its address. -/
def readyI3c : State := withM (fun m => { m with i3cAddr := 8 }) ready

/-- A port with a role, in a station of one port of 16 lanes. -/
def withPort (p r : Nat) (s : State) : State := puts [(F.STN_PORT_CFG_ROLE, st p, r)] s

/-- A port with a role whose link is up and ready. -/
def withLink (p r : Nat) (s : State) : State :=
  puts [(F.STN_LINK_STATUS_DL_UP, st p, 1), (F.STN_LINK_STATUS_READY, st p, 1), (F.STN_LINK_STATUS_PRSNT, st p, 1), (F.STN_LINK_STATUS_LSTATE, st p, 0)]
    (withPort p r s)

/-- FLD 0 on host port 0, with one region of two blocks of 2 MiB, both in extent state `x`. -/
def withFld (x : Nat) (s : State) : State :=
  puts [(F.TEN_FLD_CFG_ENABLE, [0], 1), (F.TEN_RGN_BASE_VALID, [0, 0], 1), (F.TEN_RGN_CFG_LEN, [0, 0], 2), (F.TEN_RGN_CFG_BSZ, [0, 0], 0), (F.TEN_EXT_STATE, [0], x),
    (F.TEN_EXT_STATE, [1], x), (F.TEN_EXT_POOL, [1], 1)] (withLink 0 1 s)

/-- A configuration image of one empty data block in slot 1, as R328 and R329 lay it out, with its checks. -/
def imageCells : List Host.Cell :=
  [(0x4800000, 0x49), (0x4800001, 0x42), (0x4800002, 0x54), (0x4800003, 0x4e), (0x4800004, 0x1), (0x4800009, 0x20), (0x480000c, 0x1),
   (0x4800010, 0x7), (0x4800018, 0x1), (0x480001d, 0x10), (0x4800020, 0x68), (0x4800021, 0x88), (0x4800022, 0xbf), (0x4800023, 0x81),
   (0x48000fc, 0x45), (0x48000fd, 0x3c), (0x48000fe, 0xcc), (0x48000ff, 0x34), (0x4800100, 0x89), (0x4800101, 0x41), (0x4800102, 0xf9),
   (0x4800103, 0x98)]

/-- A firmware bundle of three blocks in slot 1 (R378-R380), and its slot record in state 1 (R382). -/
def bundleCells : List Host.Cell :=
  [(0x2000000, 0x48), (0x2000001, 0x4b), (0x2000002, 0x46), (0x2000003, 0x57), (0x2000004, 0x1), (0x2000009, 0x40), (0x200000c, 0x3),
   (0x2000011, 0x10), (0x2000014, 0x9), (0x2000018, 0x2), (0x200001a, 0x1), (0x200001c, 0x3), (0x200001e, 0x1), (0x2000034, 0x5),
   (0x2000039, 0x20), (0x20000f8, 0x27), (0x20000f9, 0xed), (0x20000fa, 0x5b), (0x20000fb, 0x30), (0x20000fc, 0xb8), (0x20000fd, 0x9d),
   (0x20000fe, 0xe0), (0x20000ff, 0x8e), (0x2000100, 0x89), (0x2000101, 0x41), (0x2000102, 0xf9), (0x2000103, 0x98), (0x2000104, 0xd7),
   (0x2000105, 0xf7), (0x2000106, 0x5c), (0x2000107, 0x5a), (0x2000108, 0x89), (0x2000109, 0x41), (0x200010a, 0xf9), (0x200010b, 0x98),
   (0x2002000, 0x1), (0x3fff000, 0x48), (0x3fff001, 0x4b), (0x3fff002, 0x53), (0x3fff003, 0x52), (0x3fff004, 0x1), (0x3fff008, 0x1),
   (0x3fff010, 0xa8), (0x3fff011, 0xa9), (0x3fff012, 0xe6), (0x3fff013, 0x6b)]

/-- A message of one letter of kind `k` from port 0. -/
def msgOf (k : MsgKind) (tick : Nat) : Msg := { h := { kind := k }, pm := ⟨tick, 0, 0⟩, mc := 2, sc := 0, src := 0, dst := 0, att := 0, n := 1 }

/-- Courier port 16 in the state that CSTATE `c` names, its link up, with what else it holds. -/
def withCourier (c : Nat) (k : Courier) (s : State) : State :=
  withM (fun m => modCrl m 16 (fun _ => k)) (puts [(F.STN_CRL_STATUS_CSTATE, st 16, c), (F.RTE_SELF_LOCAL, [], 4085)] (withLink 16 3 s))

/-- Every source, the ports 0 and 16 among them, has shown mark `t` at every point. -/
def marked (t : Nat) (s : State) : State :=
  withM (fun m => { m with sof := { m.sof with marksAll := ([0, 16] ++ (List.range 19).map (· + 128)).map (fun k => (k, t + 1)) } }) s

/-- A state at another Fabric Time. -/
def atTime (t : Nat) (s : State) : State := { s with time := { s.time with now := BitVec.ofNat 64 t, up := t } }

/-- The sorting office changed. -/
def withSof (f : Sof → Sof) (s : State) : State := withM (fun m => { m with sof := f m.sof }) s

/-- A slice put in place. -/
def withSlice (k : Nat) (x : Slice) (s : State) : State := withM (fun m => modSlice m k (fun _ => x)) s

/-- The parcel engines changed. -/
def withEng (f : Engines → Engines) (s : State) : State := withM (fun m => { m with eng := f m.eng }) s

/-- A message between its attachment and its target. -/
def transitOf1 (k : MsgKind) (n : Nat) (tgt : Target) (got : List Nat) (ph : Phase) : Transit :=
  ⟨1, { msgOf k 4000000000 with n := n }, 0, tgt, got, ph, [], []⟩

/-- An item of line 0 at slice 0, from port 0. -/
def itemOf1 (k : MsgKind) (w : Work) : Item :=
  { seq := 1, msg := msgOf k 4000000000, work := w, line := 0, data := 0, mask := 0, poison := false, tick := 4000000000, dtick := 4000000000 }

/-- A memory write to FLD 0's BAR: `off` in the page of its parcel slots. -/
def slotWrite (off : Nat) (data : List Byte) : Msg :=
  { msgOf .mwr 4000000000 with h := { kind := .mwr, ioTo := .fldBar 0 (0x12000 + off), len := data.length, data := data }, mc := 5, fld := some 0 }

/-- A descriptor: FILL of one line (chapter 08). -/
def fillDesc : List Byte := [2] ++ List.replicate 23 0 ++ [1] ++ List.replicate 103 0

/-- A message stands first at the dispatcher, and FLD 0 has 16 slots. -/
def atDispatcher (x : Msg) (s : State) : State :=
  puts [(F.TEN_FLD_CFG_SLOTS, [0], 16)] (withEng (fun g => { g with intake := tput g.intake x.mc [x] }) (marked 4500000000 (withFld 2 s)))

/-- A parcel of FLD 0 on engine 15, ready. -/
def parcel1 : Parcel :=
  { num := 0, fld := 0, slot := 15, desc := fillDesc, doorbellTick := 4000000000, world := 0, engine := 15, quantum := 1, lag := 256,
    slots := 4, ready := some 4000001000 }

/-- A set that is sealed passes its checks. -/
theorem seals_of {items : List AmdItem} {acts : List CutAct} {c : Nat} {s : State}
    (h : (sealPost s.time.now.toNat s.m items acts c).isRight = true) : Seals items acts c s := by
  unfold Seals
  cases hs : sealPost s.time.now.toNat s.m items acts c with
  | inl r => rw [hs] at h; cases h
  | inr m => exact ⟨m, rfl⟩

/-! ### Blank stretches of MRAM -/

/-- A stretch in which no byte is listed reads as blank. -/
theorem mread_blank {t : List Host.Cell} {i n : Nat} (h : t.all (fun x => decide (x.1 < i) || decide (i + n ≤ x.1)) = true) :
    mread t i n = List.replicate n Config.mramBlank := by
  have tb : ∀ (t : List Host.Cell) (i n k : Nat), t.all (fun x => decide (x.1 < i) || decide (i + n ≤ x.1)) = true → i ≤ k → k < i + n →
      tget Config.mramBlank t k = Config.mramBlank := by
    intro t
    induction t with
    | nil => intros; rfl
    | cons x t ih =>
      intro i n k h h1 h2
      simp only [List.all_cons, Bool.and_eq_true, Bool.or_eq_true, decide_eq_true_eq] at h
      have hne : ¬ x.1 = k := by omega
      simp only [tget, hne, if_false]
      exact ih i n k h.2 h1 h2
  have go : ∀ (n j : Nat), i ≤ j → ∀ (N : Nat), t.all (fun x => decide (x.1 < i) || decide (i + N ≤ x.1)) = true → j + n ≤ i + N →
      tgetList Config.mramBlank t j n = List.replicate n Config.mramBlank := by
    intro n
    induction n with
    | zero => intros; rfl
    | succ n ih =>
      intro j h1 N hN h2
      simp only [tgetList, List.replicate_succ]
      rw [tb t i N j hN h1 (by omega), ih (j + 1) (by omega) N hN (by omega)]
  exact go n i (Nat.le_refl _) n h (Nat.le_refl _)

set_option maxRecDepth 100000 in
/-- CRC-32C of a blank block. -/
theorem crc_blank : crc32c (List.replicate 4096 0) = 0x98F94189 := by decide +kernel

set_option maxRecDepth 100000 in
theorem crc_one : crc32c (1 :: List.replicate 4095 0) = 0x5A5CF7D7 := by decide +kernel

theorem bundle_block0 : fwBlockOk bundleCells 1 0 = true := by
  have h : fwOff (fwHeader bundleCells 1) = 4096 := by decide +kernel
  unfold fwBlockOk
  rw [h, mread_blank (by decide +kernel)]
  have e := crc_blank
  exact Eq.trans (congrArg _ e) (by decide +kernel)

theorem bundle_block1 : fwBlockOk bundleCells 1 1 = true := by
  have h : fwOff (fwHeader bundleCells 1) = 4096 := by decide +kernel
  have hr : mread bundleCells (fwSlot 1 + 4096 + 4096 * 1) 4096 = 1 :: List.replicate 4095 0 := by
    show tget Config.mramBlank bundleCells (fwSlot 1 + 4096 + 4096 * 1) :: mread bundleCells (fwSlot 1 + 4096 + 4096 * 1 + 1) 4095 = _
    rw [mread_blank (by decide +kernel)]
    exact congrArg (· :: List.replicate 4095 0) (by decide +kernel)
  unfold fwBlockOk
  rw [h, hr, crc_one]
  decide +kernel

theorem bundle_block2 : fwBlockOk bundleCells 1 2 = true := by
  have h : fwOff (fwHeader bundleCells 1) = 4096 := by decide +kernel
  unfold fwBlockOk
  rw [h, mread_blank (by decide +kernel)]
  have e := crc_blank
  exact Eq.trans (congrArg _ e) (by decide +kernel)

/-- The bundle passes the ROM's checks. -/
theorem bundle_passes {s : State} (hm : s.mram = bundleCells) (hv : s.nvm.minSvn = 0) : fwPasses s 1 true = true := by
  have h1 : fwMalformed (fwHeader bundleCells 1) (fwTable bundleCells 1) = false := by decide +kernel
  have h2 : fwBlocks (fwHeader bundleCells 1) = 3 := by decide +kernel
  have h3 : fwSigned bundleCells 1 true = true := by decide +kernel
  unfold fwPasses
  rw [hm, hv]
  simp [h1, h2, h3, List.range_succ, bundle_block0, bundle_block1, bundle_block2]

/-- The image passes the tests of a slot. -/
theorem image_passes (m : Mach) {t : List Host.Cell} {b : Nat} {o ten : Bool} (ht : t = imageCells) (hb : b = 0) (ho : o = false)
    (hc : ten = true → (configFault (formConfig m 0 [])).isSome = false) : (slotFault t m 1 b true o ten).1 = 0 := by
  subst ht hb ho
  have h1 : headerFault (mread imageCells (cfgSlot 1) 256) = 0 := by decide +kernel
  have h2 : imgBlocks (mread imageCells (cfgSlot 1) 256) = 1 := by decide +kernel
  have h3 : imgOff (mread imageCells (cfgSlot 1) 256) = 4096 := by decide +kernel
  have h4 : leAt (mread imageCells (cfgSlot 1) 256) 32 4 = crc32c (mread imageCells (cfgSlot 1 + 256) (4 * 1)) := by decide +kernel
  have h5 : leAt (mread imageCells (cfgSlot 1 + 256) (4 * 1)) (4 * 0) 4 = 0x98F94189 := by decide +kernel
  obtain ⟨z, hz⟩ : ∃ z : List Byte, z = List.replicate 4096 0 := ⟨_, rfl⟩
  have h6 : mread imageCells (cfgSlot 1 + 4096) 4096 = z := by rw [hz]; exact mread_blank (by decide +kernel)
  have h7 : parseRecs (z.length / 8 + 1) z = some [] := by rw [hz]; decide +kernel
  have h10 : crc32c z = 0x98F94189 := by rw [hz]; exact crc_blank
  have h8 : bitAt (leAt (mread imageCells (cfgSlot 1) 256) 12 2) 0 = true := by decide +kernel
  have h9 : leAt (mread imageCells (cfgSlot 1) 256) 6 2 = 0 := by decide +kernel
  unfold slotFault
  simp only [h1, h2, h3, h4, Nat.mul_one, h6, h7, h8, h9]
  simp only [Nat.mul_one, Nat.mul_zero] at h5
  cases ten
  · simp [h5, h6, h10]
  · simp [h5, h6, h10, hc rfl]

/-- Slot 1 is chosen where it holds the image. -/
theorem image_chosen {s : State} {f : BootFacts} (hm : s.mram = imageCells) (hb : f.board % 16 = 0) (hs : f.cfgSig1 = true)
    (ho : gfb s.m F.SEC_OWNER_OWNER = false) (hc : (configFault (formConfig s.m 0 [])).isSome = false) : (chooseSlot s f).1.isSome = true := by
  have h0 : slotSeq imageCells 0 < slotSeq imageCells 1 := by decide +kernel
  unfold chooseSlot
  have h1 := image_passes s.m (t := imageCells) (b := 0) (o := false) (ten := true) rfl rfl rfl (fun _ => hc)
  simp only [hm, ho, hb, if_pos h0]
  have e : (if ((1 : Nat) == 0) = true then f.cfgSig0 else f.cfgSig1) = true := by rw [if_neg (by decide)]; exact hs
  rw [e]
  simp [h1]


/-! ### Ill-formed commands, one for each check -/

theorem test_wf_port : (Instr.hotReset 128).wf = false := by decide
theorem test_wf_slice : (Instr.applyBirsp 64).wf = false := by decide
theorem test_wf_fld : (Instr.devloadWindowEnd 4096).wf = false := by decide
theorem test_wf_ticket : (Instr.fchClean 65536).wf = false := by decide
theorem test_wf_iface : (Instr.identify (.cci 128)).wf = false ∧ (Instr.identify (.fld 4096)).wf = false ∧ (Instr.identify (.pcie 128)).wf = false ∧
    (Instr.identify (.doe 128)).wf = false ∧ (Instr.identify (.courier 128)).wf = false ∧ (Instr.identify (.brumin (2 ^ 48) false)).wf = false := by decide
theorem test_wf_session : (Instr.sessionOpen 0 { id := 65536 }).wf = false ∧ (Instr.sessionOpen 0 { postcode := 2 ^ 18 }).wf = false := by decide
theorem test_wf_queue : (Instr.settleMessage 4096).wf = false := by decide
theorem test_wf_quadrant : (Instr.hostCensus 4).wf = false ∧ (Instr.hqRemove 0 0 512).wf = false := by decide
theorem test_wf_plane : (Instr.planeRetire 4 true).wf = false ∧ (Instr.sofPlaneRetire 16).wf = false := by decide
theorem test_wf_engine : (Instr.engineSlot 16).wf = false := by decide
theorem test_wf_flush : (Instr.flushError 0 4 0 0 0).wf = false ∧ (Instr.flushError 0 0 0 8 0).wf = false ∧ (Instr.flushError 0 0 0 0 4).wf = false := by
  decide
theorem test_wf_source : (Instr.slip 147).wf = false := by decide
theorem test_wf_group : (Instr.fchMirrorClr 256).wf = false := by decide
theorem test_wf_entry : (Instr.sanitizeOnRelease 524288).wf = false := by decide
theorem test_wf_vppb : (Instr.bindVppb .i3c 0 49 0).wf = false := by decide
theorem test_wf_plen : (Instr.gateSwapRequest 0 0 512).wf = false := by decide
theorem test_wf_tick : (Instr.dpcUncorrectable 0 (2 ^ 48) 0 true).wf = false ∧ (Instr.dpcUncorrectable 0 0 16 true).wf = false := by decide
theorem test_wf_address : (Instr.mgmtRegisterWrite .i3c (2 ^ 32) 0).wf = false := by decide
theorem test_wf_domain : (Instr.domainPowerOnDone 24).wf = false ∧ (Instr.hbmStackLoss 8).wf = false := by decide
theorem test_wf_counter : (Instr.ctrValueWrite 2048 0).wf = false ∧ (Instr.wmConfigWrite .i3c 64 false 0).wf = false := by decide
theorem test_wf_station : (Instr.ucodeStationLoad 32 true).wf = false := by decide
theorem test_wf_seq : (Instr.discover (.brumin 0 false) 65536).wf = false := by decide
theorem test_wf_lstate : (Instr.linkStateChange 0 8 0 0).wf = false := by decide
theorem test_wf_ack : (Instr.nakReceive 0 4096).wf = false ∧ (Instr.courierFlitReceive 0 { seq := 4096 }).wf = false := by decide
theorem test_wf_lap : (Instr.rdHeadWrite 0 2).wf = false := by decide
theorem test_wf_ld : (Instr.sendLdCxlIoConfigurationRequest .i3c 0 16 0 none).wf = false := by decide
theorem test_wf_part : (Instr.imageData (.brumin 0 false) 0 0 [1]).wf = false := by decide
theorem test_wf_good : (Instr.flitArrival 127 []).wf = true ∧ (Instr.imageData (.brumin 0 false) 0 0 (List.replicate 1024 0)).wf = true := by
  decide +kernel

/-! ### The table words -/

/-- The opcode table gives no row any bits. -/
theorem test_decode (nbits w : Nat) : decodeTableWord nbits w = none := rfl

theorem test_fetch_word (nbits w : Nat) : State.reset.withFetchWord nbits w = State.reset := rfl

/-! ### Worked examples and tables of the spec -/

/-- The check value of CRC-32C. -/
theorem test_crc32c : crc32c [0x31, 0x32, 0x33, 0x34, 0x35, 0x36, 0x37, 0x38, 0x39] = 0xE3069283 := by decide +kernel

/-- R36: a tick past the wrap is later than one before it. -/
theorem test_tick_wraps : tickBefore 0xFFFFFFFFFFF0 0x10 = true ∧ tickBefore 0x10 0xFFFFFFFFFFF0 = false := by decide +kernel

/-- R135: the line tag, the slice and the Carbon set of the spec's example address. -/
theorem test_slice_example : lineTag 0x1B0000123440 = 113246212 ∧ sliceNo 0x1B0000123440 = 35 ∧ carbonSet 97792 0x1B0000123440 = 3425796 := by
  decide +kernel

/-- R169: the filter set of the spec's example address. -/
theorem test_filter_example : fsetOf 0x1B0000123440 = 3235 := by decide +kernel

/-- R65: the route hash of the spec's example pair of postcodes. -/
theorem test_route_example : routeHash 0x1014 0x5403 = 3 := by decide +kernel

/-- R329: where the data of the largest image starts. -/
theorem test_data_offset : dataOff 2045 = 12288 := by decide +kernel

/-! ### The hypotheses of the obligations can be met -/

/-- States and operands that meet the hypotheses of `Obligations.StepRunsTheFrontCommand`, clause by clause. -/
theorem meets_StepRunsTheFrontCommand :
    (∃ (s : State) (c : Instr) (rest : List Instr), s.pending = c :: rest) ∧
    (∃ (s : State), s.pending = []) :=
  ⟨⟨{ State.reset with pending := [.fabricTimeTick, .ppsInEdge] }, .fabricTimeTick, [.ppsInEdge], by decide +kernel⟩,
   ⟨State.reset, by decide +kernel⟩⟩

/-- States and operands that meet the hypotheses of `Obligations.EveryCommandEndsWell`, clause by clause. -/
theorem meets_EveryCommandEndsWell :
    (∃ (win : Nat) (s : State), 1000000 < win) ∧
    (∃ (w : Word) (s : State), trkReserved s.m w = true) :=
  ⟨⟨1000001, ready, by decide +kernel⟩,
   ⟨0x0000000100000000, ready, by decide +kernel⟩⟩

/-- States and operands that meet the hypotheses of `Obligations.CommandsLeaveTheQueueAlone`, clause by clause. -/
theorem meets_CommandsLeaveTheQueueAlone :
    (∃ (c : Instr) (s : State) (t : State), exec c s = .next t) :=
  ⟨.ppsInEdge, State.reset, State.reset, rfl⟩

/-- States and operands that meet the hypotheses of `Obligations.EveryStepKeepsMemoryCanonical`, clause by clause. -/
theorem meets_EveryStepKeepsMemoryCanonical :
    (∃ (s : State) (t : State), step s = .next t ∧ s.MemOk) :=
  ⟨State.reset, State.reset, rfl, by decide +kernel⟩

/-- States and operands that meet the hypotheses of `Obligations.LockedTimeMovesByTicks`, clause by clause. -/
theorem meets_LockedTimeMovesByTicks :
    (∃ (s : State) (t : State) (c : Instr) (rest : List Instr), step s = .next t ∧ s.pending = c :: rest ∧ s.time.locked = true) ∧
    (∃ (who : Iface) (s : State), CciServed who s) ∧
    (∃ (who : Iface) (v : Word) (s : State), CciServed who s) :=
  ⟨⟨{ aon with time := { aon.time with locked := true, ppsIn := 5000000000 }, pending := [.ppsInEdge] }, { aon with time := { aon.time with locked := true, ppsIn := 5000000000 }, pending := [] }, .ppsInEdge, [], rfl, by decide +kernel⟩,
   ⟨.i3c, readyI3c, by decide +kernel⟩,
   ⟨.i3c, 7, readyI3c, by decide +kernel⟩⟩

/-- States and operands that meet the hypotheses of `Obligations.FusesMoveOneWay`, clause by clause. -/
theorem meets_FusesMoveOneWay :
    (∃ (s : State) (t : State) (c : Instr), exec c s = .next t) ∧
    (∃ (s : State), s.m.fw.act = 4 ∧ s.m.fw.handEnd = 0 ∧ trialFit s.m = true ∧ s.m.fw.actSlot < 2) :=
  ⟨⟨State.reset, State.reset, .ppsInEdge, rfl⟩,
   ⟨withM (fun m => modFw m (fun f => { f with act := 4, actSlot := 1, served := true })) ({ ready with mram := bundleCells }), by decide +kernel⟩⟩

/-- States and operands that meet the hypotheses of `Obligations.FabricTimeRunsByTicks`, clause by clause. -/
theorem meets_FabricTimeRunsByTicks :
    (∃ (s : State), s.m.inl.on = true ∧ (s.m.fw.handEnd = 0 ∨ (s.time.now + 1).toNat + 1 < s.m.fw.handEnd)) ∧
    (∃ (s : State), s.m.inl.on = true ∧ (s.time.ppsIn = 0 ∨ s.time.ppsIn + 2000000000 ≤ s.time.up + 1)) ∧
    (∃ (s : State), s.time.ppsIn ≠ 0 ∧ s.time.up + 1 < s.time.ppsIn + 2000000000) :=
  ⟨⟨aon, by decide +kernel⟩,
   ⟨{ aon with time := { aon.time with ppsIn := 3000000000 } }, by decide +kernel⟩,
   ⟨{ aon with time := { aon.time with ppsIn := 3000000002 } }, by decide +kernel⟩⟩

/-- States and operands that meet the hypotheses of `Obligations.PowerComesAndGoes`, clause by clause. -/
theorem meets_PowerComesAndGoes :
    (∃ (vin : Nat) (en : Bool) (f : BootFacts) (s : State), s.m.inl.on = false ∧ 380 < vin) ∧
    (∃ (vin : Nat) (en : Bool) (f : BootFacts) (s : State), s.m.inl.on = true) :=
  ⟨⟨381, true, {}, State.reset, by decide +kernel⟩,
   ⟨540, true, {}, aon, by decide +kernel⟩⟩

/-- States and operands that meet the hypotheses of `Obligations.PowerGoodStartsTheDevice`, clause by clause. -/
theorem meets_PowerGoodStartsTheDevice :
    (∃ (f : BootFacts) (s : State), PowerIsGood s ∧ s.m.fw.recovery = true) ∧
    (∃ (f : BootFacts) (s : State), PowerIsGood s ∧ s.m.fw.recovery = false ∧ s.m.inl.lost = false ∧ SlotsFail s) ∧
    (∃ (f : BootFacts) (s : State), (chooseSlot s f).1.isSome = true ∧ PowerIsGood s ∧ s.m.fw.recovery = false ∧ s.m.inl.lost = false) ∧
    (∃ (f : BootFacts) (s : State), PowerIsGood s ∧ s.m.fw.recovery = false ∧ s.m.inl.lost = true ∧ SlotsFail s ∧ NoTrial s) :=
  ⟨⟨{}, withM (fun m => { m with fw := { m.fw with recovery := true } }) (puts [(F.GLB_STATUS_STEP, [], 4)] (guardAt 3 aon)), by decide +kernel⟩,
   ⟨{}, (puts [(F.GLB_STATUS_STEP, [], 4)] (guardAt 3 aon)), by decide +kernel⟩,
   ⟨{ board := 0 }, { (puts [(F.GLB_STATUS_STEP, [], 4)] (guardAt 3 aon)) with mram := imageCells }, image_chosen rfl rfl rfl (by decide +kernel) (by decide +kernel), by decide +kernel⟩,
   ⟨{}, withM (fun m => modInl m (fun g => { g with lost := true })) (puts [(F.GLB_STATUS_STEP, [], 4)] (guardAt 3 aon)), by decide +kernel⟩⟩

/-- States and operands that meet the hypotheses of `Obligations.WarmResetsLeaveTheAlwaysOnDomain`, clause by clause. -/
theorem meets_WarmResetsLeaveTheAlwaysOnDomain :
    (∃ (s : State), s.m.inl.on = true ∧ s.m.resets.any (fun r => r.1 == 2) = false) ∧
    (∃ (f : BootFacts) (s : State), resetDue s (· != 4) = true ∧ NoTrial s ∧ s.m.fw.recovery = true) ∧
    (∃ (f : BootFacts) (s : State), resetDue s (· != 4) = true ∧ NoTrial s ∧ s.m.fw.recovery = false ∧ SlotsFail s) ∧
    (∃ (f : BootFacts) (s : State), (chooseSlot (warmlyBegun (resetCause s.m.resets) f s) f).1.isSome = true ∧ resetDue s (· != 4) = true ∧ NoTrial s ∧ s.m.fw.recovery = false) ∧
    (∃ (f : BootFacts) (s : State), resetDue s (· == 4) = true ∧ NoTrial s ∧ s.m.fw.recovery = true) ∧
    (∃ (f : BootFacts) (s : State), resetDue s (· == 4) = true ∧ NoTrial s ∧ s.m.fw.recovery = false ∧ SlotsFail s) ∧
    (∃ (f : BootFacts) (s : State), (chooseSlot (warmlyBegun (resetCause s.m.resets) f s) f).1.isSome = true ∧ resetDue s (· == 4) = true ∧ NoTrial s ∧ s.m.fw.recovery = false) :=
  ⟨⟨ready, by decide +kernel⟩,
   ⟨{}, withM (fun m => { m with resets := [(3, 4000000000)], fw := { m.fw with recovery := true } }) ready, by decide +kernel⟩,
   ⟨{}, withM (fun m => { m with resets := [(3, 4000000000)], fw := { m.fw with recovery := false } }) ready, by decide +kernel⟩,
   ⟨{ board := 0 }, { withM (fun m => { m with resets := [(3, 4000000000)], fw := { m.fw with recovery := false } }) ready with mram := imageCells }, image_chosen rfl rfl rfl (by decide +kernel) (by decide +kernel), by decide +kernel⟩,
   ⟨{}, withM (fun m => { m with resets := [(4, 4000000000)], fw := { m.fw with recovery := true } }) ready, by decide +kernel⟩,
   ⟨{}, withM (fun m => { m with resets := [(4, 4000000000)], fw := { m.fw with recovery := false } }) ready, by decide +kernel⟩,
   ⟨{ board := 0 }, { withM (fun m => { m with resets := [(4, 4000000000)], fw := { m.fw with recovery := false } }) ready with mram := imageCells }, image_chosen rfl rfl rfl (by decide +kernel) (by decide +kernel), by decide +kernel⟩⟩

/-- States and operands that meet the hypotheses of `Obligations.InletStartsTheMainPath`, clause by clause. -/
theorem meets_InletStartsTheMainPath :
    (∃ (s : State), s.m.inl.on = true ∧ guardState s.m.inl = 1 ∧ heatNow s.m.inl s.time.up ≤ heatLimit) ∧
    (∃ (e : Nat) (s : State), guardState s.m.inl = 2 ∧ s.time.up ≤ s.m.inl.since + 400000000) ∧
    (∃ (s : State), guardState s.m.inl = 3) :=
  ⟨⟨aon, by decide +kernel⟩,
   ⟨220, guardAt 1 (withM (fun m => modInl m (fun g => { g with since := 4600000000 })) aon), by decide +kernel⟩,
   ⟨guardAt 2 aon, by decide +kernel⟩⟩

/-- States and operands that meet the hypotheses of `Obligations.InletTripsLatchTheGuard`, clause by clause. -/
theorem meets_InletTripsLatchTheGuard :
    (∃ (e : Nat) (s : State), s.m.inl.on = true ∧ guardState s.m.inl = 2 ∧ s.m.inl.since + 400000000 ≤ s.time.up) ∧
    (∃ (s : State), s.m.inl.on = true ∧ s.m.inl.latched = false ∧ gf s.m F.INL_STATUS_LIMIT [] = 1 ∧ timerLimit s.m ≤ timerNow s.m s.time.up) ∧
    (∃ (iin : Nat) (s : State), s.m.inl.on = true ∧ s.m.inl.latched = false ∧ 2 ≤ s.m.inl.gate ∧ 2 * iLim s.m < iin) ∧
    (∃ (x : Int) (model : Int) (e : Nat) (s : State), s.m.inl.on = true ∧ s.m.inl.latched = false ∧ 99 ≤ s.m.inl.good ∧ 1500 ≤ x ∧ x ≤ 2000) ∧
    (∃ (x : Int) (model : Int) (ok : Bool) (e : Nat) (s : State), s.m.inl.on = true ∧ s.m.inl.latched = false ∧ (ok = false ∨ x < -550 ∨ 2000 < x) ∧ 1400 ≤ model) ∧
    (∃ (tj : Int) (e : Nat) (s : State), s.m.inl.on = true ∧ s.m.inl.latched = false ∧ 1100 ≤ tj) ∧
    (∃ (s : State), s.m.inl.on = true ∧ s.m.inl.en = false ∧ s.m.inl.latched = true ∧ max s.m.inl.enFell s.m.inl.tripAt + 40000000 ≤ s.time.up ∧ s.m.inl.lockout = 0) ∧
    (∃ (who : Iface) (s : State), WriteTakes who Reg.INL_CTL.base (setBits (rd s.m Reg.INL_CTL []) 16 16 1) Reg.INL_CTL [] s ∧ s.m.inl.latched = true) :=
  ⟨⟨0, guardAt 1 (withM (fun m => modInl m (fun g => { g with since := 4600000000 })) aon), by decide +kernel⟩,
   ⟨puts [(F.INL_STATUS_LIMIT, [], 1)] ready, by decide +kernel⟩,
   ⟨2 * iLim ready.m + 1, ready, by decide +kernel⟩,
   ⟨1500, 0, 0, ready, by decide +kernel⟩,
   ⟨2001, 1400, true, 0, ready, by decide +kernel⟩,
   ⟨1100, 0, ready, by decide +kernel⟩,
   ⟨withM (fun m => modInl m (fun g => { g with en := false, latched := true, enFell := 4960000000 })) aon, by decide +kernel⟩,
   ⟨.brumin 0 false, withM (fun m => modInl m (fun g => { g with latched := true, gate := 0 })) ready, by decide +kernel⟩⟩

/-- States and operands that meet the hypotheses of `Obligations.InletLockoutsAndEn`, clause by clause. -/
theorem meets_InletLockoutsAndEn :
    (∃ (vin : Nat) (e : Nat) (s : State), s.m.inl.on = true ∧ s.m.inl.en = true ∧ s.m.inl.latched = false ∧ s.m.inl.lockout ≠ 1 ∧ vin < 360) ∧
    (∃ (vin : Nat) (e : Nat) (s : State), s.m.inl.on = true ∧ s.m.inl.en = true ∧ s.m.inl.latched = false ∧ s.m.inl.lockout ≠ 2 ∧ 620 < vin) ∧
    (∃ (vin : Nat) (s : State), s.m.inl.en = true ∧ s.m.inl.latched = false ∧ s.m.inl.gate = 0 ∧ s.m.inl.lockout ≠ 0 ∧ 380 < vin ∧ vin < 605 ∧ s.m.inl.lockAt + 40000000 ≤ s.time.up) ∧
    (∃ (e : Nat) (s : State), s.m.inl.on = true ∧ s.m.inl.en = true ∧ s.m.inl.latched = false) ∧
    (∃ (s : State), s.m.inl.on = true ∧ s.m.inl.en = false ∧ s.m.inl.latched = false ∧ s.m.inl.lockout = 0 ∧ s.m.inl.gate = 0) ∧
    (∃ (s : State), s.m.inl.on = true ∧ s.m.inl.en = false ∧ s.m.inl.latched = true ∧ max s.m.inl.enFell s.m.inl.tripAt + 40000000 ≤ s.time.up ∧ s.m.inl.lockout = 0) :=
  ⟨⟨359, 0, ready, by decide +kernel⟩,
   ⟨621, 0, ready, by decide +kernel⟩,
   ⟨604, withM (fun m => modInl m (fun g => { g with lockout := 2, lockAt := 4960000000 })) aon, by decide +kernel⟩,
   ⟨0, ready, by decide +kernel⟩,
   ⟨withM (fun m => modInl m (fun g => { g with en := false })) aon, by decide +kernel⟩,
   ⟨withM (fun m => modInl m (fun g => { g with en := false, latched := true, enFell := 4960000000 })) aon, by decide +kernel⟩⟩

/-- States and operands that meet the hypotheses of `Obligations.InletReadingsAndLimit`, clause by clause. -/
theorem meets_InletReadingsAndLimit :
    (∃ (s : State), (guardState s.m.inl = 3 ∨ guardState s.m.inl = 4) ∧ gf s.m F.INL_STATUS_LIMIT [] = 0) ∧
    (∃ (s : State), gf s.m F.INL_STATUS_LIMIT [] = 1) ∧
    (∃ (x : Int) (model : Int) (e : Nat) (s : State), s.m.inl.on = true ∧ -550 ≤ x ∧ x < 1500 ∧ model < 1400) ∧
    (∃ (tj : Int) (e : Nat) (s : State), s.m.inl.on = true ∧ 1000 ≤ tj ∧ tj < 1100 ∧ gf s.m F.INL_THERM_THROTTLE [] = 0) :=
  ⟨⟨guardAt 2 aon, by decide +kernel⟩,
   ⟨puts [(F.INL_STATUS_LIMIT, [], 1)] ready, by decide +kernel⟩,
   ⟨1499, 1399, 0, ready, by decide +kernel⟩,
   ⟨1099, 0, ready, by decide +kernel⟩⟩

/-- States and operands that meet the hypotheses of `Obligations.RegisterWriteCommits`, clause by clause. -/
theorem meets_RegisterWriteCommits :
    (∃ (who : Iface) (a : Nat) (v : Word) (r : RegDef) (ix : List Nat) (s : State), WriteTakes who a v r ix s) ∧
    (∃ (r : RegDef) (old : Word) (v : Word) (k : Nat), r.acks = [k] ∧ 16 ≤ k ∧ k < 64 ∧ (BitVec.ofNat 64 r.rw).getLsbD k = false ∧ v.getLsbD k = true) ∧
    (∃ (r : RegDef) (old : Word) (v : Word) (i : Nat), r.acks = [] ∧ i < 64) :=
  ⟨⟨.brumin 0 false, Reg.AMD_CUTOVER.base, 7, Reg.AMD_CUTOVER, [], ready, by decide +kernel⟩,
   ⟨Reg.MBX_STATUS, 0x10003, 0x10003, 16, by decide +kernel⟩,
   ⟨Reg.AMD_CUTOVER, 1, 6, 2, by decide +kernel⟩⟩

/-- States and operands that meet the hypotheses of `Obligations.DeniedAccessHasNoEffect`, clause by clause. -/
theorem meets_DeniedAccessHasNoEffect :
    (∃ (who : Iface) (a : Nat) (v : Word) (s : State), (∃ cause rule, guardCheck (cfgAt s.m ⟨tick48 s.time.now.toNat, 144, 0⟩) 1 a 2 (groupOf s who) ⟨false, true⟩ = .deny cause rule) ∧ Served who s ∧ a % 8 = 0 ∧ a < 2 ^ 32 ∧ lockedRegion s.m a = false) ∧
    (∃ (who : Iface) (a : Nat) (v : Word) (s : State), Served who s ∧ framed a 8 = false) ∧
    (∃ (who : Iface) (a : Nat) (v : Word) (s : State), reaches s who = false) :=
  ⟨⟨.brumin 0 false, 0, 0, puts [(F.GRD_RULE_BASE_VALID, [0], 1), (F.GRD_RULE_BASE_SPACE, [0], 1), (F.GRD_RULE_SIZE_COUNT, [0], 2 ^ 20), (F.GRD_RULE_MATCH_WORLDS, [0], 4), (F.GRD_RULE_MATCH_ANY_SG, [0], 1), (F.GRD_RULE_MATCH_R, [0], 1)] ready, ⟨2, some 0, by decide +kernel⟩, by decide +kernel⟩,
   ⟨.brumin 0 false, 0xFFFFFFFC, 0, ready, by decide +kernel⟩,
   ⟨.i3c, 0, 0, ready, by decide +kernel⟩⟩

/-- States and operands that meet the hypotheses of `Obligations.ControlWritesAct`, clause by clause. -/
theorem meets_ControlWritesAct :
    (∃ (who : Iface) (v : Word) (s : State), WriteTakes who Reg.FTM_LOAD.base v Reg.FTM_LOAD [] s ∧ s.time.locked = false) ∧
    (∃ (who : Iface) (v : Word) (s : State), WriteTakes who Reg.FTM_LOAD.base v Reg.FTM_LOAD [] s ∧ s.time.locked = true) ∧
    (∃ (who : Iface) (s : State), WriteTakes who Reg.GLB_RESET.base 1 Reg.GLB_RESET [] s ∧ s.m.resets.any (fun r => r.1 == 3) = false) ∧
    (∃ (who : Iface) (ticket : Nat) (s : State), WriteTakes who Reg.SEC_TSP.base (BitVec.ofNat 64 (1 + ticket % 65536 * 2 ^ 48)) Reg.SEC_TSP [] s) ∧
    (∃ (who : Iface) (s : State), WriteTakes who Reg.INL_CTL.base (setBits (rd s.m Reg.INL_CTL []) 16 16 1) Reg.INL_CTL [] s ∧ s.m.inl.latched = true) :=
  ⟨⟨.brumin 0 false, 7, ready, by decide +kernel⟩,
   ⟨.brumin 0 false, 7, { ready with time := { ready.time with locked := true } }, by decide +kernel⟩,
   ⟨.brumin 0 false, ready, by decide +kernel⟩,
   ⟨.brumin 0 false, 5, ready, by decide +kernel⟩,
   ⟨.brumin 0 false, withM (fun m => modInl m (fun g => { g with latched := true, gate := 0 })) ready, by decide +kernel⟩⟩

/-- States and operands that meet the hypotheses of `Obligations.MonitorAndDomainWrites`, clause by clause. -/
theorem meets_MonitorAndDomainWrites :
    (∃ (who : Iface) (s : State), Served who s ∧ (gate who Reg.RAS_EVQ_POP.base 32 false (noteServed s)).1 = none ∧ evqHeld s.m ≠ 0) ∧
    (∃ (who : Iface) (s : State), Served who s ∧ (gate who Reg.RAS_EVQ_POP.base 32 false (noteServed s)).1 = none ∧ evqHeld s.m = 0) ∧
    (∃ (who : Iface) (v : Nat) (s : State), WriteTakes who Reg.RAS_EVQ_PTR.base (BitVec.ofNat 64 (v % 8192 * 2 ^ 32)) Reg.RAS_EVQ_PTR [] s ∧ (v % 8192 + 8192 - gf s.m F.RAS_EVQ_PTR_HEAD []) % 8192 ≤ evqHeld s.m) ∧
    (∃ (who : Iface) (k : Nat) (hyst : Bool) (v : Word) (r : RegDef) (s : State), k < 64 ∧ r = (if hyst then Reg.RAS_WM_HYST else Reg.RAS_WM_CFG) ∧ WriteTakes who (0xB310000 + 32 * k + (if hyst then 8 else 0)) v r [k] s) ∧
    (∃ (who : Iface) (v : Word) (s : State), WriteTakes who Reg.INL_PD_CTL.base v Reg.INL_PD_CTL [] s ∧ pdCtlRefused s.m (writtenWord Reg.INL_PD_CTL (rd s.m Reg.INL_PD_CTL []) v allOnes).toNat = true) ∧
    (∃ (who : Iface) (v : Word) (s : State), WriteTakes who Reg.INL_PD_CTL.base v Reg.INL_PD_CTL [] s ∧ gfb s.m F.AMD_CFG_SLOT_SAFE = false ∧ clearedBits s.m (writtenWord Reg.INL_PD_CTL (rd s.m Reg.INL_PD_CTL []) v allOnes).toNat = []) :=
  ⟨⟨.brumin 0 false, puts [(F.RAS_EVQ_PTR_TAIL, [], 1)] ready, by decide +kernel⟩,
   ⟨.brumin 0 false, ready, by decide +kernel⟩,
   ⟨.brumin 0 false, 1, puts [(F.RAS_EVQ_PTR_TAIL, [], 1)] ready, by decide +kernel⟩,
   ⟨.brumin 0 false, 63, true, 5, Reg.RAS_WM_HYST, ready, by decide +kernel⟩,
   ⟨.brumin 0 false, 0xFFFEFF, regs [(Reg.INL_PD_CTL, [], 0xFFFFFF)] ready, by decide +kernel⟩,
   ⟨.brumin 0 false, 0xFFFFFF, ready, by decide +kernel⟩⟩

/-- States and operands that meet the hypotheses of `Obligations.SoftwareSetCommands`, clause by clause. -/
theorem meets_SoftwareSetCommands :
    (∃ (who : Iface) (ticket : Nat) (s : State), AmdTakes who 1 ticket s ∧ AmdReady who 0 s) ∧
    (∃ (who : Iface) (a : Nat) (s : State), WriteTakes who Reg.AMD_STAGE_ADDR.base (BitVec.ofNat 64 (a % 2 ^ 32)) Reg.AMD_STAGE_ADDR [] s ∧ AmdReady who 1 s ∧ s.m.amd.stage.length < 262144) ∧
    (∃ (who : Iface) (s : State), AmdTakes who 3 0 s ∧ AmdReady who 1 s) ∧
    (∃ (who : Iface) (s : State), AmdTakes who 2 0 s ∧ AmdReady who 1 s ∧ s.m.amd.sets.length < 16) ∧
    (∃ (who : Iface) (s : State), AmdTakes who 4 0 s ∧ AmdReady who 1 s) :=
  ⟨⟨.brumin 0 false, 5, ready, by decide +kernel⟩,
   ⟨.brumin 0 false, 0x7100000, puts [(F.AMD_INFO_PHASE, [], 1), (F.AMD_INFO_OWNER, [], ownerCode (.brumin 0 false))] ready, by decide +kernel⟩,
   ⟨.brumin 0 false, puts [(F.AMD_INFO_PHASE, [], 1), (F.AMD_INFO_OWNER, [], ownerCode (.brumin 0 false))] ready, by decide +kernel⟩,
   ⟨.brumin 0 false, puts [(F.AMD_INFO_PHASE, [], 1), (F.AMD_INFO_OWNER, [], ownerCode (.brumin 0 false))] ready, by decide +kernel⟩,
   ⟨.brumin 0 false, puts [(F.AMD_INFO_PHASE, [], 1), (F.AMD_INFO_OWNER, [], ownerCode (.brumin 0 false))] ready, by decide +kernel⟩⟩

/-- States and operands that meet the hypotheses of `Obligations.SoftwareSetRefusals`, clause by clause. -/
theorem meets_SoftwareSetRefusals :
    (∃ (who : Iface) (s : State), AmdTakes who 3 0 s ∧ amdPhase s.m ≠ 0 ∧ gf s.m F.AMD_INFO_OWNER [] ≠ ownerCode who) ∧
    (∃ (who : Iface) (s : State), AmdTakes who 3 0 s ∧ amdPhase s.m ≠ 1 ∧ (amdPhase s.m = 0 ∨ gf s.m F.AMD_INFO_OWNER [] = ownerCode who)) :=
  ⟨⟨.brumin 0 false, puts [(F.AMD_INFO_PHASE, [], 1), (F.AMD_INFO_OWNER, [], 999)] ready, by decide +kernel⟩,
   ⟨.brumin 0 false, ready, by decide +kernel⟩⟩

/-- States and operands that meet the hypotheses of `Obligations.ChecksEndAndSeal`, clause by clause. -/
theorem meets_ChecksEndAndSeal :
    (∃ (s : State), amdPhase s.m = 2 ∧ s.m.amd.dispatch = false ∧ checkSet s.time.now.toNat s.m s.m.amd.stage s.m.amd.overrun s.m.amd.cut false = none) ∧
    (∃ (x : Nat) (s : State), amdPhase s.m = 2 ∧ s.m.amd.dispatch = false ∧ checkSet s.time.now.toNat s.m s.m.amd.stage s.m.amd.overrun s.m.amd.cut false = some x) ∧
    (∃ (s : State), amdPhase s.m = 2 ∧ s.m.amd.dispatch = true ∧ s.m.amd.sets.length < 16 ∧ checkSet s.time.now.toNat s.m s.m.amd.stage s.m.amd.overrun s.m.amd.cut false = none) ∧
    (∃ (x : Nat) (s : State), amdPhase s.m = 2 ∧ s.m.amd.dispatch = true ∧ checkSet s.time.now.toNat s.m s.m.amd.stage s.m.amd.overrun s.m.amd.cut false = some x) ∧
    (∃ (m : Mach) (now : Nat) (c : Nat), now + 16000 ≤ c ∧ (∀ x ∈ m.amd.sets, x.cut ≤ c)) ∧
    (∃ (m : Mach) (now : Nat) (c : Nat), (cutFor m now c).2 = true) :=
  ⟨⟨puts [(F.AMD_INFO_PHASE, [], 2), (F.AMD_INFO_OWNER, [], ownerCode (.brumin 0 false))] ready, by decide +kernel⟩,
   ⟨0x702, withM (fun m => { m with amd := { overrun := true } }) (puts [(F.AMD_INFO_PHASE, [], 2), (F.AMD_INFO_OWNER, [], ownerCode (.brumin 0 false))] ready), by decide +kernel⟩,
   ⟨withM (fun m => { m with amd := { dispatch := true } }) (puts [(F.AMD_INFO_PHASE, [], 2), (F.AMD_INFO_OWNER, [], ownerCode (.brumin 0 false))] ready), by decide +kernel⟩,
   ⟨0x702, withM (fun m => { m with amd := { dispatch := true, overrun := true } }) (puts [(F.AMD_INFO_PHASE, [], 2), (F.AMD_INFO_OWNER, [], ownerCode (.brumin 0 false))] ready), by decide +kernel⟩,
   ⟨ready.m, 0, 16000, by decide +kernel⟩,
   ⟨ready.m, 0, 15999, by decide +kernel⟩⟩

/-- States and operands that meet the hypotheses of `Obligations.CutoverIsAllOrNothing`, clause by clause. -/
theorem meets_CutoverIsAllOrNothing :
    (∃ (x : SealedSet) (rest : List SealedSet) (s : State), s.m.amd.sets = x :: rest ∧ x.cut ≤ s.time.now.toNat ∧ x.software = true ∧ stateFault (sf { s.m with amd := { s.m.amd with sets := rest } } F.AMD_INFO_SEALED [] rest.length) (applyItems (sf { s.m with amd := { s.m.amd with sets := rest } } F.AMD_INFO_SEALED [] rest.length) x.items) x.items false = false ∧ x.acts = []) ∧
    (∃ (x : SealedSet) (rest : List SealedSet) (s : State), s.m.amd.sets = x :: rest ∧ x.cut ≤ s.time.now.toNat ∧ x.software = true ∧ stateFault (sf { s.m with amd := { s.m.amd with sets := rest } } F.AMD_INFO_SEALED [] rest.length) (applyItems (sf { s.m with amd := { s.m.amd with sets := rest } } F.AMD_INFO_SEALED [] rest.length) x.items) x.items false = true ∧ x.acts = []) :=
  ⟨⟨⟨4000000000, [], true, []⟩, [], withM (fun m => { m with amd := { sets := [⟨4000000000, [], true, []⟩] } }) (puts [(F.AMD_INFO_PHASE, [], 3), (F.AMD_INFO_SEALED, [], 1), (F.STN_PORT_CFG_ROLE, [0, 0], 1)] ready), by decide +kernel⟩,
   ⟨⟨4000000000, [⟨2, 7, Reg.STN_PORT_CFG.base⟩], true, []⟩, [], withM (fun m => { m with amd := { sets := [⟨4000000000, [⟨2, 7, Reg.STN_PORT_CFG.base⟩], true, []⟩] } }) (puts [(F.AMD_INFO_PHASE, [], 3), (F.AMD_INFO_SEALED, [], 1), (F.STN_PORT_CFG_ROLE, [0, 0], 1)] ready), by decide +kernel⟩⟩

/-- States and operands that meet the hypotheses of `Obligations.PersistWritesTheInactiveSlot`, clause by clause. -/
theorem meets_PersistWritesTheInactiveSlot :
    (∃ (who : Iface) (ticket : Nat) (s : State), AmdTakes who 5 ticket s ∧ slotBusy s.m = false ∧ gfb s.m F.SEC_OWNER_OWNER = false) ∧
    (∃ (k : Nat) (bs : List Byte) (s : State), s.m.amd.persist = some (k, bs)) ∧
    (∃ (k : Nat) (bs : List Byte) (s : State), s.m.amd.persist = some (k, bs)) :=
  ⟨⟨.brumin 0 false, 5, ready, by decide +kernel⟩,
   ⟨1, [0x48, 0x4B], withM (fun m => { m with amd := { persist := some (1, [0x48, 0x4B]) } }) ready, by decide +kernel⟩,
   ⟨1, [0x48, 0x4B], withM (fun m => { m with amd := { persist := some (1, [0x48, 0x4B]) } }) ready, by decide +kernel⟩⟩

/-- States and operands that meet the hypotheses of `Obligations.BruminAnswersRequests`, clause by clause. -/
theorem meets_BruminAnswersRequests :
    (∃ (mac : Nat) (sess : Bool) (seq : Nat) (s : State), BrumServed { rom := true } mac sess seq s) ∧
    (∃ (mac : Nat) (sess : Bool) (seq : Nat) (a : Nat) (r : RegDef) (ix : List Nat) (s : State), BrumServed {} mac sess seq s ∧ permLacks s (.brumin mac sess) 0 = false ∧ a % 8 = 0 ∧ a < 0xF000000 ∧ regFind a = some (r, ix) ∧ r.base ≠ Reg.FTM_HZ.base ∧ r.base ≠ Reg.RAS_EVQ_POP.base ∧ (gate (.brumin mac sess) a 8 false (bruminSeen mac s)).1 = none) ∧
    (∃ (mac : Nat) (sess : Bool) (seq : Nat) (a : Nat) (v : Word) (r : RegDef) (ix : List Nat) (s : State), BrumServed { writes := true } mac sess seq s ∧ permLacks s (.brumin mac sess) 1 = false ∧ Accepts (.brumin mac sess) a v r ix (bruminSeen mac s)) ∧
    (∃ (mac : Nat) (sess : Bool) (seq : Nat) (max : Nat) (s : State), BrumServed {} mac sess seq s ∧ 1 ≤ max ∧ max ≤ 31 ∧ (gate (.brumin mac sess) Reg.RAS_EVQ_POP.base 32 false (bruminSeen mac s)).1 = none ∧ evqHeld s.m ≠ 0) ∧
    (∃ (mac : Nat) (sess : Bool) (seq : Nat) (r : Reply) (s : State), bruminUp s true = true ∧ (sess = true → s.m.sec.sessions.contains (.brumin mac false) = true) ∧ s.m.fw.handEnd = 0 ∧ heldReply s.m mac seq = some r) :=
  ⟨⟨7, false, 1, ready, by decide +kernel⟩,
   ⟨7, false, 1, Reg.GLB_ID.base, Reg.GLB_ID, [], ready, by decide +kernel⟩,
   ⟨7, false, 1, Reg.AMD_CUTOVER.base, 7, Reg.AMD_CUTOVER, [], ready, by decide +kernel⟩,
   ⟨7, false, 1, 31, puts [(F.RAS_EVQ_PTR_TAIL, [], 1)] ready, by decide +kernel⟩,
   ⟨7, false, 1, { whom := .brumin 7 false, seq := 1 }, withM (fun m => { m with brumin := [⟨7, [{ whom := .brumin 7 false, seq := 1 }]⟩] }) ready, by decide +kernel⟩⟩

/-- States and operands that meet the hypotheses of `Obligations.BruminLoadsAnImage`, clause by clause. -/
theorem meets_BruminLoadsAnImage :
    (∃ (mac : Nat) (sess : Bool) (seq : Nat) (len : Nat) (ticket : Nat) (slot : Nat) (s : State), BrumServed { writes := true } mac sess seq s ∧ tokenBars s (.brumin mac sess) = false ∧ imageBad s.m len slot = none) ∧
    (∃ (mac : Nat) (sess : Bool) (seq : Nat) (idx : Nat) (body : List Byte) (l : ImgLoad) (s : State), BrumServed { writes := true } mac sess seq s ∧ tokenBars s (.brumin mac sess) = false ∧ s.m.load = some l ∧ body.length = 1024 ∧ 1024 * idx < l.len ∧ 4 ≤ idx) ∧
    (∃ (mac : Nat) (sess : Bool) (seq : Nat) (idx : Nat) (body : List Byte) (l : ImgLoad) (s : State), BrumServed { writes := true } mac sess seq s ∧ tokenBars s (.brumin mac sess) = false ∧ s.m.load = some l ∧ body.length = 1024 ∧ 1024 * idx < l.len ∧ idx < 4) ∧
    (∃ (mac : Nat) (sess : Bool) (seq : Nat) (sig : Bool) (l : ImgLoad) (s : State), BrumServed { writes := true } mac sess seq s ∧ tokenBars s (.brumin mac sess) = false ∧ s.m.load = some l ∧ missing l.len l.got = true) ∧
    (∃ (mac : Nat) (sess : Bool) (seq : Nat) (sig : Bool) (l : ImgLoad) (s : State), (slotFault (writeHeld s.mram (cfgSlot l.slot) l.held) (bruminSeen mac s).m l.slot (gf s.m F.RTE_SELF_BOARD_ID []) sig (gfb s.m F.SEC_OWNER_OWNER) false).1 = 0 ∧ BrumServed { writes := true } mac sess seq s ∧ tokenBars s (.brumin mac sess) = false ∧ s.m.load = some l ∧ missing l.len l.got = false) ∧
    (∃ (mac : Nat) (sess : Bool) (seq : Nat) (e : Nat) (s : State), BrumServed { rom := true } mac sess seq s ∧ s.m.fw.recovery = false) ∧
    (∃ (mac : Nat) (sess : Bool) (seq : Nat) (k : Nat) (s : State), BrumServed { rom := true } mac sess seq s) :=
  ⟨⟨7, false, 1, 8192, 5, 1, ready, by decide +kernel⟩,
   ⟨7, false, 1, 7, List.replicate 1024 1, ⟨1, 8192, [], []⟩, withM (fun m => { m with load := some ⟨1, 8192, [], []⟩ }) ready, by decide +kernel⟩,
   ⟨7, false, 1, 3, List.replicate 1024 1, ⟨1, 8192, [], []⟩, withM (fun m => { m with load := some ⟨1, 8192, [], []⟩ }) ready, by decide +kernel⟩,
   ⟨7, false, 1, true, ⟨1, 8192, [], []⟩, withM (fun m => { m with load := some ⟨1, 8192, [], []⟩ }) ready, by decide +kernel⟩,
   ⟨7, false, 1, true, ⟨1, 8192, [0, 1, 2, 3, 4, 5, 6, 7], []⟩, withM (fun m => { m with load := some ⟨1, 8192, [0, 1, 2, 3, 4, 5, 6, 7], []⟩ }) { ready with mram := imageCells }, image_passes _ rfl (by decide +kernel) (by decide +kernel) (fun h => by cases h), by decide +kernel⟩,
   ⟨7, false, 1, 9, ready, by decide +kernel⟩,
   ⟨7, false, 1, 0x7D, ready, by decide +kernel⟩⟩

/-- States and operands that meet the hypotheses of `Obligations.DebugTokensComeAndGo`, clause by clause. -/
theorem meets_DebugTokensComeAndGo :
    (∃ (mac : Nat) (sess : Bool) (seq : Nat) (s : State), BrumServed {} mac sess seq s) ∧
    (∃ (mac : Nat) (sess : Bool) (seq : Nat) (k : DebugToken) (s : State), BrumServed {} mac sess seq s ∧ tokenMalformed k = false ∧ tokenFault (bruminSeen mac s) k = 0) ∧
    (∃ (mac : Nat) (sess : Bool) (seq : Nat) (k : DebugToken) (s : State), BrumServed {} mac sess seq s ∧ tokenMalformed k = false ∧ tokenFault (bruminSeen mac s) k ≠ 0) ∧
    (∃ (mac : Nat) (sess : Bool) (seq : Nat) (k : Token) (s : State), BrumServed {} mac sess seq s ∧ s.m.sec.token = some k ∧ k.mac = mac) ∧
    (∃ (k : Token) (s : State), s.m.sec.token = some k ∧ k.ends ≤ s.time.now.toNat) ∧
    (∃ (n : List Byte) (e : Nat) (s : State), s.m.sec.nonce = some (n, e) ∧ e ≤ s.time.now.toNat) :=
  ⟨⟨7, false, 1, ready, by decide +kernel⟩,
   ⟨7, false, 1, { serial := 0, nonce := [1], life := 3600, perms := 31, signer := 0, sig := true }, withM (fun m => { m with sec := { nonce := some ([1], 6000000000) } }) ready, by decide +kernel⟩,
   ⟨7, false, 1, { serial := 0, nonce := [1], life := 3600, perms := 31, signer := 0, sig := false }, withM (fun m => { m with sec := { nonce := some ([1], 6000000000) } }) ready, by decide +kernel⟩,
   ⟨7, false, 1, ⟨7, 31, 6000000000⟩, withM (fun m => { m with sec := { token := some ⟨7, 31, 6000000000⟩ } }) ready, by decide +kernel⟩,
   ⟨⟨7, 31, 5000000000⟩, withM (fun m => { m with sec := { token := some ⟨7, 31, 5000000000⟩ } }) ready, by decide +kernel⟩,
   ⟨[1], 5000000000, withM (fun m => { m with sec := { nonce := some ([1], 5000000000) } }) ready, by decide +kernel⟩⟩

/-- States and operands that meet the hypotheses of `Obligations.DebugOperationsAct`, clause by clause. -/
theorem meets_DebugOperationsAct :
    (∃ (mac : Nat) (sess : Bool) (seq : Nat) (off : Nat) (len : Nat) (s : State), BrumServed {} mac sess seq s ∧ Permitted mac 2 s ∧ 1 ≤ len ∧ len ≤ 1024 ∧ off + len ≤ mramSize ∧ mramLocked off len = false) ∧
    (∃ (mac : Nat) (sess : Bool) (seq : Nat) (off : Nat) (len : Nat) (s : State), BrumServed {} mac sess seq s ∧ Permitted mac 2 s ∧ 1 ≤ len ∧ len ≤ 1024 ∧ off + len ≤ mramSize ∧ mramLocked off len = true) ∧
    (∃ (mac : Nat) (sess : Bool) (seq : Nat) (off : Nat) (data : List Byte) (s : State), BrumServed {} mac sess seq s ∧ Permitted mac 3 s ∧ data ≠ [] ∧ data.length ≤ 1024 ∧ off + data.length ≤ mramSize ∧ mramLocked off data.length = false) ∧
    (∃ (mac : Nat) (seq : Nat) (keys : List Byte) (s : State), BrumServed {} mac true seq s ∧ gfb s.m F.SEC_OWNER_OWNER = false ∧ s.nvm.ownerKey = [] ∧ keys ≠ []) ∧
    (∃ (mac : Nat) (sess : Bool) (seq : Nat) (f : BootFacts) (s : State), BrumServed {} mac sess seq s ∧ Permitted mac 4 s) ∧
    (∃ (p : Nat) (s : State), spdmReaches s (.doe p) = true ∧ s.m.fw.handEnd = 0 ∧ role s.m p = 1) ∧
    (∃ (s : State), (∀ p, p < 128 → portExists s.m p = false)) :=
  ⟨⟨7, false, 1, mramSize - 1024, 1024, withM (fun m => { m with sec := { token := some ⟨7, 31, 6000000000⟩ } }) ready, by decide +kernel⟩,
   ⟨7, false, 1, 0x5FFFFFF, 2, withM (fun m => { m with sec := { token := some ⟨7, 31, 6000000000⟩ } }) ready, by decide +kernel⟩,
   ⟨7, false, 1, 0x5FFFC00, List.replicate 1024 1, withM (fun m => { m with sec := { token := some ⟨7, 31, 6000000000⟩ } }) ready, by decide +kernel⟩,
   ⟨7, 1, [1, 2], withM (fun m => { m with sec := { sessions := [.brumin 7 false] } }) ready, by decide +kernel⟩,
   ⟨7, false, 1, {}, withM (fun m => { m with sec := { token := some ⟨7, 31, 6000000000⟩ } }) ready, by decide +kernel⟩,
   ⟨0, withLink 0 1 ready, by decide +kernel⟩,
   ⟨ready, by decide +kernel⟩⟩

/-- States and operands that meet the hypotheses of `Obligations.InformationCommandsAnswer`, clause by clause. -/
theorem meets_InformationCommandsAnswer :
    (∃ (who : Iface) (s : State), CciServed who s) ∧
    (∃ (f : Nat) (s : State), FldServed f s) ∧
    (∃ (f : Nat) (s : State), FldServed f s) ∧
    (∃ (f : Nat) (s : State), FldServed f s) :=
  ⟨⟨.i3c, readyI3c, by decide +kernel⟩,
   ⟨0, puts [(F.TEN_FLD_STATUS_BOUND, [0], 1)] (withFld 2 ready), by decide +kernel⟩,
   ⟨0, puts [(F.TEN_FLD_STATUS_BOUND, [0], 1)] (withFld 2 ready), by decide +kernel⟩,
   ⟨0, puts [(F.TEN_FLD_STATUS_BOUND, [0], 1)] (withFld 2 ready), by decide +kernel⟩⟩

/-- States and operands that meet the hypotheses of `Obligations.SettingCommandsSet`, clause by clause. -/
theorem meets_SettingCommandsSet :
    (∃ (who : Iface) (n : Nat) (s : State), CciServed who s ∧ 8 ≤ n ∧ n ≤ 13) ∧
    (∃ (who : Iface) (n : Nat) (s : State), CciServed who s ∧ (n < 8 ∨ 13 < n)) ∧
    (∃ (who : Iface) (v : Word) (s : State), CciServed who s) ∧
    (∃ (who : Iface) (log : Nat) (hs : List Nat) (s : State), CciServed who s ∧ log < 5) ∧
    (∃ (who : Iface) (log : Nat) (hs : List Nat) (s : State), CciServed who s ∧ log < 5) ∧
    (∃ (who : Iface) (s : State), CciServed who s) :=
  ⟨⟨.i3c, 8, readyI3c, by decide +kernel⟩,
   ⟨.i3c, 14, readyI3c, by decide +kernel⟩,
   ⟨.i3c, 5, readyI3c, by decide +kernel⟩,
   ⟨.i3c, 0, [4], withM (fun m => { m with cci := tset {} m.cci (cciKey .i3c) { events := [(0, 4), (0, 5), (1, 4)] } }) readyI3c, by decide +kernel⟩,
   ⟨.i3c, 0, [4], withM (fun m => { m with cci := tset {} m.cci (cciKey .i3c) { events := [(0, 4), (0, 5), (1, 4)] } }) readyI3c, by decide +kernel⟩,
   ⟨.i3c, readyI3c, by decide +kernel⟩⟩

/-- States and operands that meet the hypotheses of `Obligations.PortAndDeviceCommands`, clause by clause. -/
theorem meets_PortAndDeviceCommands :
    (∃ (who : Iface) (p : Nat) (id : Nat) (s : State), CciServed who s ∧ (role s.m p = 1 ∨ role s.m p = 2) ∧ id < 4080 ∧ p < 128 ∧ (livePorts s.m).any (fun q => q != p && (role s.m q == 1 || role s.m q == 2) && gf s.m F.RTE_PORT_ID_LOCAL [q] == id) = false) ∧
    (∃ (who : Iface) (p : Nat) (s : State), CciServed who s ∧ portExists s.m p = true ∧ role s.m p = 2) ∧
    (∃ (who : Iface) (p : Nat) (body : List Byte) (k : Nat) (s : State), CciServed who s ∧ multiLogical s.m p = true ∧ freeTag s.m = some k) ∧
    (∃ (who : Iface) (p : Nat) (ld : Nat) (reg : Nat) (data : Option Nat) (k : Nat) (s : State), CciServed who s ∧ multiLogical s.m p = true ∧ offersLd s.m p ld = true ∧ freeTag s.m = some k) ∧
    (∃ (who : Iface) (p : Nat) (ld : Nat) (off : Nat) (len : Nat) (k : Nat) (s : State), CciServed who s ∧ multiLogical s.m p = true ∧ offersLd s.m p ld = true ∧ freeTag s.m = some k) ∧
    (∃ (who : Iface) (p : Nat) (ld : Nat) (off : Nat) (len : Nat) (bs : List Byte) (s : State), CciServed who s ∧ multiLogical s.m p = true ∧ offersLd s.m p ld = true ∧ contained s.m p = true) ∧
    (∃ (r : PmReq) (s : State), s.m.pmReqs.find? (fun r => decide (r.since + 200000000 ≤ s.time.now.toNat)) = some r) :=
  ⟨⟨.i3c, 16, 4079, (withLink 16 2 readyI3c), by decide +kernel⟩,
   ⟨.i3c, 16, (withLink 16 2 readyI3c), by decide +kernel⟩,
   ⟨.i3c, 16, [1], 0, withM (fun m => modPort m 16 (fun k => { k with multiLd := true, partner := some { mem := true, multi := true, lds := 0x8001 } })) (withLink 16 2 readyI3c), by decide +kernel⟩,
   ⟨.i3c, 16, 15, 4, none, 0, withM (fun m => modPort m 16 (fun k => { k with multiLd := true, partner := some { mem := true, multi := true, lds := 0x8001 } })) (withLink 16 2 readyI3c), by decide +kernel⟩,
   ⟨.i3c, 16, 15, 64, 4, 0, withM (fun m => modPort m 16 (fun k => { k with multiLd := true, partner := some { mem := true, multi := true, lds := 0x8001 } })) (withLink 16 2 readyI3c), by decide +kernel⟩,
   ⟨.i3c, 16, 15, 64, 2, [1, 2], puts [(F.RAS_FENCE_FSTATE, [16], 1)] (withM (fun m => modPort m 16 (fun k => { k with multiLd := true, partner := some { mem := true, multi := true, lds := 0x8001 } })) (withLink 16 2 readyI3c)), by decide +kernel⟩,
   ⟨⟨16, 3, 4800000000, some .i3c⟩, withM (fun m => { m with pmReqs := [⟨16, 3, 4800000000, some .i3c⟩] }) readyI3c, by decide +kernel⟩⟩

/-- States and operands that meet the hypotheses of `Obligations.VendorCommandsAct`, clause by clause. -/
theorem meets_VendorCommandsAct :
    (∃ (who : Iface) (a : Nat) (r : RegDef) (ix : List Nat) (s : State), CciServed who s ∧ a % 8 = 0 ∧ a < 0xF000000 ∧ regFind a = some (r, ix) ∧ r.base ≠ Reg.FTM_HZ.base ∧ r.base ≠ Reg.RAS_EVQ_POP.base ∧ (gate who a 8 false (noteServed s)).1 = none) ∧
    (∃ (who : Iface) (a : Nat) (v : Word) (r : RegDef) (ix : List Nat) (s : State), fmApi who = true ∧ WriteTakes who a v r ix s) ∧
    (∃ (who : Iface) (max : Nat) (s : State), CciServed who s ∧ 1 ≤ max ∧ max ≤ 255 ∧ (gate who Reg.RAS_EVQ_POP.base 32 false (noteServed s)).1 = none ∧ evqHeld s.m ≠ 0) ∧
    (∃ (who : Iface) (ticket : Nat) (cut : Word) (s : State), fmApi who = true ∧ AmdTakes who 1 ticket s ∧ AmdReady who 0 s) ∧
    (∃ (who : Iface) (items : List (Word × Word × Nat)) (s : State), CciServed who s ∧ items ≠ [] ∧ items.length ≤ 341 ∧ (gate who Reg.AMD_STAGE_ADDR.base 8 true (noteServed s)).1 = none ∧ AmdReady who 1 s ∧ s.m.amd.stage.length + items.length ≤ 262144) :=
  ⟨⟨.i3c, Reg.GLB_ID.base, Reg.GLB_ID, [], readyI3c, by decide +kernel⟩,
   ⟨.i3c, Reg.AMD_CUTOVER.base, 7, Reg.AMD_CUTOVER, [], readyI3c, by decide +kernel⟩,
   ⟨.i3c, 255, puts [(F.RAS_EVQ_PTR_TAIL, [], 1)] readyI3c, by decide +kernel⟩,
   ⟨.i3c, 5, 7, readyI3c, by decide +kernel⟩,
   ⟨.i3c, [(1, 1, 0x7100000)], puts [(F.AMD_INFO_PHASE, [], 1), (F.AMD_INFO_OWNER, [], 3)] readyI3c, by decide +kernel⟩⟩

/-- States and operands that meet the hypotheses of `Obligations.TenancyCommandsBecomeSets`, clause by clause. -/
theorem meets_TenancyCommandsBecomeSets :
    (∃ (f : Nat) (tick : Nat) (acc : List (Nat × Nat)) (rej : List (Nat × Nat)) (a : List (Nat × Nat)) (r : List (Nat × Nat)) (l : List (Nat × Nat)) (s : State), Seals (a.map (fun b => extItem b.2 2) ++ r.map (fun b => extItem b.2 0)) (a.map (fun b => .accept f b.2) ++ r.map (fun b => .reject f b.2)) (expandTick s.time.now.toNat tick + 16000) s ∧ FldServed f s ∧ blocksAll s.m f (acc ++ rej) = some l ∧ blocksAll s.m f acc = some a ∧ blocksAll s.m f rej = some r) ∧
    (∃ (f : Nat) (tick : Nat) (xs : List (Nat × Nat)) (l : List (Nat × Nat)) (s : State), Seals (l.map (fun b => extItem b.2 0)) (l.map (fun b => .released f b.1 b.2)) (expandTick s.time.now.toNat tick + 16000) s ∧ FldServed f s ∧ blocksAll s.m f xs = some l) ∧
    (∃ (who : Iface) (f : Nat) (xs : List (Nat × Nat)) (l : List (Nat × Nat)) (s : State), Seals (l.map (fun b => extItem b.2 1)) (l.map (fun b => .offer f b.2)) (s.time.now.toNat + 16000) (noteServed s) ∧ CciServed who s ∧ blocksAll s.m f xs = some l) ∧
    (∃ (who : Iface) (f : Nat) (xs : List (Nat × Nat)) (l : List (Nat × Nat)) (s : State), Seals (l.map (fun b => extItem b.2 3)) (l.map (fun b => .recall f b.2)) (s.time.now.toNat + 16000) (noteServed s) ∧ CciServed who s ∧ blocksAll s.m f xs = some l ∧ ((cciOf s.m who).bg).any (fun b => !b.done) = false) ∧
    (∃ (who : Iface) (p : Nat) (v : Nat) (q : Nat) (f : Nat) (s : State), Seals [] [.bind f] (s.time.now.toNat + 16000) (noteServed s) ∧ CciServed who s ∧ role s.m p = 1 ∧ gfb s.m F.TEN_PORT_MODEL_MODEL [p] = false ∧ 1 ≤ v ∧ v ≤ 32 ∧ fldAt s.m p (v - 1) = some f) ∧
    (∃ (who : Iface) (p : Nat) (v : Nat) (q : Nat) (s : State), Seals [] [.bindPort p v (q + 1)] (s.time.now.toNat + 16000) (noteServed s) ∧ CciServed who s ∧ role s.m p = 1 ∧ gfb s.m F.TEN_PORT_MODEL_MODEL [p] = false ∧ 33 ≤ v ∧ v ≤ 48 ∧ role s.m q = 2 ∧ tget 0 s.m.vppb (64 * p + v) = 0 ∧ s.m.vppb.any (fun x => x.2 == q + 1) = false) ∧
    (∃ (who : Iface) (p : Nat) (v : Nat) (opt : Nat) (f : Nat) (s : State), Seals [] [.unbind f] (s.time.now.toNat + 16000) (noteServed s) ∧ CciServed who s ∧ role s.m p = 1 ∧ gfb s.m F.TEN_PORT_MODEL_MODEL [p] = false ∧ 1 ≤ v ∧ v ≤ 32 ∧ opt ≤ 2 ∧ fldAt s.m p (v - 1) = some f) ∧
    (∃ (who : Iface) (f : Nat) (r : Nat) (bsz : Nat) (sor : Bool) (s : State), Seals [⟨BitVec.ofNat 64 (bsz * 2 ^ 60 + b2n sor), BitVec.ofNat 64 (15 * 2 ^ 60 + 1), regAddr Reg.TEN_RGN_CFG [f, r]⟩] [] (s.time.now.toNat + 16000) (noteServed s) ∧ CciServed who s ∧ r < 8 ∧ bsz ≤ 9 ∧ f < 4096) :=
  ⟨⟨0, 5000000000, [(0, 2097152)], [(2097152, 2097152)], [(0, 0)], [(0, 1)], [(0, 0), (0, 1)], puts [(F.TEN_FLD_STATUS_BOUND, [0], 1)] (withFld 1 ready), seals_of (by decide +kernel), by decide +kernel⟩,
   ⟨0, 5000000000, [(0, 4194304)], [(0, 0), (0, 1)], puts [(F.TEN_FLD_STATUS_BOUND, [0], 1)] (withFld 3 ready), seals_of (by decide +kernel), by decide +kernel⟩,
   ⟨.i3c, 0, [(0, 4194304)], [(0, 0), (0, 1)], withFld 0 readyI3c, seals_of (by decide +kernel), by decide +kernel⟩,
   ⟨.i3c, 0, [(0, 4194304)], [(0, 0), (0, 1)], withFld 2 readyI3c, seals_of (by decide +kernel), by decide +kernel⟩,
   ⟨.i3c, 0, 1, 0, 0, withFld 0 readyI3c, seals_of (by decide +kernel), by decide +kernel⟩,
   ⟨.i3c, 0, 48, 16, withLink 16 2 (puts [(F.RTE_PORT_ID_LOCAL, [16], 5)] (withFld 0 readyI3c)), seals_of (by decide +kernel), by decide +kernel⟩,
   ⟨.i3c, 0, 1, 2, 0, puts [(F.TEN_FLD_STATUS_BOUND, [0], 1)] (withFld 0 readyI3c), seals_of (by decide +kernel), by decide +kernel⟩,
   ⟨.i3c, 0, 1, 9, true, withFld 0 readyI3c, seals_of (by decide +kernel), by decide +kernel⟩⟩

/-- States and operands that meet the hypotheses of `Obligations.SanitizeAndBarrier`, clause by clause. -/
theorem meets_SanitizeAndBarrier :
    (∃ (e : Nat) (f : Nat) (r : Nat) (e' : Nat) (tick : Nat) (s : State), s.m.eng.toSanitize.find? (fun x => x.2.2.1 == e) = some (f, r, e', tick) ∧ earlierDone s.m f tick = true) ∧
    (∃ (e : Nat) (f : Nat) (r : Nat) (e' : Nat) (tick : Nat) (s : State), s.m.eng.toSanitize.find? (fun x => x.2.2.1 == e) = some (f, r, e', tick) ∧ earlierDone s.m f tick = false) ∧
    (∃ (s : State), gf s.m F.GRD_BARRIER_PENDING [] = 1) :=
  ⟨⟨0, 0, 0, 0, 4000000000, withM (fun m => { m with eng := { m.eng with toSanitize := [(0, 0, 0, 4000000000)] } }) (withFld 0 ready), by decide +kernel⟩,
   ⟨0, 0, 0, 0, 6000000000, withM (fun m => { m with eng := { m.eng with toSanitize := [(0, 0, 0, 6000000000)], parcels := [] }, sof := { m.sof with transit := [⟨1, { h := { kind := .memRd }, pm := ⟨5000000000, 0, 0⟩, mc := 2, sc := 0, src := 0, dst := 0, att := 0, n := 1, fld := some 0 }, 0, .slice 0, [], .flying, [], []⟩] } }) (withFld 0 ready), by decide +kernel⟩,
   ⟨puts [(F.GRD_BARRIER_PENDING, [], 1)] ready, by decide +kernel⟩⟩

/-- States and operands that meet the hypotheses of `Obligations.SensorsAndTransports`, clause by clause. -/
theorem meets_SensorsAndTransports :
    (∃ (a : Nat) (s : State), s.m.inl.on = true ∧ s.m.fw.recovery = false ∧ a % 128 ≠ 0) ∧
    (∃ (who : Iface) (e : Nat) (s : State), mctp who = true ∧ Served who s) ∧
    (∃ (who : Iface) (s : State), mctp who = true ∧ Served who s) ∧
    (∃ (who : Iface) (k : Nat) (s : State), mctp who = true ∧ Served who s) ∧
    (∃ (who : Iface) (n : Nat) (v : Nat) (s : State), mctp who = true ∧ Served who s ∧ sensorReading s.m n = some v) ∧
    (∃ (v : Sensors) (s : State), s.m.inl.on = true) :=
  ⟨⟨136, ready, by decide +kernel⟩,
   ⟨.i3c, 9, readyI3c, by decide +kernel⟩,
   ⟨.i3c, readyI3c, by decide +kernel⟩,
   ⟨.i3c, 9, readyI3c, by decide +kernel⟩,
   ⟨.i3c, 8, degrees 0, readyI3c, by decide +kernel⟩,
   ⟨{ tj := 400, vin := 70000 }, ready, by decide +kernel⟩⟩

/-- States and operands that meet the hypotheses of `Obligations.SpdmResponderAnswers`, clause by clause. -/
theorem meets_SpdmResponderAnswers :
    (∃ (who : Iface) (s : State), spdmReaches s who = true ∧ s.m.fw.handEnd = 0) ∧
    (∃ (who : Iface) (chain : List Byte) (s : State), spdmReaches s who = true ∧ s.m.fw.handEnd = 0 ∧ chain ≠ [] ∧ s.m.sec.sessions.contains (connOf who) = true ∧ s.m.sec.mutual_.contains (connOf who) = true) ∧
    (∃ (who : Iface) (slot : Nat) (chain : List Byte) (s : State), spdmReaches s who = true ∧ s.m.fw.handEnd = 0 ∧ s.m.sec.mutual_.contains (connOf who) = false) :=
  ⟨⟨.i3c, withM (fun m => { m with sec := { opening := [.i3c], sessions := [.i3c] } }) readyI3c, by decide +kernel⟩,
   ⟨.i3c, [1], withM (fun m => { m with sec := { sessions := [.i3c], mutual_ := [.i3c] } }) readyI3c, by decide +kernel⟩,
   ⟨.i3c, 1, [1], readyI3c, by decide +kernel⟩⟩

/-- States and operands that meet the hypotheses of `Obligations.IdeStreams`, clause by clause. -/
theorem meets_IdeStreams :
    (∃ (p : Nat) (cm : Bool) (link : Bool) (sel : Nat) (s : State), p < 128 ∧ spdmReaches s (.doe p) = true ∧ (role s.m p = 2 ∨ s.m.sec.sessions.contains (.doe p) = true)) ∧
    (∃ (p : Nat) (s : State), portExists s.m p = true ∧ (role s.m p = 1 ∨ role s.m p = 2) ∧ ideActive s.m p = true ∧ gfb s.m F.STN_LINK_STATUS_DL_UP (st p) = true) :=
  ⟨⟨16, true, true, 1, withLink 16 2 ready, by decide +kernel⟩,
   ⟨16, puts [(F.SEC_IDE_STATUS_CM_SECURE, [16], 1)] (withLink 16 2 ready), by decide +kernel⟩⟩

/-- States and operands that meet the hypotheses of `Obligations.FirmwareTransfer`, clause by clause. -/
theorem meets_FirmwareTransfer :
    (∃ (mac : Nat) (sess : Bool) (seq : Nat) (len : Nat) (ticket : Nat) (s : State), BrumServed { writes := true, rom := true } mac sess seq s ∧ tokenBars s (.brumin mac sess) = false ∧ fwBeginBad s.m len = none) ∧
    (∃ (mac : Nat) (sess : Bool) (seq : Nat) (idx : Nat) (k : Nat) (len : Nat) (body : List Byte) (s : State), BrumServed { writes := true, rom := true } mac sess seq s ∧ tokenBars s (.brumin mac sess) = false ∧ s.m.fw.xfer = some (k, len) ∧ body.length = 1024 ∧ 1024 * idx < len ∧ 4 ≤ idx) ∧
    (∃ (mac : Nat) (sess : Bool) (seq : Nat) (idx : Nat) (k : Nat) (len : Nat) (body : List Byte) (s : State), BrumServed { writes := true, rom := true } mac sess seq s ∧ tokenBars s (.brumin mac sess) = false ∧ s.m.fw.xfer = some (k, len) ∧ body.length = 1024 ∧ 1024 * idx < len ∧ idx < 4) ∧
    (∃ (mac : Nat) (sess : Bool) (seq : Nat) (k : Nat) (len : Nat) (sig : Bool) (f : BootFacts) (s : State), BrumServed { writes := true, rom := true } mac sess seq s ∧ tokenBars s (.brumin mac sess) = false ∧ s.m.fw.xfer = some (k, len) ∧ fwEndFault s (withHeld s.mram k s.m.fw) k len sig ≠ 0) ∧
    (∃ (mac : Nat) (sess : Bool) (seq : Nat) (k : Nat) (len : Nat) (sig : Bool) (f : BootFacts) (s : State), BrumServed { writes := true, rom := true } mac sess seq s ∧ tokenBars s (.brumin mac sess) = false ∧ s.m.fw.xfer = some (k, len) ∧ fwEndFault s (withHeld s.mram k s.m.fw) k len sig = 0 ∧ s.m.fw.recovery = false) ∧
    (∃ (mac : Nat) (sess : Bool) (seq : Nat) (k : Nat) (len : Nat) (sig : Bool) (f : BootFacts) (s : State), BrumServed { writes := true, rom := true } mac sess seq s ∧ tokenBars s (.brumin mac sess) = false ∧ s.m.fw.xfer = some (k, len) ∧ fwEndFault s (withHeld s.mram k s.m.fw) k len sig = 0 ∧ s.m.fw.recovery = true ∧ powered s.m = false) ∧
    (∃ (mac : Nat) (sess : Bool) (seq : Nat) (k : Nat) (len : Nat) (s : State), BrumServed { writes := true, rom := true } mac sess seq s ∧ tokenBars s (.brumin mac sess) = false ∧ s.m.fw.xfer = some (k, len) ∧ s.m.fw.act = 0) :=
  ⟨⟨7, false, 1, 33550336, 5, ready, by decide +kernel⟩,
   ⟨7, false, 1, 15, 1, 16384, List.replicate 1024 1, withM (fun m => modFw m (fun f => { f with xfer := some (1, 16384), got := [] })) ready, by decide +kernel⟩,
   ⟨7, false, 1, 3, 1, 16384, List.replicate 1024 1, withM (fun m => modFw m (fun f => { f with xfer := some (1, 16384), got := [] })) ready, by decide +kernel⟩,
   ⟨7, false, 1, 1, 16384, true, {}, withM (fun m => modFw m (fun f => { f with xfer := some (1, 16384), got := [] })) ready, by decide +kernel⟩,
   ⟨7, false, 1, 1, 16384, true, {}, withM (fun m => modFw m (fun f => { f with xfer := some (1, 16384), got := List.range 16 })) { ready with mram := bundleCells }, by decide +kernel⟩,
   ⟨7, false, 1, 1, 16384, true, {}, withM (fun m => modFw m (fun f => { f with xfer := some (1, 16384), got := List.range 16, recovery := true })) (puts [(F.INL_STATUS_PWRGD, [], 0)] ({ ready with mram := bundleCells })), by decide +kernel⟩,
   ⟨7, false, 1, 1, 16384, withM (fun m => modFw m (fun f => { f with xfer := some (1, 16384), got := [] })) ready, by decide +kernel⟩⟩

/-- States and operands that meet the hypotheses of `Obligations.FirmwareActivation`, clause by clause. -/
theorem meets_FirmwareActivation :
    (∃ (mac : Nat) (sess : Bool) (seq : Nat) (ticket : Nat) (s : State), BrumServed { writes := true, rom := true } mac sess seq s ∧ tokenBars s (.brumin mac sess) = false ∧ activateBad (bruminSeen mac s) (targetSlot s.m) = none ∧ unsettled s.m = true) ∧
    (∃ (mac : Nat) (sess : Bool) (seq : Nat) (ticket : Nat) (s : State), BrumServed { writes := true, rom := true } mac sess seq s ∧ tokenBars s (.brumin mac sess) = false ∧ activateBad (bruminSeen mac s) (targetSlot s.m) = none ∧ unsettled s.m = false ∧ 2 ≤ gf s.m F.RAS_AVAIL_PM_PAIRS [] ∧ s.m.fw.faulted = 0) ∧
    (∃ (s : State), s.m.fw.act = 1 ∧ unsettled s.m = true ∧ s.m.fw.actAt + 4000000000 ≤ s.time.now.toNat) ∧
    (∃ (sig : Bool) (s : State), fwPasses s s.m.fw.actSlot sig = true ∧ s.m.fw.act = 2) ∧
    (∃ (ok : Bool) (sig : Bool) (s : State), s.m.fw.act = 2 ∧ (ok && fwPasses s s.m.fw.actSlot sig) = false) :=
  ⟨⟨7, false, 1, 5, puts [(F.STN_CRL_STATUS_CSTATE, st 16, 2)] (withPort 16 3 ({ ready with mram := bundleCells })), by decide +kernel⟩,
   ⟨7, false, 1, 5, { ready with mram := bundleCells }, by decide +kernel⟩,
   ⟨withM (fun m => modFw m (fun f => { f with act := 1, actSlot := 1, actAt := 1000000000 })) (puts [(F.STN_CRL_STATUS_CSTATE, st 16, 2)] (withPort 16 3 ready)), by decide +kernel⟩,
   ⟨true, withM (fun m => modFw m (fun f => { f with act := 2, actSlot := 1, served := false })) ({ ready with mram := bundleCells }), bundle_passes rfl rfl, by decide +kernel⟩,
   ⟨false, true, withM (fun m => modFw m (fun f => { f with act := 2, actSlot := 1, served := false })) ({ ready with mram := bundleCells }), by decide +kernel⟩⟩

/-- States and operands that meet the hypotheses of `Obligations.FirmwareTrialAndRollout`, clause by clause. -/
theorem meets_FirmwareTrialAndRollout :
    (∃ (s : State), s.m.fw.act = 4 ∧ s.m.fw.handEnd = 0 ∧ trialFit s.m = true ∧ s.m.fw.actSlot < 2) ∧
    (∃ (s : State), s.m.fw.act = 4 ∧ s.m.fw.actAt + 40000000000 ≤ s.time.now.toNat) ∧
    (∃ (s : State), s.m.fw.act = 6) ∧
    (∃ (k : Nat) (s : State), s.m.fw.act = 7 ∧ (staleStations s.m).head? = some k) ∧
    (∃ (k : Nat) (s : State), s.m.fw.act = 7 ∧ (staleStations s.m).head? = some k) :=
  ⟨⟨withM (fun m => modFw m (fun f => { f with act := 4, actSlot := 1, served := true })) ({ ready with mram := bundleCells }), by decide +kernel⟩,
   ⟨withM (fun m => modFw m (fun f => { f with act := 4, actSlot := 1, actAt := 10000000000 })) ({ ready with time := { now := 50000000000, up := 50000000000 } }), by decide +kernel⟩,
   ⟨withM (fun m => modFw m (fun f => { f with act := 6, actSlot := 1, served := true })) ready, by decide +kernel⟩,
   ⟨0, withM (fun m => modFw m (fun f => { f with act := 7, actSlot := 1, served := true })) ready, by decide +kernel⟩,
   ⟨0, withM (fun m => modFw m (fun f => { f with act := 7, actSlot := 1, served := true })) ready, by decide +kernel⟩⟩

/-- States and operands that meet the hypotheses of `Obligations.MonitoringCommands`, clause by clause. -/
theorem meets_MonitoringCommands :
    (∃ (c : Nat) (v : Nat) (s : State), c < 2048) ∧
    (∃ (w : Nat) (s : State), bwLen s.m ≠ 0 ∧ s.time.now.toNat / bwLen s.m = w + 1 ∧ s.m.pmu.bwNext = (w + 1) * bwLen s.m) ∧
    (∃ (win : Nat) (s : State), win ≤ 1000000) ∧
    (∃ (w : Word) (s : State), trkReserved s.m w = false ∧ getBits w 63 63 = 1 ∧ gf s.m F.PMU_TRK_CFG_EN [] = 0) ∧
    (∃ (w : Word) (s : State), trkReserved s.m w = false ∧ BitVec.ofNat 64 (w.toNat &&& Reg.PMU_TRK_CFG.rw) = rd s.m Reg.PMU_TRK_CFG []) ∧
    (∃ (v : Nat) (s : State), (v % 8192 + 8192 - gf s.m F.PMU_TRK_PTR_HEAD []) % 8192 ≤ (gf s.m F.PMU_TRK_PTR_TAIL [] + 8192 - gf s.m F.PMU_TRK_PTR_HEAD []) % 8192) ∧
    (∃ (v : Nat) (s : State), (gf s.m F.PMU_TRK_PTR_TAIL [] + 8192 - gf s.m F.PMU_TRK_PTR_HEAD []) % 8192 < (v % 8192 + 8192 - gf s.m F.PMU_TRK_PTR_HEAD []) % 8192) ∧
    (∃ (slot : Nat) (lap : Nat) (s : State), slot < gf s.m F.PMU_RD_CFG_CAP [] ∧ slot < 2 ^ 27 ∧ (rdPos (gf s.m F.PMU_RD_CFG_CAP []) slot (lap % 2) + 2 * gf s.m F.PMU_RD_CFG_CAP [] - rdPos (gf s.m F.PMU_RD_CFG_CAP []) (gf s.m F.PMU_RD_PTR_HEAD []) (gf s.m F.PMU_RD_PTR_HEAD_LAP [])) % (2 * gf s.m F.PMU_RD_CFG_CAP []) ≤ (rdPos (gf s.m F.PMU_RD_CFG_CAP []) (gf s.m F.PMU_RD_PTR_TAIL []) (gf s.m F.PMU_RD_PTR_TAIL_LAP []) + 2 * gf s.m F.PMU_RD_CFG_CAP [] - rdPos (gf s.m F.PMU_RD_CFG_CAP []) (gf s.m F.PMU_RD_PTR_HEAD []) (gf s.m F.PMU_RD_PTR_HEAD_LAP [])) % (2 * gf s.m F.PMU_RD_CFG_CAP [])) ∧
    (∃ (slot : Nat) (lap : Nat) (s : State), (gf s.m F.PMU_RD_CFG_CAP [] ≤ slot ∨ (rdPos (gf s.m F.PMU_RD_CFG_CAP []) (gf s.m F.PMU_RD_PTR_TAIL []) (gf s.m F.PMU_RD_PTR_TAIL_LAP []) + 2 * gf s.m F.PMU_RD_CFG_CAP [] - rdPos (gf s.m F.PMU_RD_CFG_CAP []) (gf s.m F.PMU_RD_PTR_HEAD []) (gf s.m F.PMU_RD_PTR_HEAD_LAP [])) % (2 * gf s.m F.PMU_RD_CFG_CAP []) < (rdPos (gf s.m F.PMU_RD_CFG_CAP []) slot (lap % 2) + 2 * gf s.m F.PMU_RD_CFG_CAP [] - rdPos (gf s.m F.PMU_RD_CFG_CAP []) (gf s.m F.PMU_RD_PTR_HEAD []) (gf s.m F.PMU_RD_PTR_HEAD_LAP [])) % (2 * gf s.m F.PMU_RD_CFG_CAP []))) ∧
    (∃ (v : Nat) (s : State), (v % 8192 + 8192 - gf s.m F.RAS_LOG_PTR_HEAD []) % 8192 ≤ (gf s.m F.RAS_LOG_PTR_TAIL [] + 8192 - gf s.m F.RAS_LOG_PTR_HEAD []) % 8192) ∧
    (∃ (v : Nat) (s : State), (gf s.m F.RAS_LOG_PTR_TAIL [] + 8192 - gf s.m F.RAS_LOG_PTR_HEAD []) % 8192 < (v % 8192 + 8192 - gf s.m F.RAS_LOG_PTR_HEAD []) % 8192) ∧
    (∃ (v : Nat) (s : State), (v % 4096 + 4096 - gf s.m F.RAS_DL_PTR_HEAD []) % 4096 ≤ (gf s.m F.RAS_DL_PTR_TAIL [] + 4096 - gf s.m F.RAS_DL_PTR_HEAD []) % 4096) ∧
    (∃ (v : Nat) (s : State), (gf s.m F.RAS_DL_PTR_TAIL [] + 4096 - gf s.m F.RAS_DL_PTR_HEAD []) % 4096 < (v % 4096 + 4096 - gf s.m F.RAS_DL_PTR_HEAD []) % 4096) ∧
    (∃ (s : State), gf s.m F.PMU_BW_CFG_WIN [] = 0) :=
  ⟨⟨2047, 5, ready, by decide +kernel⟩,
   ⟨1249, withM (fun m => { m with pmu := { m.pmu with bwNext := 5000000000 } }) ready, by decide +kernel⟩,
   ⟨1000000, ready, by decide +kernel⟩,
   ⟨0x8000000000000001, ready, by decide +kernel⟩,
   ⟨BitVec.ofNat 64 Reg.PMU_TRK_CFG.rst, ready, by decide +kernel⟩,
   ⟨2, puts [(F.PMU_TRK_PTR_TAIL, [], 2)] ready, by decide +kernel⟩,
   ⟨3, puts [(F.PMU_TRK_PTR_TAIL, [], 2)] ready, by decide +kernel⟩,
   ⟨3, 0, puts [(F.PMU_RD_CFG_CAP, [], 4), (F.PMU_RD_PTR_TAIL, [], 3)] ready, by decide +kernel⟩,
   ⟨4, 0, puts [(F.PMU_RD_CFG_CAP, [], 4), (F.PMU_RD_PTR_TAIL, [], 3)] ready, by decide +kernel⟩,
   ⟨2, puts [(F.RAS_LOG_PTR_TAIL, [], 2)] ready, by decide +kernel⟩,
   ⟨3, puts [(F.RAS_LOG_PTR_TAIL, [], 2)] ready, by decide +kernel⟩,
   ⟨2, puts [(F.RAS_DL_PTR_TAIL, [], 2)] ready, by decide +kernel⟩,
   ⟨3, puts [(F.RAS_DL_PTR_TAIL, [], 2)] ready, by decide +kernel⟩,
   ⟨puts [(F.PMU_BW_CFG_WIN, [], 0)] ready, by decide +kernel⟩⟩

/-- States and operands that meet the hypotheses of `Obligations.PowerDomainsChange`, clause by clause. -/
theorem meets_PowerDomainsChange :
    (∃ (d : Nat) (s : State), 8 ≤ d ∧ d < 24 ∧ domainState s.m d = 1) ∧
    (∃ (d : Nat) (s : State), d < 8 ∧ domainState s.m d = 1) ∧
    (∃ (d : Nat) (oc : Bool) (lr : Bool) (s : State), 20 ≤ d ∧ d < 24 ∧ (oc = true ∨ lr = true) ∧ (domainState s.m d = 1 ∨ domainState s.m d = 2) ∧ gf s.m (planeField (d - 20)) [] ≠ 0) ∧
    (∃ (d : Nat) (oc : Bool) (lr : Bool) (s : State), d < 24 ∧ (oc = true ∨ lr = true) ∧ (domainState s.m d = 1 ∨ domainState s.m d = 2)) :=
  ⟨⟨23, puts [(F.INL_PD_STATUS_STATE, [], 4 ^ 23)] ready, by decide +kernel⟩,
   ⟨7, puts [(F.INL_PD_STATUS_STATE, [], 4 ^ 7)] ready, by decide +kernel⟩,
   ⟨20, true, false, puts [(F.SOF_PLANE_STATUS_PL0_STATE, [], 1)] ready, by decide +kernel⟩,
   ⟨12, false, true, ready, by decide +kernel⟩⟩

/-- States and operands that meet the hypotheses of `Obligations.FatalFaultsAndSramEntries`, clause by clause. -/
theorem meets_FatalFaultsAndSramEntries :
    (∃ (code : Nat) (s : State), 1 ≤ code ∧ code ≤ 4) ∧
    (∃ (addr : Nat) (r : RegDef) (ix : List Nat) (s : State), regFind addr = some (r, ix) ∧ regAddr r ix = addr ∧ r.cfg ≠ 0 ∧ r.cfg < 2 ^ 64 ∧ s.m.sram.any (fun x => x.1 == addr) = false) ∧
    (∃ (addr : Nat) (r : RegDef) (ix : List Nat) (s : State), regFind addr = some (r, ix) ∧ regAddr r ix = addr ∧ r.cfg ≠ 0 ∧ r.cfg < 2 ^ 64 ∧ s.m.sram.any (fun x => x.1 == addr) = true ∧ rd s.m r ix &&& BitVec.ofNat 64 r.cfg = 0) :=
  ⟨⟨4, ready, by decide +kernel⟩,
   ⟨0x7100000, Reg.GRD_RULE_BASE, [0], puts [(F.GRD_RULE_BASE_BASE, [0], 5)] ready, by decide +kernel⟩,
   ⟨0x7100000, Reg.GRD_RULE_BASE, [0], withM (fun m => { m with sram := [(0x7100000, 5)] }) ready, by decide +kernel⟩⟩

/-- States and operands that meet the hypotheses of `Obligations.UnitsAreLost`, clause by clause. -/
theorem meets_UnitsAreLost :
    (∃ (sl : Nat) (seq : Nat) (i : Item) (s : State), itemOf s.m sl seq = some i) ∧
    (∃ (n : Nat) (s : State), n < 4 ∧ quadServing s.m n = true ∧ quadServing s.m (n ^^^ 1) = true) ∧
    (∃ (n : Nat) (parity : Bool) (s : State), n < 4 ∧ quadServing s.m n = false ∧ quadServing s.m (n ^^^ 1) = true ∧ gf s.m F.HQ_SLICE_MAP_SERVED_BY [n] = n) ∧
    (∃ (b : Nat) (s : State), b < 8 ∧ bitAt (gf s.m F.RAS_AVAIL_HBM_LOST []) b = false) ∧
    (∃ (b : Nat) (s : State), bitAt (gf s.m F.RAS_AVAIL_HBM_LOST []) b = true) :=
  ⟨⟨63, 1, { seq := 1, msg := msgOf .memRd 4000000000, work := .ncRead, line := 0, data := 0, mask := 0, poison := false, tick := 4000000000, dtick := 4000000000 }, withM (fun m => modSlice m 63 (fun _ => { items := [{ seq := 1, msg := msgOf .memRd 4000000000, work := .ncRead, line := 0, data := 0, mask := 0, poison := false, tick := 4000000000, dtick := 4000000000 }] })) ready, by decide +kernel⟩,
   ⟨3, ready, by decide +kernel⟩,
   ⟨0, true, puts [(F.RAS_AVAIL_QUAD_LOST, [], 1)] ready, by decide +kernel⟩,
   ⟨7, ready, by decide +kernel⟩,
   ⟨7, puts [(F.RAS_AVAIL_HBM_LOST, [], 128)] ready, by decide +kernel⟩⟩

/-- States and operands that meet the hypotheses of `Obligations.PostmasterPairsFailOver`, clause by clause. -/
theorem meets_PostmasterPairsFailOver :
    (∃ (s : State), 2 ≤ gf s.m F.RAS_AVAIL_PM_PAIRS [] ∧ s.m.fw.faulted = 0 ∧ s.m.fw.handEnd = 0 ∧ s.m.fw.act = 0) ∧
    (∃ (s : State), gf s.m F.RAS_AVAIL_PM_PAIRS [] = 1) ∧
    (∃ (s : State), s.m.fw.faulted ≠ 0) ∧
    (∃ (s : State), s.m.fw.faulted ≠ 0) :=
  ⟨⟨ready, by decide +kernel⟩,
   ⟨puts [(F.RAS_AVAIL_PM_PAIRS, [], 1)] ready, by decide +kernel⟩,
   ⟨withM (fun m => modFw m (fun f => { f with faulted := 1 })) ready, by decide +kernel⟩,
   ⟨withM (fun m => modFw m (fun f => { f with faulted := 1 })) ready, by decide +kernel⟩⟩

/-- States and operands that meet the hypotheses of `Obligations.LinksTrainAndFall`, clause by clause. -/
theorem meets_LinksTrainAndFall :
    (∃ (p : Nat) (mode : Nat) (x : Partner) (s : State), mayTrain s.m p = true ∧ modeFor s.m p x = some mode) ∧
    (∃ (p : Nat) (x : Partner) (s : State), mayTrain s.m p = true ∧ modeFor s.m p x = none) ∧
    (∃ (p : Nat) (n : Nat) (cut : Option (Hdr × Nat × Nat)) (s : State), HostOrMember s.m p ∧ gf s.m F.STN_LINK_STATUS_DL_UP (st p) = 1 ∧ fstate s.m p = 0) ∧
    (∃ (p : Nat) (n : Nat) (cut : Option (Hdr × Nat × Nat)) (s : State), portExists s.m p = true ∧ role s.m p = 3 ∧ gf s.m F.STN_LINK_STATUS_DL_UP (st p) = 1 ∧ gf s.m F.STN_CRL_STATUS_CSTATE (st p) = 3 ∧ gf s.m F.STN_CRL_CFG_HOLD_MS (st p) ≠ 0) ∧
    (∃ (p : Nat) (ls : Nat) (rate : Nat) (width : Nat) (s : State), portExists s.m p = true ∧ gf s.m F.STN_LINK_STATUS_DL_UP (st p) = 1 ∧ stateAllowed s.m p ls rate width = true) ∧
    (∃ (p : Nat) (s : State), p < 128 ∧ gf s.m F.STN_LINK_STATUS_DL_UP (st p) = 1) ∧
    (∃ (p : Nat) (code : Nat) (s : State), p < 128 ∧ code < 5) ∧
    (∃ (p : Nat) (code : Nat) (s : State), 5 ≤ code) ∧
    (∃ (p : Nat) (s : State), portExists s.m p = true ∧ role s.m p = 1 ∧ gf s.m F.STN_LINK_STATUS_DL_UP (st p) = 1 ∧ fstate s.m p = 0) ∧
    (∃ (p : Nat) (s : State), portExists s.m p = true ∧ role s.m p = 1 ∧ gf s.m F.STN_LINK_STATUS_DL_UP (st p) = 0 ∧ fstate s.m p ≠ 1) :=
  ⟨⟨0, 2, { lopt := true }, withPort 0 1 ready, by decide +kernel⟩,
   ⟨0, { offer := 3 }, withPort 0 1 ready, by decide +kernel⟩,
   ⟨16, 0, none, withLink 16 2 ready, by decide +kernel⟩,
   ⟨16, 0, none, puts [(F.STN_CRL_CFG_HOLD_MS, st 16, 5)] (withCourier 3 {} ready), by decide +kernel⟩,
   ⟨16, 0, 6, 5, withLink 16 2 ready, by decide +kernel⟩,
   ⟨124, withLink 124 1 ready, by decide +kernel⟩,
   ⟨127, 4, ready, by decide +kernel⟩,
   ⟨0, 5, ready, by decide +kernel⟩,
   ⟨0, withLink 0 1 ready, by decide +kernel⟩,
   ⟨0, puts [(F.RAS_FENCE_FSTATE, [0], 2), (F.STN_LINK_STATUS_CONTAINED, st 0, 1)] (withPort 0 1 ready), by decide +kernel⟩⟩

/-- States and operands that meet the hypotheses of `Obligations.SidebandLandsFollow`, clause by clause. -/
theorem meets_SidebandLandsFollow :
    (∃ (p : Nat) (s : State), portExists s.m p = true ∧ role s.m p = 1) ∧
    (∃ (p : Nat) (s : State), portExists s.m p = true ∧ role s.m p = 1) ∧
    (∃ (p : Nat) (s : State), portExists s.m p = true ∧ (role s.m p = 2 ∨ role s.m p = 3)) ∧
    (∃ (p : Nat) (s : State), portExists s.m p = true ∧ role s.m p = 2) ∧
    (∃ (p : Nat) (s : State), mayRelease s.time.now.toNat s.m p = true) ∧
    (∃ (p : Nat) (s : State), portExists s.m p = true ∧ role s.m p = 2) ∧
    (∃ (p : Nat) (s : State), p < 128) :=
  ⟨⟨0, withLink 0 1 ready, by decide +kernel⟩,
   ⟨0, withPort 0 1 ready, by decide +kernel⟩,
   ⟨16, withPort 16 2 ready, by decide +kernel⟩,
   ⟨16, withLink 16 2 ready, by decide +kernel⟩,
   ⟨16, withM (fun m => modPort m 16 (fun k => { k with presentSince := 4600000001 })) (withPort 16 2 ready), by decide +kernel⟩,
   ⟨16, withLink 16 2 ready, by decide +kernel⟩,
   ⟨127, ready, by decide +kernel⟩⟩

/-- States and operands that meet the hypotheses of `Obligations.MembersFailAndReturn`, clause by clause. -/
theorem meets_MembersFailAndReturn :
    (∃ (p : Nat) (c : Instr) (s : State), (c = .rejoin p ∨ c = .dpcTriggerStatusClear p) ∧ portExists s.m p = true ∧ role s.m p = 2 ∧ gf s.m F.STN_LINK_STATUS_READY (st p) = 0 ∧ gf s.m F.STN_LINK_STATUS_DL_UP (st p) = 1 ∧ fstate s.m p = 2 ∧ joinFail s.m p = 0) ∧
    (∃ (p : Nat) (c : Instr) (s : State), (c = .rejoin p ∨ c = .dpcTriggerStatusClear p) ∧ portExists s.m p = true ∧ role s.m p = 2 ∧ gf s.m F.STN_LINK_STATUS_READY (st p) = 0 ∧ gf s.m F.STN_LINK_STATUS_DL_UP (st p) = 1 ∧ fstate s.m p = 2 ∧ joinFail s.m p ≠ 0) ∧
    (∃ (p : Nat) (s : State), portExists s.m p = true ∧ role s.m p = 2 ∧ gf s.m F.STN_LINK_STATUS_READY (st p) = 0 ∧ gf s.m F.STN_LINK_STATUS_DL_UP (st p) = 0) ∧
    (∃ (p : Nat) (tick : Nat) (slot : Nat) (s : State), portExists s.m p = true ∧ role s.m p = 2 ∧ fstate s.m p = 0) ∧
    (∃ (p : Nat) (tick : Nat) (slot : Nat) (s : State), portExists s.m p = true ∧ role s.m p = 2) ∧
    (∃ (p : Nat) (x : Nat) (s : State), portExists s.m p = true ∧ role s.m p = 2 ∧ fstate s.m p = 0 ∧ gf s.m F.STN_PORT_CFG_MEM_TO (st p) ≠ 0 ∧ memExpiry s.m p = some x ∧ x ≤ s.time.now.toNat) ∧
    (∃ (p : Nat) (tick : Nat) (slot : Nat) (s : State), HostOrMember s.m p ∧ gf s.m F.STN_LINK_STATUS_DL_UP (st p) = 1 ∧ fstate s.m p = 0 ∧ gf s.m F.STN_PORT_CFG_VIRAL_DOM (st p) = 0) ∧
    (∃ (p : Nat) (tick : Nat) (slot : Nat) (s : State), HostOrMember s.m p ∧ gf s.m F.STN_LINK_STATUS_DL_UP (st p) = 1 ∧ gf s.m F.STN_PORT_CFG_VIRAL_DOM (st p) ≠ 0) :=
  ⟨⟨16, .rejoin 16, puts [(F.STN_LINK_STATUS_READY, st 16, 0), (F.STN_LINK_STATUS_CONTAINED, st 16, 1), (F.RAS_FENCE_FSTATE, [16], 2)] (withLink 16 2 ready), by decide +kernel⟩,
   ⟨16, .dpcTriggerStatusClear 16, puts [(F.STN_LINK_STATUS_READY, st 16, 0), (F.STN_LINK_STATUS_CONTAINED, st 16, 1), (F.RAS_FENCE_FSTATE, [16], 2), (F.SEC_IDE_CFG_IDE_REQ, [16], 1)] (withLink 16 2 ready), by decide +kernel⟩,
   ⟨16, withPort 16 2 ready, by decide +kernel⟩,
   ⟨16, 5000000000, 15, withLink 16 2 ready, by decide +kernel⟩,
   ⟨16, 5000000000, 15, withLink 16 2 ready, by decide +kernel⟩,
   ⟨16, 80001000, withM (fun m => modSlice m 0 (fun _ => { accesses := [⟨1, 0, 16, .read 1, 0, 0, false, ⟨0, 0, 0⟩, 1000⟩] })) (withLink 16 2 ready), by decide +kernel⟩,
   ⟨0, 5000000000, 15, withLink 0 1 ready, by decide +kernel⟩,
   ⟨0, 5000000000, 15, puts [(F.STN_PORT_CFG_VIRAL_DOM, st 0, 63)] (withLink 0 1 ready), by decide +kernel⟩⟩

/-- States and operands that meet the hypotheses of `Obligations.FencesContainAndComplete`, clause by clause. -/
theorem meets_FencesContainAndComplete :
    (∃ (ticket : Nat) (p : Nat) (s : State), p < 128 ∧ (role s.m p = 1 ∨ role s.m p = 2) ∧ fstate s.m p = 0) ∧
    (∃ (ticket : Nat) (p : Nat) (s : State), p < 128 ∧ (role s.m p = 1 ∨ role s.m p = 2) ∧ fstate s.m p ≠ 0) ∧
    (∃ (ticket : Nat) (p : Nat) (s : State), role s.m p ≠ 1 ∧ role s.m p ≠ 2) ∧
    (∃ (p : Nat) (c : Nat) (s : State), p < 128 ∧ c < 8 ∧ (role s.m p = 1 ∨ role s.m p = 2) ∧ fstate s.m p = 0 ∧ gf s.m F.SOF_MC_CFG_STALL_MS [p] ≠ 0 ∧ (egOf s.m p).stallFrom.getD c 0 ≠ 0 ∧ mayBegin s.time.now.toNat s.m p c = true ∧ (egOf s.m p).stallFrom.getD c 0 - 1 + gf s.m F.SOF_MC_CFG_STALL_MS [p] * 4000000 ≤ s.time.now.toNat) ∧
    (∃ (p : Nat) (s : State), p < 128 ∧ role s.m p = 1 ∧ fstate s.m p = 1 ∧ fenceSettled s.m p = true ∧ (portOf s.m p).resetHeld = false) ∧
    (∃ (p : Nat) (s : State), p < 128 ∧ role s.m p = 1 ∧ fstate s.m p = 1 ∧ fenceSettled s.m p = true ∧ (portOf s.m p).resetHeld = true) ∧
    (∃ (p : Nat) (s : State), p < 128 ∧ role s.m p = 2 ∧ fstate s.m p = 1 ∧ fenceSettled s.m p = true ∧ (portOf s.m p).resetHeld = false ∧ gf s.m F.STN_PORT_CTL_REJOIN (st p) = 1 ∧ gf s.m F.STN_LINK_STATUS_DL_UP (st p) = 1 ∧ gf s.m F.STN_LINK_STATUS_READY (st p) = 0 ∧ joinFail s.m p = 0) ∧
    (∃ (p : Nat) (s : State), s.m.home.purges.contains p = true) :=
  ⟨⟨5, 16, withLink 16 2 ready, by decide +kernel⟩,
   ⟨5, 16, puts [(F.STN_LINK_STATUS_READY, st 16, 0), (F.STN_LINK_STATUS_CONTAINED, st 16, 1), (F.RAS_FENCE_FSTATE, [16], 2)] (withLink 16 2 ready), by decide +kernel⟩,
   ⟨5, 5, ready, by decide +kernel⟩,
   ⟨0, 7, withM (fun m => { m with sof := { m.sof with stored := [⟨1, .onDie, 1, 1, 0, none⟩], eg := [(0, { stallFrom := [0, 0, 0, 0, 0, 0, 0, 1000000001], next := [(7, ⟨1, { msgOf .time 4000000000 with mc := 7 }, .onDie, none, 0⟩, 0)] })] } }) (puts [(F.SOF_MC_CFG_STALL_MS, [0], 1000)] (withLink 0 1 ready)), by decide +kernel⟩,
   ⟨0, puts [(F.RAS_FENCE_FSTATE, [0], 1), (F.STN_LINK_STATUS_CONTAINED, st 0, 1), (F.STN_LINK_STATUS_READY, st 0, 0), (F.STN_PORT_CTL_REJOIN, st 0, 1)] (withLink 0 1 ready), by decide +kernel⟩,
   ⟨0, withM (fun m => modPort m 0 (fun k => { k with resetHeld := true })) (puts [(F.RAS_FENCE_FSTATE, [0], 1), (F.STN_LINK_STATUS_CONTAINED, st 0, 1), (F.STN_LINK_STATUS_READY, st 0, 0), (F.STN_PORT_CTL_REJOIN, st 0, 1)] (withLink 0 1 ready)), by decide +kernel⟩,
   ⟨16, puts [(F.RAS_FENCE_FSTATE, [16], 1), (F.STN_LINK_STATUS_CONTAINED, st 16, 1), (F.STN_LINK_STATUS_READY, st 16, 0), (F.STN_PORT_CTL_REJOIN, st 16, 1)] (withLink 16 2 ready), by decide +kernel⟩,
   ⟨16, withM (fun m => { m with home := { m.home with purges := [16] } }) ready, by decide +kernel⟩⟩

/-- States and operands that meet the hypotheses of `Obligations.CourierSessions`, clause by clause. -/
theorem meets_CourierSessions :
    (∃ (p : Nat) (x : CourierPeer) (s : State), CourierMayTrain s.m p ∧ x.offers = true ∧ gf s.m F.STN_CRL_STATUS_CSTATE (st p) ≠ 4 ∧ admitCheck s.m p x = 0) ∧
    (∃ (p : Nat) (x : CourierPeer) (s : State), CourierMayTrain s.m p ∧ x.offers = true ∧ gf s.m F.STN_CRL_STATUS_CSTATE (st p) ≠ 4 ∧ admitCheck s.m p x ≠ 0) ∧
    (∃ (p : Nat) (x : CourierPeer) (s : State), CourierMayTrain s.m p ∧ x.offers = false ∧ gf s.m F.STN_CRL_STATUS_CSTATE (st p) ≠ 4) ∧
    (∃ (p : Nat) (x : CourierPeer) (s : State), AdmissionDue s p ∧ admitCheck s.m p x = 0) ∧
    (∃ (p : Nat) (s : State), role s.m p = 3 ∧ gf s.m F.STN_CRL_STATUS_IDE_ON (st p) = 1) ∧
    (∃ (p : Nat) (f : SessionFlit) (s : State), HearsLower s.m p f ∧ f.id ≠ 0 ∧ f.id < 65536 ∧ gf s.m F.STN_CRL_STATUS_CSTATE (st p) = 2 ∧ fstate s.m p ≠ 1) ∧
    (∃ (p : Nat) (f : SessionFlit) (s : State), answers s.m p 1 f = true ∧ f.id < 65536 ∧ gf s.m F.STN_CRL_STATUS_CSTATE (st p) = 2 ∧ fstate s.m p ≠ 1) ∧
    (∃ (p : Nat) (f : SessionFlit) (s : State), HearsLower s.m p f ∧ gf s.m F.STN_CRL_STATUS_CSTATE (st p) = 4 ∧ gf s.m F.STN_CRL_STATUS_SESSION (st p) = f.id ∧ (crlOf s.m p).resumable = true ∧ s.time.now.toNat < holdEnd s.m p) ∧
    (∃ (p : Nat) (f : SessionFlit) (s : State), HearsLower s.m p f ∧ gf s.m F.STN_CRL_STATUS_CSTATE (st p) = 2) ∧
    (∃ (p : Nat) (f : SessionFlit) (s : State), answers s.m p 3 f = true ∧ gf s.m F.STN_CRL_STATUS_CSTATE (st p) = 4 ∧ s.time.now.toNat < holdEnd s.m p) ∧
    (∃ (p : Nat) (f : SessionFlit) (s : State), answers s.m p 3 f = true ∧ gf s.m F.STN_CRL_STATUS_CSTATE (st p) = 4 ∧ fstate s.m p = 0) ∧
    (∃ (p : Nat) (s : State), p < 128 ∧ role s.m p = 3 ∧ gf s.m F.STN_CRL_STATUS_CSTATE (st p) = 4 ∧ gf s.m F.STN_LINK_STATUS_DL_UP (st p) = 0 ∧ holdEnd s.m p ≤ s.time.now.toNat ∧ fstate s.m p = 0) ∧
    (∃ (p : Nat) (f : SessionFlit) (s : State), (crlOf s.m p).outstanding = some f ∧ (crlOf s.m p).lastSent + 64 ≤ s.time.now.toNat) :=
  ⟨⟨16, { postcode := 4081 }, puts [(F.STN_LINK_STATUS_PRSNT, st 16, 1)] (withPort 16 3 ready), by decide +kernel⟩,
   ⟨16, { postcode := 4079 }, puts [(F.STN_LINK_STATUS_PRSNT, st 16, 1)] (withPort 16 3 ready), by decide +kernel⟩,
   ⟨16, { offers := false }, puts [(F.STN_LINK_STATUS_PRSNT, st 16, 1)] (withPort 16 3 ready), by decide +kernel⟩,
   ⟨16, { postcode := 4081 }, puts [(F.STN_CRL_STATUS_ADMIT_FAIL, st 16, 2)] (withCourier 5 { admitAt := 1000000000 } ready), by decide +kernel⟩,
   ⟨16, puts [(F.STN_CRL_STATUS_IDE_ON, st 16, 1)] (withCourier 3 { groups := 5 } ready), by decide +kernel⟩,
   ⟨16, { id := 65535, op := 1, postcode := 4081, credits := [1, 2, 3, 4, 5, 6, 7, 8] }, withCourier 2 { authed := true } ready, by decide +kernel⟩,
   ⟨16, { id := 7, op := 2, postcode := 4081, credits := [1, 2, 3, 4, 5, 6, 7, 8] }, withCourier 2 { authed := true, outstanding := some { id := 7, op := 1 } } ready, by decide +kernel⟩,
   ⟨16, { id := 7, op := 3, postcode := 4081, credits := [1, 2, 3, 4, 5, 6, 7, 8] }, puts [(F.STN_CRL_CFG_HOLD_MS, st 16, 5), (F.STN_CRL_STATUS_SESSION, st 16, 7)] (withCourier 4 { authed := true, holdFrom := 4990000001 } ready), by decide +kernel⟩,
   ⟨16, { id := 7, op := 3, postcode := 4081, credits := [1, 2, 3, 4, 5, 6, 7, 8] }, withCourier 2 { authed := true } ready, by decide +kernel⟩,
   ⟨16, { id := 7, op := 4, postcode := 4081, credits := [1, 2, 3, 4, 5, 6, 7, 8] }, puts [(F.STN_CRL_CFG_HOLD_MS, st 16, 5), (F.STN_CRL_STATUS_SESSION, st 16, 7)] (withCourier 4 { authed := true, holdFrom := 4990000001, outstanding := some { id := 7, op := 3 } } ready), by decide +kernel⟩,
   ⟨16, { id := 7, op := 5, postcode := 4081, credits := [1, 2, 3, 4, 5, 6, 7, 8] }, puts [(F.STN_CRL_CFG_HOLD_MS, st 16, 5), (F.STN_CRL_STATUS_SESSION, st 16, 7)] (withCourier 4 { authed := true, holdFrom := 4990000001, outstanding := some { id := 7, op := 3 } } ready), by decide +kernel⟩,
   ⟨16, puts [(F.STN_LINK_STATUS_DL_UP, st 16, 0)] (puts [(F.STN_CRL_CFG_HOLD_MS, st 16, 5), (F.STN_CRL_STATUS_SESSION, st 16, 7)] (withCourier 4 { holdFrom := 4980000001 } ready)), by decide +kernel⟩,
   ⟨16, { id := 7, op := 1, postcode := 4081, credits := [1, 2, 3, 4, 5, 6, 7, 8] }, withCourier 2 { outstanding := some { id := 7, op := 1, postcode := 4081, credits := [1, 2, 3, 4, 5, 6, 7, 8] }, lastSent := 4999999936 } ready, by decide +kernel⟩⟩

/-- States and operands that meet the hypotheses of `Obligations.CourierFlitsAndTime`, clause by clause. -/
theorem meets_CourierFlitsAndTime :
    (∃ (p : Nat) (f : CourierFlit) (s : State), InSession s.m p ∧ f.ok = true ∧ (f.kind = 1 ∨ f.kind = 2) ∧ f.seq = (crlOf s.m p).rxSeq ∧ gf s.m F.STN_CRL_STATUS_IDE_ON (st p) = 0) ∧
    (∃ (p : Nat) (f : CourierFlit) (s : State), InSession s.m p ∧ f.ok = true ∧ (f.kind = 1 ∨ f.kind = 2) ∧ f.seq ≠ (crlOf s.m p).rxSeq ∧ f.tslot = 0) ∧
    (∃ (p : Nat) (f : CourierFlit) (s : State), InSession s.m p ∧ f.ok = false ∧ (f.kind = 1 ∨ f.kind = 2) ∧ (crlOf s.m p).nakSent = false) ∧
    (∃ (p : Nat) (ack : Nat) (s : State), InSession s.m p) ∧
    (∃ (p : Nat) (s : State), InSession s.m p ∧ 4 ≤ (crlOf s.m p).replays) ∧
    (∃ (p : Nat) (s : State), InSession s.m p ∧ 4 ≤ (crlOf s.m p).replays ∧ gf s.m F.STN_CRL_CFG_HOLD_MS (st p) ≠ 0) ∧
    (∃ (p : Nat) (sub : Nat) (s : State), role s.m p = 3 ∧ gf s.m F.STN_CRL_STATUS_CSTATE (st p) = 3 ∧ gf s.m F.STN_CRL_CFG_TIME_DIR (st p) = 1 ∧ gf s.m F.STN_CRL_TIME_MISMATCH (st p) = 0 ∧ (crlOf s.m p).exAt + 65536 ≤ s.time.now.toNat) ∧
    (∃ (i : Nat) (x : Transit) (s : State), EndsExchange s.m i x ∧ s.time.locked = true ∧ gf s.m F.FTM_CTL_PPS_EN [] = 0) ∧
    (∃ (i : Nat) (x : Transit) (s : State), EndsExchange s.m i x ∧ s.time.locked = false ∧ gf s.m F.GLB_STATUS_STEP [] ≠ 8 ∧ (crlOf s.m x.msg.att).loaded = false) :=
  ⟨⟨16, { seq := 4095 }, withCourier 3 { rxSeq := 4095 } ready, by decide +kernel⟩,
   ⟨16, { seq := 5, markDelta := 256 }, withCourier 3 {} ready, by decide +kernel⟩,
   ⟨16, { ok := false }, withCourier 3 {} ready, by decide +kernel⟩,
   ⟨16, 4095, withCourier 3 { txSeq := 1, retry := [(0, [msgOf .memRd 0])] } ready, by decide +kernel⟩,
   ⟨16, withCourier 3 { replays := 4 } ready, by decide +kernel⟩,
   ⟨16, puts [(F.STN_CRL_CFG_HOLD_MS, st 16, 5)] (withCourier 3 { replays := 4 } ready), by decide +kernel⟩,
   ⟨16, 15, puts [(F.STN_CRL_CFG_TIME_DIR, st 16, 1)] (withCourier 3 {} ready), by decide +kernel⟩,
   ⟨0, ⟨1, { msgOf .time 5000000000 with h := { kind := .time, aop := 1, operand := 80000000160, compare := 80000000320 }, mc := 7, att := 16 }, 0, .postmaster, [0], .admitted, [], []⟩, withM (fun m => { m with sof := { m.sof with transit := [⟨1, { msgOf .time 5000000000 with h := { kind := .time, aop := 1, operand := 80000000160, compare := 80000000320 }, mc := 7, att := 16 }, 0, .postmaster, [0], .admitted, [], []⟩] } }) { (puts [(F.STN_CRL_CFG_TIME_DIR, st 16, 1)] (withCourier 3 { exOpen := true, exN := 1, exT1 := 79999999000, exT4 := 80000000400 } ready)) with time := { ready.time with locked := true } }, by decide +kernel⟩,
   ⟨0, ⟨1, { msgOf .time 5000000000 with h := { kind := .time, aop := 1, operand := 80000000160, compare := 80000000320 }, mc := 7, att := 16 }, 0, .postmaster, [0], .admitted, [], []⟩, withM (fun m => { m with sof := { m.sof with transit := [⟨1, { msgOf .time 5000000000 with h := { kind := .time, aop := 1, operand := 80000000160, compare := 80000000320 }, mc := 7, att := 16 }, 0, .postmaster, [0], .admitted, [], []⟩] } }) (puts [(F.STN_CRL_CFG_TIME_DIR, st 16, 1), (F.GLB_STATUS_STEP, [], 6)] (withCourier 3 { exOpen := true, exN := 1, exT1 := 79999999000, exT4 := 80000000400 } ready)), by decide +kernel⟩⟩

/-- States and operands that meet the hypotheses of `Obligations.SourcesAndLetters`, clause by clause. -/
theorem meets_SourcesAndLetters :
    (∃ (i : Nat) (x : Sched) (s : State), s.m.sched[i]? = some x ∧ x.tgt ≠ .postmaster ∧ x.due ≤ s.time.now.toNat ∧ s.time.now.toNat < x.due + 64 ∧ sliceBefore s.m x = false) ∧
    (∃ (i : Nat) (x : Sched) (s : State), s.m.sched[i]? = some x ∧ (s.time.now.toNat < x.due ∨ sliceBefore s.m x = true)) ∧
    (∃ (src : Nat) (x : Sched) (s : State), (src < 128 ∨ 144 ≤ src) ∧ s.m.sched.find? (fun y => y.source == src && decide (y.due + 64 ≤ s.time.now.toNat)) = some x) ∧
    (∃ (src : Nat) (num : Nat) (w : DueWrite) (s : State), 128 ≤ src ∧ src < 144 ∧ writeDue s.m (src - 128) = some (num, w) ∧ w.since + 63 ≤ s.time.now.toNat) ∧
    (∃ (k : Nat) (i : Item) (s : State), isIo i.msg.h.kind = false ∧ staleItem s.time.now.toNat s.m = some (k, i)) ∧
    (∃ (src : Nat) (l : Nat) (s : State), src ≤ 146) ∧
    (∃ (i : Nat) (l : Letter) (ok : Bool) (s : State), s.m.sof.letters[i]? = some l ∧ l.failed = true) ∧
    (∃ (i : Nat) (l : Letter) (s : State), s.m.sof.letters[i]? = some l ∧ l.failed = false) ∧
    (∃ (i : Nat) (l : Letter) (x : Transit) (s : State), (x.got.length + 1 < x.msg.n ∨ ∃ p, x.tgt = .egress p) ∧ s.m.sof.letters[i]? = some l ∧ l.failed = false ∧ transitOf s.m l.key = some x ∧ l.idx ∉ x.got ∧ (x.phase = .flying ∨ x.phase = .pinned)) ∧
    (∃ (i : Nat) (l : Letter) (x : Transit) (s : State), s.m.sof.letters[i]? = some l ∧ l.failed = false ∧ transitOf s.m l.key = some x ∧ l.idx ∉ x.got ∧ x.phase = .flying ∧ x.tgt = .dispatcher ∧ x.msg.n ≤ x.got.length + 1) ∧
    (∃ (i : Nat) (p : Nat) (l : Letter) (s : State), s.m.sof.letters[i]? = some l ∧ (l.failed = true ∨ l.sentAt + 64 ≤ s.time.now.toNat) ∧ nextPlane s.m (l.plane + 1) = some p) :=
  ⟨⟨0, ⟨144, 4999999937, 4999999937, msgOf .time 4999999937, .egress 0⟩, withM (fun m => { m with sched := [⟨144, 4999999937, 4999999937, msgOf .time 4999999937, .egress 0⟩] }) (withLink 0 1 ready), by decide +kernel⟩,
   ⟨0, ⟨144, 5000000001, 5000000001, msgOf .time 5000000001, .egress 0⟩, withM (fun m => { m with sched := [⟨144, 5000000001, 5000000001, msgOf .time 5000000001, .egress 0⟩] }) (withLink 0 1 ready), by decide +kernel⟩,
   ⟨144, ⟨144, 4999999936, 4999999936, msgOf .time 4999999936, .egress 0⟩, withM (fun m => { m with sched := [⟨144, 4999999936, 4999999936, msgOf .time 4999999936, .egress 0⟩] }) (withLink 0 1 ready), by decide +kernel⟩,
   ⟨128, 0, ⟨3, 4999999000, 4999999937⟩, withEng (fun g => { g with parcels := [{ parcel1 with engine := 0, due := [⟨3, 4999999000, 4999999937⟩] }] }) ready, by decide +kernel⟩,
   ⟨63, { itemOf1 .memRd .ncRead with msg := msgOf .memRd 0 }, atTime (2 ^ 36) (withSlice 63 { items := [{ itemOf1 .memRd .ncRead with msg := msgOf .memRd 0 }] } ready), by decide +kernel⟩,
   ⟨146, 4999999999, marked 4000000000 ready, by decide +kernel⟩,
   ⟨0, ⟨1, 0, 0, 0, true, 3, 4999999936, 0, true, false, 0⟩, true, withSof (fun o => { o with letters := [⟨1, 0, 0, 0, true, 3, 4999999936, 0, true, false, 0⟩], transit := [] }) (withLink 16 2 (withLink 0 1 ready)), by decide +kernel⟩,
   ⟨0, ⟨1, 0, 0, 0, true, 3, 4999999936, 0, false, false, 0⟩, withSof (fun o => { o with letters := [⟨1, 0, 0, 0, true, 3, 4999999936, 0, false, false, 0⟩], transit := [] }) (withLink 16 2 (withLink 0 1 ready)), by decide +kernel⟩,
   ⟨0, ⟨1, 0, 0, 1, true, 3, 4999999936, 0, false, false, 0⟩, transitOf1 .memRd 3 (.slice 0) [0] .flying, withSof (fun o => { o with letters := [⟨1, 0, 0, 1, true, 3, 4999999936, 0, false, false, 0⟩], transit := [transitOf1 .memRd 3 (.slice 0) [0] .flying] }) (withLink 16 2 (withLink 0 1 ready)), Or.inl (by decide), by decide +kernel⟩,
   ⟨0, ⟨1, 0, 0, 0, true, 3, 4999999936, 0, false, false, 0⟩, transitOf1 .mwr 1 .dispatcher [] .flying, withSof (fun o => { o with letters := [⟨1, 0, 0, 0, true, 3, 4999999936, 0, false, false, 0⟩], transit := [transitOf1 .mwr 1 .dispatcher [] .flying] }) (withLink 16 2 (withLink 0 1 ready)), by decide +kernel⟩,
   ⟨0, 1, ⟨1, 0, 0, 0, true, 0, 4999999936, 0, true, false, 0⟩, withSof (fun o => { o with letters := [⟨1, 0, 0, 0, true, 0, 4999999936, 0, true, false, 0⟩], transit := [] }) (withLink 16 2 (withLink 0 1 ready)), by decide +kernel⟩⟩

/-- States and operands that meet the hypotheses of `Obligations.PlanesRetireAndReturn`, clause by clause. -/
theorem meets_PlanesRetireAndReturn :
    (∃ (n : Nat) (parity : Bool) (s : State), n < 4 ∧ gf s.m (planeField n) [] = 0 ∧ (parity = true ∨ 16 ≤ tget 0 s.m.sof.fails n)) ∧
    (∃ (bits : Nat) (s : State), bits % 16 ≠ 0 ∧ 3 ≤ ((workingPlanes s.m).filter (fun n => !bitAt bits n)).length) ∧
    (∃ (bits : Nat) (s : State), bits % 16 ≠ 0 ∧ ((workingPlanes s.m).filter (fun n => !bitAt bits n)).length < 3) ∧
    (∃ (n : Nat) (pass : Bool) (s : State), n < 4 ∧ gf s.m (planeField n) [] = 3) :=
  ⟨⟨3, true, ready, by decide +kernel⟩,
   ⟨8, ready, by decide +kernel⟩,
   ⟨3, ready, by decide +kernel⟩,
   ⟨3, true, puts [(F.SOF_PLANE_STATUS_PL3_STATE, [], 3)] ready, by decide +kernel⟩⟩

/-- States and operands that meet the hypotheses of `Obligations.MessagesEnterAndLeaveQueues`, clause by clause. -/
theorem meets_MessagesEnterAndLeaveQueues :
    (∃ (p : Nat) (hs : List Hdr) (s : State), portExists s.m p = true ∧ role s.m p ≠ 3 ∧ gf s.m F.STN_LINK_STATUS_DL_UP (st p) = 1) ∧
    (∃ (p : Nat) (q : Nat) (h : Hdr) (x : Msg) (s : State), s.m.amd.past = [] ∧ portExists s.m p = true ∧ role s.m p = 1 ∧ gf s.m F.STN_LINK_STATUS_DL_UP (st p) = 1 ∧ gf s.m F.STN_LINK_STATUS_READY (st p) = 1 ∧ fstate s.m p = 0 ∧ (gf s.m F.SEC_IDE_CFG_IDE_REQ [p] = 0 ∨ (portOf s.m p).ideOn = true) ∧ isCache h.kind = true ∧ frankFail s.m p h = none ∧ x = ingressMsg s.m p (portPm p (tick48 s.time.now.toNat) 0) h ∧ x.lost = false ∧ route s.m x.src x.dst none h.hop = .port q ∧ behindHeld s.m x = false) ∧
    (∃ (i : Nat) (p : Nat) (c : Instr) (x : Transit) (s : State), s.m.sof.transit[i]? = some x ∧ (c = .admitMessage i ∧ x.phase = .flying ∧ 0 ∈ x.got ∨ c = .reoffer i ∧ x.phase = .pinned) ∧ behindRefused s.m x = false ∧ x.tgt = .egress p ∧ contained s.m p = false ∧ admitPath s.m x p = some .onDie) ∧
    (∃ (i : Nat) (p : Nat) (c : Instr) (x : Transit) (s : State), s.m.sof.transit[i]? = some x ∧ (c = .admitMessage i ∧ x.phase = .flying ∧ 0 ∈ x.got ∨ c = .reoffer i ∧ x.phase = .pinned) ∧ behindRefused s.m x = false ∧ x.tgt = .egress p ∧ contained s.m p = false ∧ admitPath s.m x p = none) ∧
    (∃ (i : Nat) (p : Nat) (x : Transit) (s : State), s.m.sof.transit[i]? = some x ∧ x.phase = .flying ∧ 0 ∈ x.got ∧ x.tgt = .egress p ∧ behindRefused s.m x = true) ∧
    (∃ (i : Nat) (x : Transit) (s : State), s.m.sof.transit[i]? = some x ∧ x.phase = .pinned ∧ behindRefused s.m x = true) ∧
    (∃ (q : Nat) (e : QEntry) (es : List QEntry) (s : State), (queueOf s.m q).sorting = e :: es ∧ horizonPast s.m (8 * (q / 32) + q % 32 / 4) e.msg.pm.tick = true) ∧
    (∃ (p : Nat) (held : List Nat) (e : QEntry) (s : State), p < 128 ∧ (egOf s.m p).leaving = none ∧ contained s.m p = false ∧ chosenEntry s.time.now.toNat p held s.m = some e ∧ checkedResponse s.m p e.msg = false ∧ isBiSnp e.msg.h.kind = false) ∧
    (∃ (p : Nat) (l : Leaving) (s : State), (egOf s.m p).leaving = some l ∧ allReceived s.m l.e.key l.e.msg.n = true) ∧
    (∃ (p : Nat) (l : Leaving) (s : State), p < 128 ∧ (egOf s.m p).leaving = some l ∧ allReceived s.m l.e.key l.e.msg.n = false) ∧
    (∃ (q : Nat) (e : QEntry) (s : State), (queueOf s.m q).settled.find? (fun e => e.path == .spilled && decide (e.fetched < e.msg.n)) = some e) ∧
    (∃ (q : Nat) (bad : Bool) (s : State), (queueOf s.m q).settled.find? (fun e => e.path == .spilled && decide (e.fetched < e.msg.n)) = none) ∧
    (∃ (n : Nat) (p : Nat) (x : Transit) (u : Unreceipted) (s : State), (∀ y ∈ s.m.sof.transit, y.msg.att = p → ∀ w, y.phase ≠ .held w) ∧ s.m.sof.transit[n]? = some x ∧ x.tgt = .ingress p ∧ x.msg.h.kind = .receipt ∧ 0 ∈ x.got ∧ s.m.sof.unreceipted.find? (fun u => u.port == p && u.pm == x.msg.h.firstPm) = some u) :=
  ⟨⟨0, [{ kind := .memRd }], (withLink 16 2 (withLink 0 1 ready)), by decide +kernel⟩,
   ⟨0, 16, { kind := .d2hReq, cacheId := 0 }, ingressMsg (withM (fun m => { m with vppb := [(33, 17)] }) (puts [(F.RTE_PORT_ID_LOCAL, [16], 5), (F.RTE_LOCAL_VALID, [5], 1), (F.RTE_LOCAL_SLOT0, [5], 16), (F.TEN_PORT_MODEL_MODEL, [0], 1)] (withLink 16 2 (withLink 0 1 ready)))).m 0 (portPm 0 5000000000 0) { kind := .d2hReq, cacheId := 0 }, withM (fun m => { m with vppb := [(33, 17)] }) (puts [(F.RTE_PORT_ID_LOCAL, [16], 5), (F.RTE_LOCAL_VALID, [5], 1), (F.RTE_LOCAL_SLOT0, [5], 16), (F.TEN_PORT_MODEL_MODEL, [0], 1)] (withLink 16 2 (withLink 0 1 ready))), by decide +kernel⟩,
   ⟨0, 16, .admitMessage 0, transitOf1 .memRd 1 (.egress 16) [0] .flying, withSof (fun o => { o with transit := [transitOf1 .memRd 1 (.egress 16) [0] .flying] }) (withLink 16 2 (withLink 0 1 ready)), by decide +kernel⟩,
   ⟨0, 16, .admitMessage 0, transitOf1 .memRd 1 (.egress 16) [0] .flying, withSof (fun o => { o with transit := [transitOf1 .memRd 1 (.egress 16) [0] .flying], stored := [⟨9, .onDie, poolB, 1, 0, none⟩, ⟨8, .reserved, 64, 1, 0, none⟩], queues := [(qno 16 2 0, { settled := [⟨7, msgOf .memRd 3000000000, .guaranteed, none, 0⟩] })] }) (withLink 16 2 (withLink 0 1 ready)), by decide +kernel⟩,
   ⟨0, 16, transitOf1 .memRd 1 (.egress 16) [0] .flying, withSof (fun o => { o with transit := [transitOf1 .memRd 1 (.egress 16) [0] .flying, { transitOf1 .memRd 1 (.egress 16) [] .pinned with key := 0, msg := msgOf .memRd 3000000000, pins := [8 * 16 + 2] }], stored := [⟨9, .onDie, poolB, 1, 0, none⟩, ⟨8, .reserved, 64, 1, 0, none⟩], queues := [(qno 16 2 0, { settled := [⟨7, msgOf .memRd 3000000000, .guaranteed, none, 0⟩] })] }) (withLink 16 2 (withLink 0 1 ready)), by decide +kernel⟩,
   ⟨0, { transitOf1 .memRd 1 (.egress 16) [0] .pinned with msg := msgOf .memRd 4000000000 }, withSof (fun o => { o with transit := [{ transitOf1 .memRd 1 (.egress 16) [0] .pinned with msg := msgOf .memRd 4000000000 }, { transitOf1 .memRd 1 (.egress 16) [] .pinned with key := 0, msg := msgOf .memRd 3000000000, pins := [8 * 16 + 2] }], stored := [⟨9, .onDie, poolB, 1, 0, none⟩, ⟨8, .reserved, 64, 1, 0, none⟩], queues := [(qno 16 2 0, { settled := [⟨7, msgOf .memRd 3000000000, .guaranteed, none, 0⟩] })] }) (withLink 16 2 (withLink 0 1 ready)), by decide +kernel⟩,
   ⟨qno 16 2 0, ⟨1, msgOf .memRd 4000000000, .onDie, none, 0⟩, [], withSof (fun o => { o with queues := [(qno 16 2 0, { sorting := [⟨1, msgOf .memRd 4000000000, .onDie, none, 0⟩] })] }) (marked 4500000000 (withLink 16 2 (withLink 0 1 ready))), by decide +kernel⟩,
   ⟨16, [], ⟨1, msgOf .memRd 4000000000, .onDie, none, 0⟩, withSof (fun o => { o with queues := [(qno 16 2 0, { settled := [⟨1, msgOf .memRd 4000000000, .onDie, none, 0⟩] })], stored := [⟨1, .onDie, 1, 1, 0, none⟩] }) (marked 4500000000 (withLink 16 2 (withLink 0 1 ready))), by decide +kernel⟩,
   ⟨16, ⟨⟨1, msgOf .memRd 4000000000, .onDie, none, 0⟩, 4999999990, 0, none⟩, withSof (fun o => { o with eg := [(16, { leaving := some ⟨⟨1, msgOf .memRd 4000000000, .onDie, none, 0⟩, 4999999990, 0, none⟩ })], stored := [⟨1, .onDie, 1, 1, 0, none⟩], transit := [] }) (withLink 16 2 (withLink 0 1 ready)), by decide +kernel⟩,
   ⟨16, ⟨⟨1, { msgOf .memRd 4000000000 with n := 2 }, .onDie, none, 0⟩, 4999999990, 0, none⟩, withSof (fun o => { o with eg := [(16, { leaving := some ⟨⟨1, { msgOf .memRd 4000000000 with n := 2 }, .onDie, none, 0⟩, 4999999990, 0, none⟩ })], stored := [⟨1, .onDie, 1, 1, 0, none⟩], transit := [transitOf1 .memRd 2 (.egress 16) [0] .admitted] }) (withLink 16 2 (withLink 0 1 ready)), by decide +kernel⟩,
   ⟨qno 16 2 0, ⟨1, msgOf .memRd 4000000000, .spilled, none, 0⟩, withSof (fun o => { o with queues := [(qno 16 2 0, { settled := [⟨1, msgOf .memRd 4000000000, .spilled, none, 0⟩] })] }) (withLink 16 2 (withLink 0 1 ready)), by decide +kernel⟩,
   ⟨0, true, ready, by decide +kernel⟩,
   ⟨0, 0, { transitOf1 .receipt 1 (.ingress 0) [0] .admitted with msg := { msgOf .receipt 4000000000 with h := { kind := .receipt, firstPm := ⟨3000000000, 0, 0⟩ }, att := 16 } }, ⟨⟨3000000000, 0, 0⟩, 0, 0, 4081, false, none, 0, msgOf .mwr 3000000000⟩, withSof (fun o => { o with transit := [{ transitOf1 .receipt 1 (.ingress 0) [0] .admitted with msg := { msgOf .receipt 4000000000 with h := { kind := .receipt, firstPm := ⟨3000000000, 0, 0⟩ }, att := 16 } }], unreceipted := [⟨⟨3000000000, 0, 0⟩, 0, 0, 4081, false, none, 0, msgOf .mwr 3000000000⟩] }) (withLink 16 2 (withLink 0 1 ready)), (fun y hy _ w h => by rw [List.mem_singleton.mp hy] at h; cases h), by decide +kernel⟩⟩

/-- States and operands that meet the hypotheses of `Obligations.FlushesBucketsAndGates`, clause by clause. -/
theorem meets_FlushesBucketsAndGates :
    (∃ (c : Instr) (mode : Nat) (ticket : Nat) (scope : Nat) (p : Nat) (mc : Nat) (sc : Nat) (s : State), (c = .flushDiscard ticket scope p mc sc ∧ mode = 0 ∨ c = .flushError ticket scope p mc sc ∧ mode = 1) ∧ stBusy (rd s.m Reg.SOF_FLUSH_STATUS) = false ∧ scope ≠ 3 ∧ portExists s.m p = true) ∧
    (∃ (c : Instr) (ticket : Nat) (scope : Nat) (p : Nat) (mc : Nat) (sc : Nat) (s : State), (c = .flushDiscard ticket scope p mc sc ∨ c = .flushError ticket scope p mc sc) ∧ stBusy (rd s.m Reg.SOF_FLUSH_STATUS) = false ∧ (scope = 3 ∨ portExists s.m p = false)) ∧
    (∃ (c : Instr) (ticket : Nat) (scope : Nat) (p : Nat) (mc : Nat) (sc : Nat) (s : State), (c = .flushDiscard ticket scope p mc sc ∨ c = .flushError ticket scope p mc sc) ∧ stBusy (rd s.m Reg.SOF_FLUSH_STATUS) = true) ∧
    (∃ (q : Nat) (f : Flush) (s : State), s.m.sof.flushes.find? (fun f => f.todo.contains q && flushPast s.m f q) = some f ∧ (∀ e ∈ (queueOf s.m q).settled ++ (queueOf s.m q).sorting, qno (q / 32) e.msg.mc e.msg.sc = q)) ∧
    (∃ (p : Nat) (s : State), s.time.now.toNat % 1024 = 0 ∧ twf 0 s.m.sof.police = true ∧ (∀ x ∈ s.m.sof.transit, x.phase ≠ .held .police)) ∧
    (∃ (q : Nat) (s : State), s.time.now.toNat % 1024 = 0 ∧ q < 4096 ∧ (s.m.regs.map (·.1)).Nodup) ∧
    (∃ (p : Nat) (s : State), s.time.now.toNat % 1024 = 0 ∧ p < 128 ∧ (s.m.regs.map (·.1)).Nodup) ∧
    (∃ (p : Nat) (ticket : Nat) (plen : Nat) (s : State), p < 128 ∧ stState (rd s.m Reg.SCH_GATE_STATUS [p]) ≠ 1 ∧ plen ≤ 256 ∧ gateListOk s.m p (1 - gf s.m F.SCH_GATE_INFO_ACTIVE [p]) plen = true ∧ s.time.now.toNat + 8000 ≤ gf s.m F.SCH_GATE_BASE_BASE [p, 1 - gf s.m F.SCH_GATE_INFO_ACTIVE [p]]) ∧
    (∃ (p : Nat) (ticket : Nat) (plen : Nat) (base : Nat) (c : Nat) (s : State), p < 128 ∧ stState (rd s.m Reg.SCH_GATE_STATUS [p]) ≠ 1 ∧ plen ≤ 256 ∧ gateListOk s.m p (1 - gf s.m F.SCH_GATE_INFO_ACTIVE [p]) plen = true ∧ base = gf s.m F.SCH_GATE_BASE_BASE [p, 1 - gf s.m F.SCH_GATE_INFO_ACTIVE [p]] ∧ c = gateCycle (gateList s.m p (1 - gf s.m F.SCH_GATE_INFO_ACTIVE [p]) plen) ∧ base < s.time.now.toNat + 8000 ∧ c ≠ 0) ∧
    (∃ (p : Nat) (ticket : Nat) (plen : Nat) (s : State), p < 128 ∧ stState (rd s.m Reg.SCH_GATE_STATUS [p]) ≠ 1 ∧ (256 < plen ∨ gateListOk s.m p (1 - gf s.m F.SCH_GATE_INFO_ACTIVE [p]) plen = false)) ∧
    (∃ (p : Nat) (s : State), p < 128 ∧ tget 0 s.m.sof.gateNext p ≠ 0 ∧ tget 0 s.m.sof.gateNext p ≤ s.time.now.toNat + 1) ∧
    (∃ (f : Nat) (p : Nat) (k : Nat) (lvl : Nat) (old : Nat) (s : State), gf s.m F.SOF_DEVLOAD_CFG_WIN [] ≠ 0 ∧ s.time.now.toNat % (gf s.m F.SOF_DEVLOAD_CFG_WIN [] * 64) = 0 ∧ (enabledFlds s.m).contains f = true ∧ holdsPos s.m f = true ∧ gf s.m F.TEN_FLD_STATUS_BOUND [f] = 1 ∧ p = gf s.m F.TEN_FLD_CFG_PORT [f] ∧ k = gf s.m F.TEN_FLD_CFG_POS [f] ∧ lvl = devLoadLevel s.m f (tget {} s.m.sof.devload f) ∧ old = getBits (rd s.m Reg.SOF_DEVLOAD_STATUS [p]) (2 * k + 1) (2 * k)) :=
  ⟨⟨.flushError 5 2 16 3 0, 1, 5, 2, 16, 3, 0, (withLink 16 2 (withLink 0 1 ready)), by decide +kernel⟩,
   ⟨.flushDiscard 5 3 16 3 0, 5, 3, 16, 3, 0, (withLink 16 2 (withLink 0 1 ready)), by decide +kernel⟩,
   ⟨.flushDiscard 5 2 16 3 0, 5, 2, 16, 3, 0, regs [(Reg.SOF_FLUSH_STATUS, [], 2 * 2 ^ 44)] (withLink 16 2 (withLink 0 1 ready)), by decide +kernel⟩,
   ⟨qno 16 2 0, ⟨2, 16, 0, 0, 0, ⟨4400000000, 144, 0⟩, 0, true, [qno 16 2 0]⟩, withSof (fun o => { o with flushes := [⟨2, 16, 0, 0, 0, ⟨4400000000, 144, 0⟩, 0, true, [qno 16 2 0]⟩], queues := [(qno 16 2 0, { settled := [⟨1, msgOf .memRd 4000000000, .onDie, none, 0⟩] })], stored := [⟨1, .onDie, 1, 1, 0, none⟩] }) (marked 4500000000 (withLink 16 2 (withLink 0 1 ready))), by decide +kernel⟩,
   ⟨127, withSof (fun o => { o with police := [(127, -5000)] }) (atTime 5000000512 ready), by decide +kernel⟩,
   ⟨4095, puts [(F.SCH_SHAPE_EN, [4095], 1), (F.SCH_SHAPE_INC, [4095], 5), (F.SCH_SHAPE_BURST, [4095], 9)] (atTime 5000000512 ready), by decide +kernel⟩,
   ⟨127, puts [(F.SCH_PACE_PORT_EN, [127], 1), (F.SCH_PACE_PORT_INC, [127], 5), (F.SCH_PACE_PORT_BURST, [127], 9)] (atTime 5000000512 ready), by decide +kernel⟩,
   ⟨127, 5, 1, puts [(F.SCH_GATE_ENT_ENTRY_EVEN, [127, 1, 0], 15 + 1000 * 2 ^ 8), (F.SCH_GATE_BASE_BASE, [127, 1], 5000008000)] ready, by decide +kernel⟩,
   ⟨127, 5, 1, 5000007999, 1000, puts [(F.SCH_GATE_ENT_ENTRY_EVEN, [127, 1, 0], 15 + 1000 * 2 ^ 8), (F.SCH_GATE_BASE_BASE, [127, 1], 5000007999)] ready, by decide +kernel⟩,
   ⟨127, 5, 257, ready, by decide +kernel⟩,
   ⟨127, withSof (fun o => { o with gateNext := [(127, 5000000001)], gateLen := [(127, 1)] }) (puts [(F.SCH_GATE_ENT_ENTRY_EVEN, [127, 1, 0], 15 + 1000 * 2 ^ 8), (F.SCH_GATE_BASE_BASE, [127, 1], 5000000000)] ready), by decide +kernel⟩,
   ⟨0, 0, 0, 3, 0, withSof (fun o => { o with devload := [(0, { refused := 4096 })] }) (atTime 5000003584 (puts [(F.TEN_FLD_STATUS_BOUND, [0], 1)] (withFld 2 ready))), by decide +kernel⟩⟩

/-- States and operands that meet the hypotheses of `Obligations.ItemsReachTheirSlice`, clause by clause. -/
theorem meets_ItemsReachTheirSlice :
    (∃ (n : Nat) (k : Nat) (e : HbmErr) (x : Transit) (r : Bool × Bool) (s : State), s.m.sof.transit[n]? = some x ∧ x.tgt = .slice k ∧ k < 64 ∧ atDoor x = true ∧ x.msg.n ≤ x.got.length ∧ isInput x.msg.h.kind = false ∧ bitAt (gf s.m F.HQ_SLICE_MAP_PAUSED [k / 16]) (k % 16) = false ∧ intakeRoom s.m k x = some r ∧ x.msg.arrival = false) ∧
    (∃ (n : Nat) (k : Nat) (e : HbmErr) (x : Transit) (s : State), s.m.sof.transit[n]? = some x ∧ x.tgt = .slice k ∧ k < 64 ∧ atDoor x = true ∧ x.msg.n ≤ x.got.length ∧ isInput x.msg.h.kind = false ∧ bitAt (gf s.m F.HQ_SLICE_MAP_PAUSED [k / 16]) (k % 16) = false ∧ intakeRoom s.m k x = none ∧ x.phase = .flying) ∧
    (∃ (k : Nat) (x : Msg) (s : State), k < 64 ∧ serving s.m k = true ∧ nextInput s.m k = some x ∧ isBiRsp x.h.kind = true ∧ (sliceOf s.m k).snoops.find? (fun n => n.issued && x.h.tag == k + 64 * n.id && some n.host == hostIndex s.m (k / 16) x.src) = none) ∧
    (∃ (k : Nat) (x : Msg) (n : Snoop) (s : State), k < 64 ∧ serving s.m k = true ∧ nextInput s.m k = some x ∧ x.h.kind = .biRspI ∧ (sliceOf s.m k).snoops.find? (fun n => n.issued && x.h.tag == k + 64 * n.id && some n.host == hostIndex s.m (k / 16) x.src) = some n) ∧
    (∃ (k : Nat) (x : Msg) (a : Access) (s : State), k < 64 ∧ serving s.m k = true ∧ nextInput s.m k = some x ∧ isS2MRsp x.h.kind = true ∧ accessFor s.m k x = some a) ∧
    (∃ (k : Nat) (x : Msg) (s : State), k < 64 ∧ serving s.m k = true ∧ nextInput s.m k = some x ∧ isS2MRsp x.h.kind = true ∧ accessFor s.m k x = none ∧ s.m.home.copies.find? (fun c => c.slice == k && c.id == x.h.tag / 64 && x.h.kind != .memData) = none) ∧
    (∃ (n : Nat) (x : Transit) (s : State), s.m.sof.transit[n]? = some x ∧ x.msg.h.kind = .hostRemoved ∧ x.tgt = .postmaster ∧ 0 ∈ x.got) ∧
    (∃ (k : Nat) (n : Snoop) (s : State), k < 64 ∧ serving s.m k = true ∧ snoopsOut (sliceOf s.m k) < 1024 ∧ lbest (fun (a b : Snoop) => decide (confOf (sliceOf s.m k) a.item < confOf (sliceOf s.m k) b.item)) ((sliceOf s.m k).snoops.filter (fun n => !n.issued && !ndrOwed s.m k (sliceOf s.m k) n.line n.host (confOf (sliceOf s.m k) n.item))) = some n) ∧
    (∃ (k : Nat) (i : Item) (s : State), k < 64 ∧ serving s.m k = true ∧ lbest (fun (a b : Item) => decide (a.conf < b.conf)) ((sliceOf s.m k).items.filter (·.stuck)) = some i) :=
  ⟨⟨0, 63, {}, { transitOf1 .memRd 1 (.slice 63) [0] .flying with msg := { msgOf .memRd 4000000000 with pool := 64 * 63 } }, (false, false), withSof (fun o => { o with transit := [{ transitOf1 .memRd 1 (.slice 63) [0] .flying with msg := { msgOf .memRd 4000000000 with pool := 64 * 63 } }] }) ((withLink 16 2 (withLink 0 1 ready))), by decide +kernel⟩,
   ⟨0, 63, {}, { transitOf1 .memRd 1 (.slice 63) [0] .flying with msg := { msgOf .memRd 4000000000 with pool := 64 * 63 } }, withSof (fun o => { o with transit := [{ transitOf1 .memRd 1 (.slice 63) [0] .flying with msg := { msgOf .memRd 4000000000 with pool := 64 * 63 } }, { transitOf1 .memRd 1 (.slice 63) [] .flying with key := 2, msg := { msgOf .memRd 3000000000 with mc := 2 } }] }) (withSlice 63 { items := (List.replicate 256 (itemOf1 .memSpecRd .specRd)).map (fun i => { i with msg := { i.msg with mc := 4 } }) } (withLink 16 2 (withLink 0 1 ready))), by decide +kernel⟩,
   ⟨63, { msgOf .biRspI 4000000000 with h := { kind := .biRspI, tag := 64 * 5 + 63 }, mc := 3 }, withSlice 63 { inputs := [⟨{ msgOf .biRspI 4000000000 with h := { kind := .biRspI, tag := 64 * 5 + 63 }, mc := 3 }⟩] } (marked 4500000000 (withLink 16 2 (withLink 0 1 ready))), by decide +kernel⟩,
   ⟨63, { msgOf .biRspI 4000000000 with h := { kind := .biRspI, tag := 64 * 5 + 63 }, mc := 3 }, { id := 5, line := 0, host := 7, kind := 2, item := 0, pm := ⟨3000000000, 0, 0⟩, evb := false, capacity := true, issued := true }, puts [(F.HQ_HOST_CFG_VALID, [3, 7], 1)] (withSlice 63 { inputs := [⟨{ msgOf .biRspI 4000000000 with h := { kind := .biRspI, tag := 64 * 5 + 63 }, mc := 3 }⟩], snoops := [{ id := 5, line := 0, host := 7, kind := 2, item := 0, pm := ⟨3000000000, 0, 0⟩, evb := false, capacity := true, issued := true }] } (marked 4500000000 (withLink 16 2 (withLink 0 1 ready)))), by decide +kernel⟩,
   ⟨63, { msgOf .memData 4000000000 with h := { kind := .memData, tag := 64 * 5 + 63 }, mc := 4, src := 0, att := 16 }, ⟨5, 0, 16, .spec 99, 0, 0, false, ⟨3000000000, 0, 0⟩, 1000⟩, withSlice 63 { inputs := [⟨{ msgOf .memData 4000000000 with h := { kind := .memData, tag := 64 * 5 + 63 }, mc := 4, src := 0, att := 16 }⟩], accesses := [⟨5, 0, 16, .spec 99, 0, 0, false, ⟨3000000000, 0, 0⟩, 1000⟩] } (marked 4500000000 (withLink 16 2 (withLink 0 1 ready))), by decide +kernel⟩,
   ⟨63, { msgOf .memData 4000000000 with h := { kind := .memData, tag := 64 * 5 + 63 }, mc := 4, src := 0, att := 16 }, withSlice 63 { inputs := [⟨{ msgOf .memData 4000000000 with h := { kind := .memData, tag := 64 * 5 + 63 }, mc := 4, src := 0, att := 16 }⟩] } (marked 4500000000 (withLink 16 2 (withLink 0 1 ready))), by decide +kernel⟩,
   ⟨0, { transitOf1 .hostRemoved 1 .postmaster [0] .flying with msg := { msgOf .hostRemoved 4000000000 with h := { kind := .hostRemoved, hostPc := 9 } } }, puts [(F.HQ_HOST_CFG_VALID, [3, 7], 1), (F.HQ_HOST_CFG_POSTCODE, [3, 7], 9)] (withSof (fun o => { o with transit := [{ transitOf1 .hostRemoved 1 .postmaster [0] .flying with msg := { msgOf .hostRemoved 4000000000 with h := { kind := .hostRemoved, hostPc := 9 } } }] }) ((withLink 16 2 (withLink 0 1 ready)))), by decide +kernel⟩,
   ⟨63, { id := 5, line := 0, host := 7, kind := 2, item := 0, pm := ⟨3000000000, 0, 0⟩, evb := false, capacity := true, issued := false }, puts [(F.HQ_HOST_CFG_VALID, [3, 7], 1)] (withSlice 63 { snoops := [{ id := 5, line := 0, host := 7, kind := 2, item := 0, pm := ⟨3000000000, 0, 0⟩, evb := false, capacity := true, issued := false }] } (marked 4500000000 (withLink 16 2 (withLink 0 1 ready)))), by decide +kernel⟩,
   ⟨63, { itemOf1 .memRd .ncRead with conf := 1, stuck := true }, withSlice 63 { items := [{ itemOf1 .memRd .ncRead with conf := 1, stuck := true }] } (marked 4500000000 (withLink 16 2 (withLink 0 1 ready))), by decide +kernel⟩⟩

/-- States and operands that meet the hypotheses of `Obligations.RequestsAreConfirmed`, clause by clause. -/
theorem meets_RequestsAreConfirmed :
    (∃ (k : Nat) (e : HbmErr) (c : ConfirmKind) (x : Instr) (i : Item) (s : State), ConfirmsBy k e c x ∧ Confirms k c i s) ∧
    (∃ (k : Nat) (i : Item) (s : State), Confirms k .memSpecRd i s ∧ i.work = .specRd ∧ s.m.home.removals = []) ∧
    (∃ (k : Nat) (i : Item) (y0 : Msg) (g : Target) (s : State), Confirms k .biConflict i s ∧ i.work = .conflict ∧ s.m.home.removals = [] ∧ s.m.amd.past = [] ∧ isIo i.msg.h.kind = false ∧ y0 = replyTo s.m i.msg (sliceAtt k) .biConflictAck false false .ok [] i.msg.pm (answerSc s.m k i.msg) ∧ replyTarget s.m i.msg y0 = .inl g) ∧
    (∃ (k : Nat) (e : HbmErr) (c : ConfirmKind) (x : Instr) (i : Item) (s : State), ConfirmsBy k e c x ∧ nextItem s.m k = some i ∧ confirmKind s.m k i ≠ c) :=
  ⟨⟨63, {}, .memRd, .confirmMemRd 63 {}, itemOf1 .memRd .ncRead, withSlice 63 { items := [itemOf1 .memRd .ncRead] } (marked 4500000000 (withLink 16 2 (withLink 0 1 ready))), .memRd {}, by decide +kernel⟩,
   ⟨63, itemOf1 .memSpecRd .specRd, withSlice 63 { items := [itemOf1 .memSpecRd .specRd] } (marked 4500000000 (withLink 16 2 (withLink 0 1 ready))), by decide +kernel⟩,
   ⟨63, { itemOf1 .biConflict .conflict with msg := { msgOf .biConflict 4000000000 with src := 128 } }, replyTo (puts [(F.RTE_LOCAL_VALID, [128], 1), (F.RTE_LOCAL_KIND, [128], 0), (F.RTE_LOCAL_SLOT0, [128], 0)] (withSlice 63 { items := [{ itemOf1 .biConflict .conflict with msg := { msgOf .biConflict 4000000000 with src := 128 } }] } (marked 4500000000 (withLink 16 2 (withLink 0 1 ready))))).m ({ itemOf1 .biConflict .conflict with msg := { msgOf .biConflict 4000000000 with src := 128 } }).msg (sliceAtt 63) .biConflictAck false false .ok [] ({ itemOf1 .biConflict .conflict with msg := { msgOf .biConflict 4000000000 with src := 128 } }).msg.pm (answerSc (puts [(F.RTE_LOCAL_VALID, [128], 1), (F.RTE_LOCAL_KIND, [128], 0), (F.RTE_LOCAL_SLOT0, [128], 0)] (withSlice 63 { items := [{ itemOf1 .biConflict .conflict with msg := { msgOf .biConflict 4000000000 with src := 128 } }] } (marked 4500000000 (withLink 16 2 (withLink 0 1 ready))))).m 63 ({ itemOf1 .biConflict .conflict with msg := { msgOf .biConflict 4000000000 with src := 128 } }).msg), .egress 0, puts [(F.RTE_LOCAL_VALID, [128], 1), (F.RTE_LOCAL_KIND, [128], 0), (F.RTE_LOCAL_SLOT0, [128], 0)] (withSlice 63 { items := [{ itemOf1 .biConflict .conflict with msg := { msgOf .biConflict 4000000000 with src := 128 } }] } (marked 4500000000 (withLink 16 2 (withLink 0 1 ready)))), by decide +kernel⟩,
   ⟨63, {}, .memRd, .confirmMemRd 63 {}, itemOf1 .memSpecRd .specRd, withSlice 63 { items := [itemOf1 .memSpecRd .specRd] } (marked 4500000000 (withLink 16 2 (withLink 0 1 ready))), .memRd {}, by decide +kernel⟩⟩

/-- States and operands that meet the hypotheses of `Obligations.SlicesSweepAndCount`, clause by clause. -/
theorem meets_SlicesSweepAndCount :
    (∃ (k : Nat) (d : Nat) (pm : Postmark) (s : State), k < 64 ∧ serving s.m k = true ∧ (sliceOf s.m k).sweepPm = [] ∧ (sliceOf s.m k).sweepDue = d + 1 ∧ (sliceOf s.m k).sweepFrom ≤ s.time.now.toNat ∧ s.time.now.toNat < (sliceOf s.m k).sweepFrom + 64 ∧ (∀ r, r < k → (sliceOf s.m r).sweepDue ≠ d + 1) ∧ pm = (internalPm s.m 146 d).1 ∧ agentTurn s.m k pm = false) ∧
    (∃ (k : Nat) (pm : Postmark) (l : List Postmark) (s : State), k < 64 ∧ serving s.m k = true ∧ (sliceOf s.m k).sweepPm = pm :: l ∧ (∀ r, r ≤ k → (sliceOf s.m r).sweepDue = 0 ∨ s.time.now.toNat < (sliceOf s.m r).sweepFrom) ∧ agentTurn s.m k pm = true ∧ s.m.home.removals = [] ∧ s.m.amd.past = []) ∧
    (∃ (k : Nat) (d : Nat) (e : HbmErr) (pm : Postmark) (s : State), k < 64 ∧ serving s.m k = true ∧ s.m.home.cleanPm = none ∧ (sliceOf s.m k).cleanPm = [] ∧ (sliceOf s.m k).cleanDue = d + 1 ∧ (sliceOf s.m k).cleanFrom ≤ s.time.now.toNat ∧ s.time.now.toNat < (sliceOf s.m k).cleanFrom + 64 ∧ (∀ r, r < k → (sliceOf s.m r).cleanDue ≠ d + 1) ∧ pm = (internalPm s.m 145 d).1 ∧ agentTurn s.m k pm = false) ∧
    (∃ (k : Nat) (e : HbmErr) (pm : Postmark) (l : List Postmark) (s : State), k < 64 ∧ serving s.m k = true ∧ s.m.home.cleanPm = none ∧ (sliceOf s.m k).cleanPm = pm :: l ∧ (∀ r, r ≤ k → (sliceOf s.m r).cleanDue = 0 ∨ s.time.now.toNat < (sliceOf s.m r).cleanFrom) ∧ agentTurn s.m k pm = true ∧ s.m.home.removals = [] ∧ s.m.amd.past = [] ∧ strandedSets s.m k = []) ∧
    (∃ (k : Nat) (e : HbmErr) (pm : Postmark) (s : State), k < 64 ∧ serving s.m k = true ∧ s.m.home.cleanPm = some pm ∧ s.m.home.cleanTodo.contains k = true ∧ agentTurn s.m k pm = true) ∧
    (∃ (k : Nat) (fs : Nat) (ws : List Nat) (l : List (Nat × List Nat)) (e : HbmErr) (pm : Postmark) (s : State), k < 64 ∧ serving s.m k = true ∧ s.m.home.cleanPm = some pm ∧ s.m.home.cleanTodo.contains k = false ∧ (sliceOf s.m k).toClean = (fs, ws) :: l ∧ (∀ r, r < k → s.m.home.cleanTodo.contains r = false ∧ (sliceOf s.m r).toClean = []) ∧ agentTurn s.m k (internalPm s.m 145 pm.tick).1 = true) ∧
    (∃ (q : Nat) (r : Removal) (s : State), q < 4 ∧ s.m.home.removals.find? (fun r => r.quad == q) = some r ∧ r.host < 512 ∧ (∀ j, j < 16 → serving s.m (16 * q + j) = true ∧ (r.applied.contains (16 * q + j) = true ∨ horizonPast s.m (1024 + (16 * q + j)) r.pm.tick = true))) ∧
    (∃ (k : Nat) (tag : Nat) (c : Census) (pm : Postmark) (s : State), k < 64 ∧ serving s.m k = true ∧ s.m.home.setCensus.find? (fun c => c.slice == k) = some c ∧ censusTag s.m (kOf s.m k) c.set c.tag = some tag ∧ ((sliceOf s.m k).censusPm = some pm ∨ (sliceOf s.m k).censusPm = none ∧ max c.since (expandTick s.time.now.toNat c.tick) ≤ s.time.now.toNat ∧ s.time.now.toNat < max c.since (expandTick s.time.now.toNat c.tick) + 64 ∧ pm = (internalPm s.m 146 c.tick).1) ∧ agentTurn s.m k pm = true) ∧
    (∃ (k : Nat) (c : Census) (s : State), k < 64 ∧ serving s.m k = true ∧ c.slice = k ∧ s.m.home.setCensus = [c] ∧ s.m.home.pairCensus = [] ∧ censusTag s.m (kOf s.m k) c.set c.tag = none ∧ (∀ x ∈ (sliceOf s.m k).snoops, x.capacity = false)) ∧
    (∃ (q : Nat) (ticket : Nat) (h : Nat) (s : State), q < 4 ∧ stBusy (rd s.m Reg.HQ_REMOVE_STATUS [q]) = false ∧ h < 512 ∧ gf s.m F.HQ_HOST_CFG_VALID [q, h] = 1) ∧
    (∃ (q : Nat) (ticket : Nat) (h : Nat) (s : State), q < 4 ∧ stBusy (rd s.m Reg.HQ_REMOVE_STATUS [q]) = false ∧ (512 ≤ h ∨ gf s.m F.HQ_HOST_CFG_VALID [q, h] = 0)) ∧
    (∃ (ticket : Nat) (s : State), stBusy (rd s.m Reg.FCH_CLEAN_STATUS) = false) ∧
    (∃ (ticket : Nat) (s : State), stBusy (rd s.m Reg.FCH_CLEAN_STATUS) = true) ∧
    (∃ (g : Nat) (s : State), 0 < g ∧ g < 256) :=
  ⟨⟨63, 4999999936, (internalPm (withSlice 63 { sweepDue := 4999999937, sweepFrom := 4999999937 } ((withLink 16 2 (withLink 0 1 ready)))).m 146 4999999936).1, withSlice 63 { sweepDue := 4999999937, sweepFrom := 4999999937 } ((withLink 16 2 (withLink 0 1 ready))), by decide +kernel⟩,
   ⟨63, ⟨4000000000, 146, 0⟩, [], withSlice 63 { sweepPm := [⟨4000000000, 146, 0⟩] } (marked 4500000000 (withLink 16 2 (withLink 0 1 ready))), by decide +kernel⟩,
   ⟨63, 4999999936, {}, (internalPm (withSlice 63 { cleanDue := 4999999937, cleanFrom := 4999999937 } ((withLink 16 2 (withLink 0 1 ready)))).m 145 4999999936).1, withSlice 63 { cleanDue := 4999999937, cleanFrom := 4999999937 } ((withLink 16 2 (withLink 0 1 ready))), by decide +kernel⟩,
   ⟨63, {}, ⟨4000000000, 145, 0⟩, [], withSlice 63 { cleanPm := [⟨4000000000, 145, 0⟩] } (marked 4500000000 (withLink 16 2 (withLink 0 1 ready))), by decide +kernel⟩,
   ⟨63, {}, ⟨4000000000, 144, 0⟩, withM (fun m => { m with home := { m.home with cleanPm := some ⟨4000000000, 144, 0⟩, cleanTodo := [63] } }) (marked 4500000000 (withLink 16 2 (withLink 0 1 ready))), by decide +kernel⟩,
   ⟨63, 5, [0], [], {}, ⟨4000000000, 144, 0⟩, withSlice 63 { toClean := [(5, [0])], cache := [(5, [{ tag := 5, st := .dirty }])] } (withM (fun m => { m with home := { m.home with cleanPm := some ⟨4000000000, 144, 0⟩ } }) (marked 4500000000 (withLink 16 2 (withLink 0 1 ready)))), by decide +kernel⟩,
   ⟨3, ⟨511, ⟨4000000000, 144, 0⟩, 3, [], 5⟩, withM (fun m => { m with home := { m.home with removals := [⟨511, ⟨4000000000, 144, 0⟩, 3, [], 5⟩] } }) (marked 4500000000 (withLink 16 2 (withLink 0 1 ready))), by decide +kernel⟩,
   ⟨63, 0, ⟨63, 0, 0, 0, 4000000000, 0⟩, ⟨4000000000, 146, 0⟩, withSlice 63 { censusPm := some ⟨4000000000, 146, 0⟩ } (withM (fun m => { m with home := { m.home with setCensus := [⟨63, 0, 0, 0, 4000000000, 0⟩] } }) (puts [(F.RTE_HR_BASE_VALID, [0], 1), (F.RTE_HR_CFG_SIZE, [0], 1)] (marked 4500000000 (withLink 16 2 (withLink 0 1 ready))))), by decide +kernel⟩,
   ⟨63, ⟨63, 0, 1, 0, 4000000000, 0⟩, withM (fun m => { m with home := { m.home with setCensus := [⟨63, 0, 1, 0, 4000000000, 0⟩] } }) (puts [(F.RTE_HR_BASE_VALID, [0], 1), (F.RTE_HR_CFG_SIZE, [0], 1)] (marked 4500000000 (withLink 16 2 (withLink 0 1 ready)))), by decide +kernel⟩,
   ⟨3, 5, 511, puts [(F.HQ_HOST_CFG_VALID, [3, 511], 1)] (withLink 16 2 (withLink 0 1 ready)), by decide +kernel⟩,
   ⟨3, 5, 512, (withLink 16 2 (withLink 0 1 ready)), by decide +kernel⟩,
   ⟨5, (withLink 16 2 (withLink 0 1 ready)), by decide +kernel⟩,
   ⟨5, regs [(Reg.FCH_CLEAN_STATUS, [], 2 * 2 ^ 44)] (withLink 16 2 (withLink 0 1 ready)), by decide +kernel⟩,
   ⟨255, withM (fun m => { m with home := { m.home with degraded := [255] } }) (withLink 16 2 (withLink 0 1 ready)), by decide +kernel⟩⟩

/-- States and operands that meet the hypotheses of `Obligations.DoorbellsAreServed`, clause by clause. -/
theorem meets_DoorbellsAreServed :
    (∃ (x : Msg) (f : Nat) (k : Nat) (off : Nat) (s : State), dispatchNext s.m 5 = some x ∧ slotOf x = some (f, k, off) ∧ x.h.kind = .mwr ∧ isDoorbell x off = false ∧ touchesDoorbell k off x.h.data.length = none) ∧
    (∃ (x : Msg) (f : Nat) (k : Nat) (off : Nat) (j : Nat) (s : State), dispatchNext s.m 5 = some x ∧ slotOf x = some (f, k, off) ∧ x.h.kind = .mwr ∧ isDoorbell x off = false ∧ touchesDoorbell k off x.h.data.length = some j) ∧
    (∃ (x : Msg) (f : Nat) (k : Nat) (ticket : Nat) (s : State), reservedDoorbell s.m = none ∧ nextDoorbell s.m 0 = some (x, f, k, ticket) ∧ k < gf s.m F.TEN_FLD_CFG_SLOTS [f] ∧ busyState (slotAt s.m f k).cur.state = false ∧ descriptorReserved (slotAt s.m f k).desc = false ∧ descriptorOk (slotAt s.m f k).desc = true) ∧
    (∃ (x : Msg) (f : Nat) (k : Nat) (ticket : Nat) (s : State), reservedDoorbell s.m = none ∧ nextDoorbell s.m 0 = some (x, f, k, ticket) ∧ k < gf s.m F.TEN_FLD_CFG_SLOTS [f] ∧ busyState (slotAt s.m f k).cur.state = false ∧ descriptorReserved (slotAt s.m f k).desc = false ∧ descriptorOk (slotAt s.m f k).desc = false) ∧
    (∃ (x : Msg) (f : Nat) (k : Nat) (ticket : Nat) (s : State), reservedDoorbell s.m = none ∧ nextDoorbell s.m 0 = some (x, f, k, ticket) ∧ k < gf s.m F.TEN_FLD_CFG_SLOTS [f] ∧ busyState (slotAt s.m f k).cur.state = true) ∧
    (∃ (x : Msg) (f : Nat) (k : Nat) (ticket : Nat) (cmd : Nat) (c : Instr) (s : State), (c = .doorbellSubmit ∧ cmd = 0 ∨ c = .doorbellRelease ∧ cmd = 1 ∨ c = .doorbellAbort ∧ cmd = 2) ∧ reservedDoorbell s.m = none ∧ nextDoorbell s.m cmd = some (x, f, k, ticket) ∧ gf s.m F.TEN_FLD_CFG_SLOTS [f] ≤ k) ∧
    (∃ (x : Msg) (f : Nat) (k : Nat) (ticket : Nat) (s : State), reservedDoorbell s.m = none ∧ nextDoorbell s.m 1 = some (x, f, k, ticket) ∧ k < gf s.m F.TEN_FLD_CFG_SLOTS [f] ∧ busyState (slotAt s.m f k).cur.state = false) ∧
    (∃ (x : Msg) (f : Nat) (k : Nat) (ticket : Nat) (s : State), reservedDoorbell s.m = none ∧ nextDoorbell s.m 1 = some (x, f, k, ticket) ∧ k < gf s.m F.TEN_FLD_CFG_SLOTS [f] ∧ busyState (slotAt s.m f k).cur.state = true) ∧
    (∃ (x : Msg) (f : Nat) (k : Nat) (ticket : Nat) (p : Parcel) (s : State), reservedDoorbell s.m = none ∧ nextDoorbell s.m 2 = some (x, f, k, ticket) ∧ k < gf s.m F.TEN_FLD_CFG_SLOTS [f] ∧ busyState (slotAt s.m f k).cur.state = true ∧ (slotAt s.m f k).cur.ticket = ticket ∧ s.m.eng.parcels.find? (fun p => !p.postmaster && p.fld == f && p.slot == k) = some p ∧ parcelOf s.m p.num = some p ∧ p.stopped = false ∧ p.flying = []) ∧
    (∃ (x : Msg) (f : Nat) (k : Nat) (ticket : Nat) (s : State), reservedDoorbell s.m = none ∧ nextDoorbell s.m 2 = some (x, f, k, ticket) ∧ k < gf s.m F.TEN_FLD_CFG_SLOTS [f] ∧ (busyState (slotAt s.m f k).cur.state = false ∨ (slotAt s.m f k).cur.ticket ≠ ticket)) ∧
    (∃ (f : Nat) (k : Nat) (c : Instr) (s : State), (c = .doorbellSubmit ∨ c = .doorbellRelease ∨ c = .doorbellAbort) ∧ reservedDoorbell s.m = some (f, k)) ∧
    (∃ (x : Msg) (f : Nat) (k : Nat) (ticket : Nat) (s : State), nextDoorbell s.m 0 = some (x, f, k, ticket) ∧ k < gf s.m F.TEN_FLD_CFG_SLOTS [f] ∧ busyState (slotAt s.m f k).cur.state = false ∧ descriptorReserved (slotAt s.m f k).desc = true) :=
  ⟨⟨slotWrite (256 * 15 + 16) (natLe 4 9), 0, 15, 16, atDispatcher (slotWrite (256 * 15 + 16) (natLe 4 9)) ready, by decide +kernel⟩,
   ⟨slotWrite (256 * 15 + 0x7C) (natLe 8 9), 0, 15, 0x7C, 15, atDispatcher (slotWrite (256 * 15 + 0x7C) (natLe 8 9)) ready, by decide +kernel⟩,
   ⟨slotWrite (256 * 15 + 0x80) (natLe 8 (0 * 65536 + 7)), 0, 15, 7, withEng (fun g => { g with slots := [(15, { desc := fillDesc })] }) (atDispatcher (slotWrite (256 * 15 + 0x80) (natLe 8 (0 * 65536 + 7))) ready), by decide +kernel⟩,
   ⟨slotWrite (256 * 15 + 0x80) (natLe 8 (0 * 65536 + 7)), 0, 15, 7, withEng (fun g => { g with slots := [(15, { desc := [2] ++ List.replicate 127 0 })] }) (atDispatcher (slotWrite (256 * 15 + 0x80) (natLe 8 (0 * 65536 + 7))) ready), by decide +kernel⟩,
   ⟨slotWrite (256 * 15 + 0x80) (natLe 8 (0 * 65536 + 7)), 0, 15, 7, withEng (fun g => { g with slots := [(15, { desc := fillDesc, log := [(⟨0, 0, 0⟩, { ticket := 7, state := 2 })] })] }) (atDispatcher (slotWrite (256 * 15 + 0x80) (natLe 8 (0 * 65536 + 7))) ready), by decide +kernel⟩,
   ⟨slotWrite (256 * 15 + 0x80) (natLe 8 (1 * 65536 + 7)), 0, 15, 7, 1, .doorbellRelease, puts [(F.TEN_FLD_CFG_SLOTS, [0], 15)] (atDispatcher (slotWrite (256 * 15 + 0x80) (natLe 8 (1 * 65536 + 7))) ready), by decide +kernel⟩,
   ⟨slotWrite (256 * 15 + 0x80) (natLe 8 (1 * 65536 + 7)), 0, 15, 7, withEng (fun g => { g with slots := [(15, { desc := fillDesc, log := [(⟨0, 0, 0⟩, { ticket := 6, state := 3 })] })] }) (atDispatcher (slotWrite (256 * 15 + 0x80) (natLe 8 (1 * 65536 + 7))) ready), by decide +kernel⟩,
   ⟨slotWrite (256 * 15 + 0x80) (natLe 8 (1 * 65536 + 7)), 0, 15, 7, withEng (fun g => { g with slots := [(15, { desc := fillDesc, log := [(⟨0, 0, 0⟩, { ticket := 7, state := 2 })] })] }) (atDispatcher (slotWrite (256 * 15 + 0x80) (natLe 8 (1 * 65536 + 7))) ready), by decide +kernel⟩,
   ⟨slotWrite (256 * 15 + 0x80) (natLe 8 (2 * 65536 + 7)), 0, 15, 7, parcel1, withEng (fun g => { g with slots := [(15, { desc := fillDesc, log := [(⟨0, 0, 0⟩, { ticket := 7, state := 2 })] })], parcels := [parcel1] }) (atDispatcher (slotWrite (256 * 15 + 0x80) (natLe 8 (2 * 65536 + 7))) ready), by decide +kernel⟩,
   ⟨slotWrite (256 * 15 + 0x80) (natLe 8 (2 * 65536 + 7)), 0, 15, 7, withEng (fun g => { g with slots := [(15, { log := [(⟨0, 0, 0⟩, { ticket := 6, state := 2 })] })] }) (atDispatcher (slotWrite (256 * 15 + 0x80) (natLe 8 (2 * 65536 + 7))) ready), by decide +kernel⟩,
   ⟨0, 15, .doorbellAbort, atDispatcher (slotWrite (256 * 15 + 0x80) (natLe 8 (3 * 65536 + 7))) ready, by decide +kernel⟩,
   ⟨slotWrite (256 * 15 + 0x80) (natLe 8 (0 * 65536 + 7)), 0, 15, 7, withEng (fun g => { g with slots := [(15, { desc := [7] ++ List.replicate 127 0 })] }) (atDispatcher (slotWrite (256 * 15 + 0x80) (natLe 8 (0 * 65536 + 7))) ready), by decide +kernel⟩⟩

set_option maxRecDepth 100000 in
/-- States and operands that meet the hypotheses of `Obligations.ParcelsRun`, clause by clause. -/
theorem meets_ParcelsRun :
    (∃ (e : Nat) (k : Nat) (num : Nat) (m : Mach) (p : Parcel) (s : State), e < 16 ∧ e ∉ s.m.eng.lost ∧ engineNext s.m.eng e = some k ∧ k ≤ s.time.now.toNat ∧ m = joinRotation s.m e k ∧ (tget [] m.eng.rotation e).head? = some num ∧ parcelOf m num = some p) ∧
    (∃ (e : Nat) (k : Nat) (p : Parcel) (s : State), e < 16 ∧ e ∉ s.m.eng.lost ∧ engineNext s.m.eng e = some k ∧ k ≤ s.time.now.toNat ∧ p ∈ s.m.eng.parcels ∧ p.engine = e ∧ p.ready = none ∧ p.doorbellTick + 256 ≤ k) ∧
    (∃ (e : Nat) (s : State), (∀ k, engineNext s.m.eng e = some k → s.time.now.toNat < k)) ∧
    (∃ (e : Nat) (num : Nat) (w : DueWrite) (p : Parcel) (s : State), writeDue s.m e = some (num, w) ∧ parcelOf s.m num = some p ∧ s.time.now.toNat < w.since + 63) ∧
    (∃ (e : Nat) (num : Nat) (w : DueWrite) (s : State), e < 16 ∧ writeDue s.m e = some (num, w) ∧ w.since + 63 ≤ s.time.now.toNat) ∧
    (∃ (n : Nat) (e : Nat) (num : Nat) (x : Transit) (o : LineOp) (p : Parcel) (s : State), s.m.sof.transit[n]? = some x ∧ x.tgt = .engine e ∧ x.msg.n ≤ x.got.length ∧ s.m.eng.parcels.findSome? (fun p => if p.engine == e then (p.flying.find? (fun o => o.tag == x.msg.h.etag)).map (fun o => (p.num, o)) else none) = some (num, o) ∧ parcelOf s.m num = some p) ∧
    (∃ (n : Nat) (e : Nat) (x : Transit) (s : State), s.m.sof.transit[n]? = some x ∧ x.tgt = .engine e ∧ x.msg.n ≤ x.got.length ∧ s.m.eng.parcels.findSome? (fun p => if p.engine == e then (p.flying.find? (fun o => o.tag == x.msg.h.etag)).map (fun o => (p.num, o)) else none) = none) ∧
    (∃ (x : Msg) (y : Msg) (f : Nat) (k : Nat) (off : Nat) (g : Target) (s : State), dispatchNext s.m 6 = some x ∧ slotOf x = some (f, k, off) ∧ y = replyTo s.m x 132 .cplD false false .ok (bytesAt ((List.range (16 - k)).map (fun i => slotBytes (slotAt s.m f (k + i)) x.pm)).flatten off x.h.len) x.pm x.sc ∧ replyTarget s.m x y = .inl g) :=
  ⟨⟨15, 5000000000, 0, joinRotation (withSof (fun o => { o with transit := [] }) (withEng (fun g => { g with parcels := [parcel1], rotation := [(15, [0])], last := [(15, 4999999997)] }) (withFld 2 ready))).m 15 5000000000, parcel1, withSof (fun o => { o with transit := [] }) (withEng (fun g => { g with parcels := [parcel1], rotation := [(15, [0])], last := [(15, 4999999997)] }) (withFld 2 ready)), by decide +kernel⟩,
   ⟨15, (engineNext (withSof (fun o => { o with transit := [] }) (withEng (fun g => { g with parcels := [{ parcel1 with ready := none }], rotation := [] }) (withFld 2 ready))).m.eng 15).getD 0, { parcel1 with ready := none }, withSof (fun o => { o with transit := [] }) (withEng (fun g => { g with parcels := [{ parcel1 with ready := none }], rotation := [] }) (withFld 2 ready)), by decide +kernel⟩,
   ⟨15, ready, (fun k h => absurd h (by rw [show engineNext ready.m.eng 15 = none by decide +kernel]; exact nofun))⟩,
   ⟨15, 0, ⟨0, 4000000000, 4999999938⟩, { parcel1 with due := [⟨0, 4000000000, 4999999938⟩] }, withSof (fun o => { o with transit := [] }) (withEng (fun g => { g with parcels := [{ parcel1 with due := [⟨0, 4000000000, 4999999938⟩] }], rotation := [(15, [0])] }) (withFld 2 ready)), by decide +kernel⟩,
   ⟨15, 0, ⟨0, 4000000000, 4999999937⟩, withSof (fun o => { o with transit := [] }) (withEng (fun g => { g with parcels := [{ parcel1 with due := [⟨0, 4000000000, 4999999937⟩] }], rotation := [(15, [0])] }) (withFld 2 ready)), by decide +kernel⟩,
   ⟨0, 15, 0, { transitOf1 .lineAck 1 (.engine 15) [0] .flying with msg := { msgOf .lineAck 4000000000 with h := { kind := .lineAck, etag := 5 } } }, ⟨5, 0, 1, none⟩, { parcel1 with flying := [⟨5, 0, 1, none⟩] }, withSof (fun o => { o with transit := [{ transitOf1 .lineAck 1 (.engine 15) [0] .flying with msg := { msgOf .lineAck 4000000000 with h := { kind := .lineAck, etag := 5 } } }] }) (withEng (fun g => { g with parcels := [{ parcel1 with flying := [⟨5, 0, 1, none⟩] }], rotation := [(15, [0])] }) (withFld 2 ready)), by decide +kernel⟩,
   ⟨0, 15, { transitOf1 .lineAck 1 (.engine 15) [0] .flying with msg := { msgOf .lineAck 4000000000 with h := { kind := .lineAck, etag := 6 } } }, withSof (fun o => { o with transit := [{ transitOf1 .lineAck 1 (.engine 15) [0] .flying with msg := { msgOf .lineAck 4000000000 with h := { kind := .lineAck, etag := 6 } } }] }) (withEng (fun g => { g with parcels := [{ parcel1 with flying := [⟨5, 0, 1, none⟩] }], rotation := [(15, [0])] }) (withFld 2 ready)), by decide +kernel⟩,
   ⟨{ slotWrite (256 * 15 + 0xC0) [] with h := { kind := .mrd, ioTo := .fldBar 0 (0x12000 + 256 * 15 + 0xC0), len := 4 }, mc := 6 }, replyTo (puts [(F.RTE_LOCAL_VALID, [0], 1), (F.RTE_LOCAL_KIND, [0], 0), (F.RTE_LOCAL_SLOT0, [0], 0)] (atDispatcher ({ slotWrite (256 * 15 + 0xC0) [] with h := { kind := .mrd, ioTo := .fldBar 0 (0x12000 + 256 * 15 + 0xC0), len := 4 }, mc := 6 }) ready)).m ({ slotWrite (256 * 15 + 0xC0) [] with h := { kind := .mrd, ioTo := .fldBar 0 (0x12000 + 256 * 15 + 0xC0), len := 4 }, mc := 6 }) 132 .cplD false false .ok (bytesAt ((List.range (16 - 15)).map (fun i => slotBytes (slotAt (puts [(F.RTE_LOCAL_VALID, [0], 1), (F.RTE_LOCAL_KIND, [0], 0), (F.RTE_LOCAL_SLOT0, [0], 0)] (atDispatcher ({ slotWrite (256 * 15 + 0xC0) [] with h := { kind := .mrd, ioTo := .fldBar 0 (0x12000 + 256 * 15 + 0xC0), len := 4 }, mc := 6 }) ready)).m 0 (15 + i)) ({ slotWrite (256 * 15 + 0xC0) [] with h := { kind := .mrd, ioTo := .fldBar 0 (0x12000 + 256 * 15 + 0xC0), len := 4 }, mc := 6 }).pm)).flatten 0xC0 ({ slotWrite (256 * 15 + 0xC0) [] with h := { kind := .mrd, ioTo := .fldBar 0 (0x12000 + 256 * 15 + 0xC0), len := 4 }, mc := 6 }).h.len) ({ slotWrite (256 * 15 + 0xC0) [] with h := { kind := .mrd, ioTo := .fldBar 0 (0x12000 + 256 * 15 + 0xC0), len := 4 }, mc := 6 }).pm ({ slotWrite (256 * 15 + 0xC0) [] with h := { kind := .mrd, ioTo := .fldBar 0 (0x12000 + 256 * 15 + 0xC0), len := 4 }, mc := 6 }).sc, 0, 15, 0xC0, .egress 0, puts [(F.RTE_LOCAL_VALID, [0], 1), (F.RTE_LOCAL_KIND, [0], 0), (F.RTE_LOCAL_SLOT0, [0], 0)] (atDispatcher ({ slotWrite (256 * 15 + 0xC0) [] with h := { kind := .mrd, ioTo := .fldBar 0 (0x12000 + 256 * 15 + 0xC0), len := 4 }, mc := 6 }) ready), by decide +kernel⟩⟩

end Sys2Proof.Tests
end

section
/-!
PROOFS. Fabric Time once locked (R29), and the timestamp of the CCIs (R356). Only the tick, a load before the lock, and the loss and
return of power write FTM_NOW or the lock: `TimeHeld` says so of the state that an operation leaves, `HoldsTime` of the outcome of a
command. Both compose, so that each operation is judged once, and a command by the operations it is made of.
-/

namespace Sys2Proof.Machine
open Sys2Proof

/-! ### Held Fabric Time -/

/-- Fabric Time, where it is locked in `s`, shows the same in `t` and is still locked. -/
structure TimeHeld (s t : State) : Prop where
  now : s.time.locked = true → t.time.now = s.time.now
  locked : s.time.locked = true → t.time.locked = true

theorem TimeHeld.refl (s : State) : TimeHeld s s := ⟨fun _ => rfl, id⟩

theorem TimeHeld.trans {s t u : State} (h : TimeHeld s t) (k : TimeHeld t u) : TimeHeld s u :=
  ⟨fun l => (k.now (h.locked l)).trans (h.now l), fun l => k.locked (h.locked l)⟩

/-- MRAM, the fuses, the machine and the queue have no part in it. -/
theorem TimeHeld.set {s t : State} (h : TimeHeld s t) {mram : List Host.Cell} {nvm : Nvm} {m : Mach} {q : List Instr} :
    TimeHeld s ⟨t.time, mram, nvm, m, q⟩ := ⟨h.now, h.locked⟩

theorem TimeHeld.rest {s : State} {mram : List Host.Cell} {nvm : Nvm} {m : Mach} {q : List Instr} :
    TimeHeld s ⟨s.time, mram, nvm, m, q⟩ := .set (.refl s)

theorem TimeHeld.ite {s t u : State} {c : Prop} [Decidable c] (ht : TimeHeld s t) (hu : TimeHeld s u) :
    TimeHeld s (if c then t else u) := by
  split
  · exact ht
  · exact hu

/-- Wherever an outcome has a next state, it holds the Fabric Time of `s`. -/
structure HoldsTime (s : State) (o : Host.Outcome State Fault Refusal) : Prop where
  held : ∀ t, o = .next t → TimeHeld s t

theorem HoldsTime.next {s t : State} (h : TimeHeld s t) : HoldsTime s (.next t) := by
  constructor
  intro u e
  cases e
  exact h

theorem HoldsTime.idle (s : State) : HoldsTime s (.next s) := .next (.refl s)

theorem HoldsTime.fault {s : State} {f : Fault} : HoldsTime s (.fault f) := ⟨by simp⟩

theorem HoldsTime.nextW {s t : State} (h : TimeHeld s t) : HoldsTime s (nextW t) := .next (.set h)

theorem HoldsTime.onMach {s : State} (f : Nat → Mach → Mach) : HoldsTime s (onMach f s) := .next .rest

theorem HoldsTime.onMachW {s : State} (f : Nat → Mach → Mach) : HoldsTime s (onMachW f s) := .next .rest

theorem HoldsTime.ite {s : State} {c : Prop} [Decidable c] {a b : Host.Outcome State Fault Refusal} (ha : HoldsTime s a)
    (hb : HoldsTime s b) : HoldsTime s (if c then a else b) := by
  split
  · exact ha
  · exact hb

theorem HoldsTime.trans {s t : State} {o : Host.Outcome State Fault Refusal} (h : TimeHeld s t) (k : HoldsTime t o) : HoldsTime s o :=
  ⟨fun u e => h.trans (k.held u e)⟩

/-! ### Firmware, start-up and warm resets -/

theorem showRunning_timeHeld (s : State) (k : Nat) : TimeHeld s (showRunning s k) := .rest

theorem runFirmware_timeHeld (s : State) (k : Nat) : TimeHeld s (runFirmware s k) := .set (showRunning_timeHeld s k)

theorem revertTrial_timeHeld (s : State) (k : Nat) : TimeHeld s (revertTrial s k) := .ite (.refl s) .rest

theorem warmRevert_timeHeld (s : State) (k : Nat) : TimeHeld s (warmRevert s k) :=
  .ite ((revertTrial_timeHeld s k).trans (runFirmware_timeHeld _ _)) (.refl s)

theorem readConfig_timeHeld (f : BootFacts) (limit : Nat) (s : State) : TimeHeld s (readConfig f limit s) := by
  unfold readConfig
  dsimp only
  split
  · exact .rest
  · exact .rest

theorem warmReset_timeHeld (cause limit : Nat) (f : BootFacts) (s : State) : TimeHeld s (warmReset cause limit f s) :=
  have h : TimeHeld s (warmRevert (warmRevert { s with m := warmMach s.m cause f } 0) 1) :=
    (TimeHeld.rest.trans (warmRevert_timeHeld _ 0)).trans (warmRevert_timeHeld _ 1)
  .ite h (h.trans (readConfig_timeHeld ..))

theorem powerUp_timeHeld (f : BootFacts) (s : State) : TimeHeld s (powerUp f s) :=
  .ite (.refl s) (.ite (warmReset_timeHeld ..) (TimeHeld.rest.trans (readConfig_timeHeld ..)))

theorem bootRecovered_timeHeld (k : Nat) (f : BootFacts) (s : State) : TimeHeld s (bootRecovered k f s) :=
  have h : TimeHeld s (runFirmware { s with mram := putFwRecord s.mram k 3 ((fwRecord s.mram (1 - k)).2 + 1) } k) :=
    TimeHeld.rest.trans (runFirmware_timeHeld _ k)
  .ite (h.trans (readConfig_timeHeld ..)) h

theorem reachStep8_timeHeld (s : State) : TimeHeld s (reachStep8 s) := by
  unfold reachStep8
  dsimp only
  split
  · exact ⟨fun _ => rfl, fun _ => rfl⟩
  · exact .refl s

/-! ### Power and reliability -/

theorem rasFatal_timeHeld (kind inst detail : Nat) (s : State) : TimeHeld s (rasFatal kind inst detail s) := .rest

theorem trip_timeHeld (bit e : Nat) (s : State) : TimeHeld s (trip bit e s) := by
  unfold trip
  dsimp only
  split_ifs
  · exact .refl s
  · exact (TimeHeld.rest.trans (rasFatal_timeHeld ..)).set.trans (rasFatal_timeHeld ..)
  · exact TimeHeld.rest.trans (rasFatal_timeHeld ..)

theorem fatalFault_timeHeld (code : Nat) (s : State) : TimeHeld s (fatalFault code s) :=
  have h := rasFatal_timeHeld 0x1B 0 code s
  .ite h.set h.set

theorem quadrantLost_timeHeld (n : Nat) (s : State) : TimeHeld s (quadrantLost n s) :=
  .ite (.refl s) (.ite .rest (TimeHeld.rest.trans (fatalFault_timeHeld ..)))

theorem handBack_timeHeld (reason : Nat) (s : State) : TimeHeld s (handBack reason s) := .rest


theorem lockoutBegin_holdsTime (kind vin e : Nat) (s : State) : HoldsTime s (lockoutBegin kind vin e s) := .ite (.idle s) (.nextW .rest)

theorem execFetSensorRead_holdsTime (t : Int) (selfTest : Bool) (model : Int) (e : Nat) (s : State) :
    HoldsTime s (execFetSensorRead t selfTest model e s) :=
  .ite (.idle s) (.ite (.nextW (TimeHeld.rest.trans (trip_timeHeld ..)))
    (.ite (.nextW (TimeHeld.rest.trans (trip_timeHeld ..))) (.next .rest)))

theorem execJunctionRead_holdsTime (tj : Int) (e : Nat) (s : State) : HoldsTime s (execJunctionRead tj e s) :=
  .ite (.idle s) (.nextW (.ite (TimeHeld.rest.trans (trip_timeHeld ..)) .rest))

theorem execQuadrantTakeover_holdsTime (n : Nat) (parity : Bool) (s : State) : HoldsTime s (execQuadrantTakeover n parity s) :=
  .ite (.idle s) (.ite (.ite (.nextW (TimeHeld.rest.trans (quadrantLost_timeHeld ..))) (.idle s)) (.ite (.nextW .rest) (.idle s)))

theorem execDomainIsolation_holdsTime (d : Nat) (oc lr : Bool) (s : State) : HoldsTime s (execDomainIsolation d oc lr s) :=
  .ite (.idle s) (.nextW (.ite .rest (.ite .rest (.ite (TimeHeld.rest.trans (quadrantLost_timeHeld ..)) (.ite .rest .rest)))))

theorem execPostmasterFailover_holdsTime (s : State) : HoldsTime s (execPostmasterFailover s) :=
  .ite (.idle s) (.ite (.nextW (TimeHeld.rest.trans (fatalFault_timeHeld ..)))
    (.ite (.next .rest) (.ite (.nextW (TimeHeld.rest.trans (handBack_timeHeld ..))) (.nextW .rest))))

theorem execPostmasterRequestTimeout_holdsTime (s : State) : HoldsTime s (execPostmasterRequestTimeout s) := by
  unfold execPostmasterRequestTimeout
  split
  · exact .idle s
  · dsimp only
    split
    · exact .next .rest
    · exact .next .rest

theorem execPersistDone_holdsTime (ok : Bool) (s : State) : HoldsTime s (execPersistDone ok s) := by
  unfold execPersistDone
  split
  · exact .idle s
  · exact .ite (.nextW .rest) (.nextW .rest)

/-! ### Doorbells -/

theorem ring_holdsTime (act : Nat → Mach → Mach) (s : State) : HoldsTime s (ring act s) := by
  unfold ring
  split
  · exact .fault
  · exact .onMach act

theorem execDoorbellSubmit_holdsTime (s : State) : HoldsTime s (execDoorbellSubmit s) := by
  unfold execDoorbellSubmit
  split
  · exact .fault
  · exact ring_holdsTime _ s

/-! ### Time exchange and PPS_IN -/

theorem execTime_holdsTime (i : Nat) (s : State) : HoldsTime s (execTime i s) := by
  unfold execTime
  split
  · exact .idle s
  · dsimp only
    split_ifs with _ _ hload
    · exact .idle s
    · exact .next .rest
    · refine .next ⟨fun hl => ?_, fun hl => hl⟩
      simp [hl] at hload
    · exact .next .rest
    · exact .next ⟨fun _ => rfl, fun hl => hl⟩

theorem execPpsInEdge_holdsTime (s : State) : HoldsTime s (execPpsInEdge s) := by
  refine .ite (.idle s) (.next ⟨fun _ => ?_, fun hl => ?_⟩)
  · dsimp only
    split <;> rfl
  · dsimp only
    split <;> exact hl

/-! ### Management writes and reads -/

/-- Where `x` is an answer, the state in it holds the Fabric Time of `s`. -/
structure AnswerHolds {β : Type} (p : β → State) (s : State) (x : Sum Fault β) : Prop where
  held : ∀ b, x = .inr b → TimeHeld s (p b)

theorem AnswerHolds.inl {β : Type} {p : β → State} {s : State} {f : Fault} : AnswerHolds p s (.inl f) := ⟨by simp⟩

theorem AnswerHolds.inr {β : Type} {p : β → State} {s : State} {b : β} (h : TimeHeld s (p b)) : AnswerHolds p s (.inr b) :=
  ⟨fun _ e => Sum.inr.inj e ▸ h⟩

theorem AnswerHolds.ite {β : Type} {p : β → State} {s : State} {c : Prop} [Decidable c] {x y : Sum Fault β} (hx : AnswerHolds p s x)
    (hy : AnswerHolds p s y) : AnswerHolds p s (if c then x else y) := by
  split
  · exact hx
  · exact hy

theorem AnswerHolds.trans {β : Type} {p : β → State} {s t : State} {x : Sum Fault β} (h : TimeHeld s t) (k : AnswerHolds p t x) :
    AnswerHolds p s x := ⟨fun b e => h.trans (k.held b e)⟩

/-- R29: a write of FTM_LOAD after the lock is discarded. -/
theorem ftmLoad_timeHeld (v : Word) (s : State) : TimeHeld s (ftmLoad v s) := by
  unfold ftmLoad
  split
  · exact .rest
  next h => exact ⟨fun hl => absurd hl h, id⟩

theorem amdPersist_timeHeld (ticket : Nat) (s : State) : TimeHeld s (amdPersist ticket s) := .ite .rest (.ite .rest .rest)

theorem amdCmd_timeHeld (who : Iface) (cmd ticket : Nat) (s : State) : TimeHeld s (amdCmd who cmd ticket s) := by
  unfold amdCmd
  split
  · exact .rest
  · exact .rest
  · exact .rest
  · exact .rest
  · exact amdPersist_timeHeld ticket s
  · exact .refl s

theorem commitWord_timeHeld (who : Iface) (r : RegDef) (ix : List Nat) (v mask : Word) (s : State) :
    TimeHeld s (commitWord who r ix v mask s) := by
  unfold commitWord
  extract_lets now b s1
  have h : TimeHeld s s1 := .ite (.refl s) .rest
  exact .ite (h.trans (ftmLoad_timeHeld ..)) (.ite (.ite h.set h) (.ite (.ite h.set h) (.ite (.ite h.set h)
    (.ite (h.trans (amdCmd_timeHeld ..)) (.ite h.set h)))))

theorem writeWord_answerHolds (who : Iface) (a : Nat) (v mask : Word) (s : State) : AnswerHolds Prod.fst s (writeWord who a v mask s) := by
  unfold writeWord
  refine .ite (.inr (.refl s)) (.ite (.inr .rest) ?_)
  split
  · exact .inr (.refl s)
  · dsimp only
    split
    · exact .inr .rest
    · exact .ite .inl (.inr (commitWord_timeHeld ..))

theorem writeWords_answerHolds (who : Iface) (a : Nat) (bs : List Byte) (ws : List Nat) (s : State) (gap : Bool) :
    AnswerHolds Prod.fst s (writeWords who a bs ws s gap) := by
  induction ws generalizing s gap with
  | nil => exact .inr (.refl s)
  | cons w ws ih =>
    unfold writeWords
    split
    · exact .inl
    next t g hw => exact .trans ((writeWord_answerHolds ..).held _ hw) (ih t _)

theorem regWrite_answerHolds (who : Iface) (a : Nat) (bs : List Byte) (s : State) : AnswerHolds Prod.snd s (regWrite who a bs s) := by
  unfold regWrite
  split
  · exact .inr .rest
  · refine .ite (.inr .rest) ?_
    split
    · exact .inl
    next t gap hw => exact .inr (.set ((writeWords_answerHolds ..).held _ hw))

theorem readWord_timeHeld (s : State) (a : Nat) : TimeHeld s (readWord s a).2 := by
  unfold readWord
  split_ifs
  · exact .refl s
  · exact .refl s
  · split
    · exact .refl s
    · dsimp only
      split_ifs
      · split
        · exact .refl s
        · exact .rest
      · exact .refl s
      · exact .refl s

theorem readWords_timeHeld (as : List Nat) (s : State) : TimeHeld s (readWords as s).2 := by
  induction as generalizing s with
  | nil => exact .refl s
  | cons a as ih => exact (readWord_timeHeld s a).trans (ih _)

theorem regRead_timeHeld (who : Iface) (a len : Nat) (s : State) : TimeHeld s (regRead who a len s).2.2 := by
  unfold regRead
  split
  · exact .rest
  · split
    · exact .rest
    · exact .ite (readWords_timeHeld ..).set (readWords_timeHeld ..)

/-! ### Commands of the management interfaces -/

theorem noteServed_timeHeld (s : State) : TimeHeld s (noteServed s) := .ite .rest (.refl s)

section Wrappers

variable {who : Iface} {i : Instr} {act : State → Host.Outcome State Fault Refusal}

theorem managed_holdsTime (h : ∀ s, HoldsTime s (act s)) (s : State) : HoldsTime s (managed who i act s) :=
  .ite (.idle s) (.ite (.next .rest) (.trans (noteServed_timeHeld s) (h _)))

theorem fldMailbox_holdsTime {f : Nat} (h : ∀ s, HoldsTime s (act s)) (s : State) : HoldsTime s (fldMailbox f i act s) :=
  .ite (.idle s) (.ite (.next .rest) (h s))

theorem cciCommand_holdsTime (h : ∀ s, HoldsTime s (act s)) (s : State) : HoldsTime s (cciCommand who i act s) := by
  unfold cciCommand
  split
  · exact fldMailbox_holdsTime (fun _ => .next .rest) s
  · exact .ite (managed_holdsTime h s) (.idle s)

theorem deviceCommand_holdsTime (h : ∀ s, HoldsTime s (act s)) (s : State) : HoldsTime s (deviceCommand who i act s) := by
  unfold deviceCommand
  split
  · exact fldMailbox_holdsTime h s
  · exact cciCommand_holdsTime h s

end Wrappers

theorem managedNext_holdsTime {who : Iface} {i : Instr} {act : State → State} (h : ∀ s, TimeHeld s (act s)) (s : State) :
    HoldsTime s (managedNext who i act s) := managed_holdsTime (fun s => .next (h s)) s

theorem cciMach_holdsTime (who : Iface) (i : Instr) (act : Nat → Mach → Mach) (s : State) : HoldsTime s (cciMach who i act s) :=
  cciCommand_holdsTime (fun _ => .onMachW act) s

theorem deviceMach_holdsTime (who : Iface) (i : Instr) (act : Nat → Mach → Mach) (s : State) : HoldsTime s (deviceMach who i act s) :=
  deviceCommand_holdsTime (fun _ => .onMachW act) s

theorem fldMach_holdsTime (f : Nat) (i : Instr) (act : Nat → Mach → Mach) (s : State) : HoldsTime s (fldMach f i act s) :=
  fldMailbox_holdsTime (fun _ => .onMachW act) s

theorem putReg_holdsTime (who : Iface) (a : Nat) (v : Word) (s : State) : HoldsTime s (putReg who a v s) := by
  unfold putReg
  split
  · exact .fault
  next t hw => exact .next (.set ((regWrite_answerHolds ..).held _ hw))

theorem managed_putReg_holdsTime (who : Iface) (i : Instr) (a : Nat) (v : Word) (s : State) :
    HoldsTime s (managed who i (putReg who a v) s) := managed_holdsTime (putReg_holdsTime who a v) s

theorem execRearm_holdsTime (who : Iface) (s : State) : HoldsTime s (execRearm who s) := by
  refine managed_holdsTime (fun s => ?_) s
  exact putReg_holdsTime ..

theorem execEvqPop_holdsTime (who : Iface) (s : State) : HoldsTime s (execEvqPop who s) :=
  managedNext_holdsTime (fun _ => .set (regRead_timeHeld ..)) s

theorem readReply_timeHeld (who : Iface) (a len : Nat) (s : State) : TimeHeld s (readReply who a len s) :=
  .set (regRead_timeHeld who a len s)

theorem writeReply_holdsTime (who : Iface) (a : Nat) (bs : List Byte) (s : State) : HoldsTime s (writeReply who a bs s) := by
  unfold writeReply
  split
  · exact .fault
  next t hw => exact .next (.set ((regWrite_answerHolds ..).held _ hw))

theorem eventsReply_timeHeld (who : Iface) (max : Nat) (s : State) : TimeHeld s (eventsReply who max s) := by
  unfold eventsReply
  split
  · exact .rest
  · exact .rest

theorem execAmendmentCommand_holdsTime (who : Iface) (cmd ticket : Nat) (cut : Word) (s : State) :
    HoldsTime s (execAmendmentCommand who cmd ticket cut s) := by
  refine cciCommand_holdsTime (fun s => ?_) s
  have hcut : AnswerHolds Prod.snd s (if cmd == 2 then regWrite who Reg.AMD_CUTOVER.base (natLe 8 cut.toNat) s else .inr (0, s)) :=
    .ite (regWrite_answerHolds ..) (.inr (.refl s))
  split
  · exact .fault
  next k t ht =>
    have h : TimeHeld s t := hcut.held _ ht
    refine .ite (.next h.set) ?_
    split
    · exact .fault
    next u hu => exact .next (h.trans ((regWrite_answerHolds ..).held _ hu)).set

theorem execStageItems_holdsTime (who : Iface) (items : List (Word × Word × Nat)) (s : State) :
    HoldsTime s (execStageItems who items s) := by
  refine cciCommand_holdsTime (fun s => .ite (.next .rest) ?_) s
  split
  · exact .next .rest
  · exact .nextW .rest

/-! ### MCTP and SPDM -/

theorem spdm_holdsTime {who : Iface} {i : Instr} {act : State → State} (h : ∀ s, TimeHeld s (act s)) (s : State) :
    HoldsTime s (spdm who i act s) := .ite (.idle s) (.ite (.next .rest) (.next (h s)))

theorem getCertificate_timeHeld (who : Iface) (slot off len : Nat) (s : State) : TimeHeld s (getCertificate who slot off len s) :=
  .ite .rest (.ite .rest .rest)

theorem signedReply_timeHeld (who : Iface) (vals : List Nat) (s : State) : TimeHeld s (signedReply who vals s) := .ite (.refl s) .rest

theorem spdmAct_timeHeld (who : Iface) (r : SpdmReq) (s : State) : TimeHeld s (spdmAct who r s) := by
  cases r with
  | getVersion => exact .rest
  | getCapabilities v => exact .ite .rest .rest
  | negotiateAlgorithms => exact .rest
  | getDigests => exact .rest
  | getCertificate slot off len => exact getCertificate_timeHeld ..
  | challenge slot => exact .ite (signedReply_timeHeld ..) .rest
  | keyExchange => exact .ite (.refl s) (TimeHeld.rest.trans (signedReply_timeHeld ..))
  | finish ok known => exact .ite .rest (.ite .rest .rest)
  | keyUpdate => exact .rest
  | endSession => exact .ite .rest .rest
  | other => exact .rest

theorem foldl_timeHeld {β : Type} {f : State → β → State} (h : ∀ s b, TimeHeld s (f s b)) (l : List β) (s : State) :
    TimeHeld s (l.foldl f s) := by
  induction l generalizing s with
  | nil => exact .refl s
  | cons b l ih => exact (h s b).trans (ih _)

theorem getMeasurements_timeHeld (who : Iface) (index : Nat) (s : State) : TimeHeld s (getMeasurements who index s) :=
  .ite .rest (.ite (foldl_timeHeld (fun _ _ => .rest) _ s) (.ite .rest .rest))

theorem setCertificate_timeHeld (who : Iface) (slot : Nat) (chain : List Byte) (s : State) : TimeHeld s (setCertificate who slot chain s) :=
  .ite .rest .rest

theorem tspLockRequest_timeHeld (p : Nat) (s : State) : TimeHeld s (tspLockRequest p s) := .ite .rest (.refl s)

theorem ideKm_timeHeld (p : Nat) (cm link : Bool) (sel : Nat) (s : State) : TimeHeld s (ideKm p cm link sel s) := .ite .rest (.refl s)

/-! ### Brumin requests -/

theorem bruminRequest_holdsTime {who : Iface} {seq : Nat} {op : BrumOp} {i : Instr} {act : State → Sum Fault (Reply × State)}
    (h : ∀ s, AnswerHolds Prod.snd s (act s)) (s : State) : HoldsTime s (bruminRequest who seq op i act s) := by
  unfold bruminRequest
  split
  next mac sess =>
    refine .ite (.idle s) (.ite (.next .rest) ?_)
    extract_lets s1
    have h1 : TimeHeld s s1 := TimeHeld.rest.trans (noteServed_timeHeld _)
    split
    · exact .next h1.set
    · refine .ite (.next h1.set) ?_
      split
      · exact .fault
      next t ht => exact .nextW (h1.trans ((h _).held _ ht)).set
  · refine .ite (.idle s) (managed_holdsTime (fun s => ?_) s)
    split
    · exact .fault
    next t ht => exact .nextW (.set ((h _).held _ ht))

theorem bruminOnly_holdsTime {who : Iface} {seq : Nat} {op : BrumOp} {i : Instr} {act : Nat → Bool → State → Reply × State}
    (h : ∀ mac sess s, TimeHeld s (act mac sess s).2) (s : State) : HoldsTime s (bruminOnly who seq op i act s) := by
  unfold bruminOnly
  split
  · exact bruminRequest_holdsTime (fun s => .inr (h _ _ s)) s
  · exact .idle s

theorem deniedReply_timeHeld (who : Iface) (s : State) : TimeHeld s (deniedReply who s).2 := .rest

theorem refusedReply_timeHeld (who : Iface) (s : State) : TimeHeld s (refusedReply who s).2 := .rest

theorem execDiscover_holdsTime (who : Iface) (seq : Nat) (s : State) : HoldsTime s (execDiscover who seq s) := by
  refine bruminRequest_holdsTime (fun s => ?_) s
  exact .inr (.refl s)

theorem execRegRead_holdsTime (who : Iface) (seq a len : Nat) (s : State) : HoldsTime s (execRegRead who seq a len s) :=
  bruminRequest_holdsTime (fun _ => .ite (.inr (deniedReply_timeHeld ..)) (.inr (regRead_timeHeld ..))) s

theorem execRegWrite_holdsTime (who : Iface) (seq a : Nat) (data : List Byte) (s : State) :
    HoldsTime s (execRegWrite who seq a data s) := by
  refine bruminRequest_holdsTime (fun s => .ite (.inr (deniedReply_timeHeld ..)) ?_) s
  split
  · exact .inl
  next t ht => exact .inr ((regWrite_answerHolds ..).held _ ht)

theorem execEvqRead_holdsTime (who : Iface) (seq max : Nat) (s : State) : HoldsTime s (execEvqRead who seq max s) := by
  refine bruminRequest_holdsTime (fun s => .ite (.inr (.refl s)) ?_) s
  split
  · exact .inr .rest
  · exact .inr .rest

theorem imageBegin_timeHeld (who : Iface) (len ticket slot : Nat) (s : State) : TimeHeld s (imageBegin who len ticket slot s).2 := by
  unfold imageBegin
  split
  · exact deniedReply_timeHeld who s
  · split
    · exact TimeHeld.rest.trans (refusedReply_timeHeld ..)
    · exact .rest

theorem imageData_timeHeld (who : Iface) (idx : Nat) (body : List Byte) (s : State) : TimeHeld s (imageData who idx body s).2 := by
  unfold imageData
  split
  · exact .refl s
  · split_ifs
    · exact deniedReply_timeHeld who s
    · exact .refl s
    · exact TimeHeld.rest.trans (refusedReply_timeHeld ..)
    · exact .rest
    · exact .rest

theorem imageEnd_timeHeld (who : Iface) (sig : Bool) (s : State) : TimeHeld s (imageEnd who sig s).2 := by
  unfold imageEnd
  split
  · exact .refl s
  · split
    · exact deniedReply_timeHeld who s
    · exact .rest

theorem bruminPacket_timeHeld (who : Iface) (r : McMsg) (s : State) : TimeHeld s (bruminPacket who r s) := by
  cases r with
  | control c => exact .ite (.refl s) .rest
  | pldm q => exact .ite (.refl s) .rest
  | spdm q => exact spdmAct_timeHeld who q s
  | measurements k => exact getMeasurements_timeHeld who k s
  | setCertificate k c => exact .ite (.refl s) (setCertificate_timeHeld who k c s)
  | other _ => exact .refl s

theorem execBruminMctp_holdsTime (who : Iface) (seq : Nat) (r : McMsg) (s : State) : HoldsTime s (execBruminMctp who seq r s) :=
  bruminOnly_holdsTime (fun _ _ s => .set (bruminPacket_timeHeld who r s)) s

/-! ### Firmware updates -/

theorem fwRequest_holdsTime {who : Iface} {seq : Nat} {i : Instr} {act : State → Reply × State} (h : ∀ s, TimeHeld s (act s).2)
    (s : State) : HoldsTime s (fwRequest who seq i act s) := by
  refine bruminOnly_holdsTime (fun _ _ s => ?_) s
  split
  · exact deniedReply_timeHeld who s
  · exact h s

theorem fwBegin_timeHeld (who : Iface) (len ticket : Nat) (s : State) : TimeHeld s (fwBegin who len ticket s).2 := by
  unfold fwBegin
  split
  · exact TimeHeld.rest.trans (refusedReply_timeHeld ..)
  · exact .rest

theorem fwData_timeHeld (who : Iface) (idx : Nat) (body : List Byte) (s : State) : TimeHeld s (fwData who idx body s).2 := by
  unfold fwData
  split
  · exact .refl s
  · split
    · exact .refl s
    · split
      · exact TimeHeld.rest.trans (refusedReply_timeHeld ..)
      · exact .rest

theorem fwEnd_timeHeld (who : Iface) (sig : Bool) (f : BootFacts) (s : State) : TimeHeld s (fwEnd who sig f s).2 := by
  unfold fwEnd
  split
  · exact .refl s
  · dsimp only
    split
    · exact .rest
    · exact .ite (TimeHeld.rest.trans (bootRecovered_timeHeld ..)) .rest

theorem fwAbort_timeHeld (who : Iface) (s : State) : TimeHeld s (fwAbort who s).2 := .rest

theorem fwActivate_timeHeld (who : Iface) (ticket : Nat) (s : State) : TimeHeld s (fwActivate who ticket s).2 := by
  unfold fwActivate
  dsimp only
  split
  · exact TimeHeld.rest.trans (refusedReply_timeHeld ..)
  · exact .rest

theorem commitTrial_timeHeld (s : State) : TimeHeld s (commitTrial s) := .rest

theorem execStandbyBootDone_holdsTime (ok sig : Bool) (s : State) : HoldsTime s (execStandbyBootDone ok sig s) :=
  .ite (.idle s) (.ite (.nextW .rest) (.nextW .rest))

theorem execUcodeStationLoad_holdsTime (k : Nat) (ok : Bool) (s : State) : HoldsTime s (execUcodeStationLoad k ok s) :=
  .ite (.idle s) (.ite (.nextW .rest) (.nextW .rest))

/-! ### Debug authorisation -/

theorem challenge_timeHeld (s : State) : TimeHeld s (challenge s).2 := .rest

theorem present_timeHeld (mac : Nat) (t : DebugToken) (s : State) : TimeHeld s (present mac t s).2 := by
  unfold present
  dsimp only
  split_ifs
  · exact .rest
  · exact .rest
  · exact .rest

theorem debugEnd_timeHeld (mac : Nat) (s : State) : TimeHeld s (debugEnd mac s).2 := by
  unfold debugEnd
  split
  · split
    · exact .rest
    · exact deniedReply_timeHeld _ s
  · exact .refl s

theorem mramRead_timeHeld (mac off len : Nat) (s : State) : TimeHeld s (mramRead mac off len s).2 := by
  unfold mramRead
  dsimp only
  split_ifs
  · exact deniedReply_timeHeld _ s
  · exact .refl s
  · exact .rest
  · exact .refl s

theorem mramWrite_timeHeld (mac off : Nat) (data : List Byte) (s : State) : TimeHeld s (mramWrite mac off data s).2 := by
  unfold mramWrite
  dsimp only
  split_ifs
  · exact deniedReply_timeHeld _ s
  · exact .refl s
  · exact .rest
  · exact .rest

theorem ownerSet_timeHeld (mac : Nat) (sess : Bool) (keys : List Byte) (s : State) : TimeHeld s (ownerSet mac sess keys s).2 := by
  unfold ownerSet
  dsimp only
  split_ifs
  · exact .refl s
  · exact deniedReply_timeHeld _ s
  · exact .refl s
  · exact .rest

theorem blowRma_timeHeld (s : State) : TimeHeld s (blowRma s) := .rest

theorem rma_timeHeld (mac : Nat) (f : BootFacts) (s : State) : TimeHeld s (rma mac f s).2 := by
  unfold rma
  split
  · exact deniedReply_timeHeld _ s
  · exact .ite ((blowRma_timeHeld s).set.trans (warmReset_timeHeld ..)) (blowRma_timeHeld s).set

/-! ### Every command but those of the clock and of power -/

/-- The tick, and the commands with which the always-on domain loses power or has it again. -/
def movesTime : Instr → Bool
  | .fabricTimeTick | .aonLoss | .vinRise .. => true
  | _ => false

theorem exec_holdsTime (c : Instr) (s : State) (h : movesTime c = false) : HoldsTime s (exec c s) := by
  cases c with
  | fabricTimeTick | aonLoss | vinRise => cases h
  -- time and its exchange
  | ppsInEdge => exact execPpsInEdge_holdsTime s
  | time i => exact execTime_holdsTime i s
  -- commands that end in a fault for a reserved value
  | doorbellSubmit => exact execDoorbellSubmit_holdsTime s
  | doorbellRelease | doorbellAbort => exact ring_holdsTime _ s
  | l0pRequest p code => exact .ite .fault (.next .rest)
  | bwWinChange win => exact .ite .fault (.onMach _)
  | trackingReseed w => exact .ite .fault (.onMach _)
  -- the inlet guard and resets
  | prechargeStart | prechargeComplete | gateRampDone | currentLimitEngage | currentLimitRelease => exact .ite (.next .rest) (.idle s)
  | prechargeTimeout | faultTimerTrip => exact .ite (.nextW (trip_timeHeld ..)) (.idle s)
  | fastTrip iin => exact .ite (.nextW (TimeHeld.rest.trans (trip_timeHeld ..))) (.idle s)
  | pwrgdAssert f => exact .ite (.nextW (TimeHeld.rest.trans (powerUp_timeHeld ..))) (.idle s)
  | uvlo | ovlo => exact .ite (lockoutBegin_holdsTime ..) (.idle s)
  | lockoutEnd vin => exact .ite (.nextW .rest) (.idle s)
  | fetSensorRead t selfTest model e => exact execFetSensorRead_holdsTime t selfTest model e s
  | enFall | enRise => exact .ite (.idle s) (.nextW .rest)
  | junctionRead tj e => exact execJunctionRead_holdsTime tj e s
  | rstNAssert => exact .ite (.idle s) (.next .rest)
  | warmReset | autoReset => exact .ite (.nextW (warmReset_timeHeld ..)) (.idle s)
  -- reliability
  | domainIsolation d oc lr => exact execDomainIsolation_holdsTime d oc lr s
  | quadrantTakeover n parity => exact execQuadrantTakeover_holdsTime n parity s
  | postmasterFailover => exact execPostmasterFailover_holdsTime s
  | fatalFault code => exact .ite (.nextW (fatalFault_timeHeld code s)) (.idle s)
  | postmasterRequestTimeout => exact execPostmasterRequestTimeout_holdsTime s
  | postmasterPairSelfTestDone ok => exact .ite (.idle s) (.nextW .rest)
  | persistDone ok => exact execPersistDone_holdsTime ok s
  -- writes of one register over a management interface
  | ftmLoad | glbReset | amdOpen | amdStageItem | amdCheck | amdDispatch | amdDiscard | amdPersist | mgmtRegisterWrite | ackFlagWrite
  | evqHeadWrite | wmConfigWrite | inlPdCtlWrite | tspLock => exact managed_putReg_holdsTime ..
  | rearm who => exact execRearm_holdsTime who s
  | evqPop who => exact execEvqPop_holdsTime who s
  -- mailbox commands that work on the machine alone
  | getDynamicCapacityConfiguration | getDynamicCapacityExtentList | addDynamicCapacityResponse | releaseDynamicCapacity =>
    exact fldMach_holdsTime ..
  | initiateDynamicCapacityAdd | initiateDynamicCapacityRelease | bindVppb | unbindVppb | setDcRegionConfiguration | pbrIdAssignment
  | physicalPortControl | tunnelManagementCommand | sendLdCxlIoConfigurationRequest | sendLdCxlIoMemoryRequest | getLdInfo
  | getLdAllocations | setLdAllocations => exact cciMach_holdsTime ..
  | identify | backgroundOperationStatus | getResponseMessageLimit | setResponseMessageLimit | getEventRecords | clearEventRecords
  | getEventInterruptPolicy | setEventInterruptPolicy | getTimestamp | setTimestamp | transferFw | activateFw =>
    exact deviceMach_holdsTime ..
  -- the other mailbox commands
  | getFwInfo who => exact deviceCommand_holdsTime (fun _ => .nextW .rest) s
  | registerRead who a len => exact cciCommand_holdsTime (fun _ => .nextW (readReply_timeHeld ..)) s
  | registerWrite who a data => exact cciCommand_holdsTime (writeReply_holdsTime who a data) s
  | eventQueueRead who max => exact cciCommand_holdsTime (fun _ => .ite (.next .rest) (.nextW (eventsReply_timeHeld ..))) s
  | amendmentCommand who cmd ticket cut => exact execAmendmentCommand_holdsTime who cmd ticket cut s
  | stageItems who items => exact execStageItems_holdsTime who items s
  -- MCTP, PLDM and SPDM
  | mctpControl who r => exact .ite (managedNext_holdsTime (fun _ => .rest) s) (.idle s)
  | pldmRequest who r => exact .ite (managedNext_holdsTime (fun _ => .rest) s) (.idle s)
  | spdmRequest who r => exact spdm_holdsTime (spdmAct_timeHeld who r) s
  | getMeasurements who index => exact spdm_holdsTime (getMeasurements_timeHeld who index) s
  | setCertificate who slot chain => exact spdm_holdsTime (setCertificate_timeHeld who slot chain) s
  | tspLockRequest p => exact spdm_holdsTime (tspLockRequest_timeHeld p) s
  | ideKm p cm link sel => exact .next (ideKm_timeHeld p cm link sel s)
  -- Brumin requests
  | discover who seq => exact execDiscover_holdsTime who seq s
  | regRead who seq a len => exact execRegRead_holdsTime who seq a len s
  | regWrite who seq a data => exact execRegWrite_holdsTime who seq a data s
  | evqRead who seq max => exact execEvqRead_holdsTime who seq max s
  | imageBegin who seq len ticket slot => exact bruminRequest_holdsTime (fun _ => .inr (imageBegin_timeHeld ..)) s
  | imageData who seq idx body => exact bruminRequest_holdsTime (fun _ => .inr (imageData_timeHeld ..)) s
  | imageEnd who seq sig => exact bruminRequest_holdsTime (fun _ => .inr (imageEnd_timeHeld ..)) s
  | bruminMctp who seq r => exact execBruminMctp_holdsTime who seq r s
  | fwBegin who seq len ticket => exact fwRequest_holdsTime (fwBegin_timeHeld who len ticket) s
  | fwData who seq idx body => exact fwRequest_holdsTime (fwData_timeHeld who idx body) s
  | fwEnd who seq sig f => exact fwRequest_holdsTime (fwEnd_timeHeld who sig f) s
  | fwActivate who seq ticket => exact fwRequest_holdsTime (fwActivate_timeHeld who ticket) s
  | fwAbort who seq => exact fwRequest_holdsTime (fwAbort_timeHeld who) s
  | challenge who seq => exact bruminOnly_holdsTime (fun _ _ s => challenge_timeHeld s) s
  | present who seq t => exact bruminOnly_holdsTime (fun mac _ s => present_timeHeld mac t s) s
  | debugEnd who seq => exact bruminOnly_holdsTime (fun mac _ s => debugEnd_timeHeld mac s) s
  | mramRead who seq off len => exact bruminOnly_holdsTime (fun mac _ s => mramRead_timeHeld mac off len s) s
  | mramWrite who seq off data => exact bruminOnly_holdsTime (fun mac _ s => mramWrite_timeHeld mac off data s) s
  | rma who seq f => exact bruminOnly_holdsTime (fun mac _ s => rma_timeHeld mac f s) s
  | ownerSet who seq keys => exact bruminOnly_holdsTime (fun mac sess s => ownerSet_timeHeld mac sess keys s) s
  -- activation
  | standbyBootDone ok sig => exact execStandbyBootDone_holdsTime ok sig s
  | fwHealthy ok => exact .ite (.nextW (commitTrial_timeHeld s)) (.idle s)
  | fwHealthTimeout => exact .ite (.nextW (handBack_timeHeld ..)) (.idle s)
  | ucodeStationLoad k ok => exact execUcodeStationLoad_holdsTime k ok s
  -- every other command has its effect on the machine alone
  | _ => exact .next .rest

/-! ### The tick -/

/-- R358: what runs a held command is the command's own meaning. -/
theorem runManaged_idle_or_exec (i : Instr) (s : State) :
    runManaged i s = .next s ∨ movesTime i = false ∧ runManaged i s = exec i s := by
  unfold runManaged
  split <;> simp [movesTime, exec]

theorem runManaged_holdsTime (i : Instr) (s : State) : HoldsTime s (runManaged i s) := by
  obtain h | ⟨hi, h⟩ := runManaged_idle_or_exec i s
  · rw [h]; exact .idle s
  · rw [h]; exact exec_holdsTime i s hi

theorem completeDeferred_timeHeld (who : Iface) (i : Instr) (s : State) : TimeHeld s (completeDeferred who i s) := .ite (.refl s) .rest

theorem runHeld_holdsTime (is : List Instr) (s : State) : HoldsTime s (runHeld is s) := by
  induction is generalizing s with
  | nil => exact .idle s
  | cons i is ih =>
    unfold runHeld
    split
    · have h := runManaged_holdsTime i s
      split
      next t ht => exact .trans (h.held t ht) (ih t)
      · exact h
    next who _ =>
      have h := HoldsTime.trans .rest (runManaged_holdsTime i { s with m := modCci s.m who (fun c => { c with bg := none }) })
      split
      next t ht => exact .trans ((h.held t ht).trans (completeDeferred_timeHeld who i t)) (ih _)
      · exact h

theorem swapPairs_timeHeld (s : State) : TimeHeld s (swapPairs s) := .ite .rest (.ite .rest .rest)

theorem endHandover_holdsTime (s : State) : HoldsTime s (endHandover s) :=
  .ite (.idle s) (.trans (swapPairs_timeHeld s) (runHeld_holdsTime _ _))

/-- R29: whatever a tick drives, Fabric Time is one tick on. -/
theorem execFabricTimeTick_holdsTime (s : State) (hon : s.m.inl.on = true) : HoldsTime (advanceTime s) (execFabricTimeTick s) := by
  unfold execFabricTimeTick
  rw [if_neg (by simp [hon])]
  exact .trans (TimeHeld.rest.trans (reachStep8_timeHeld _)) (endHandover_holdsTime _)

theorem execFabricTimeTick_off_holdsTime (s : State) (hoff : s.m.inl.on = false) : HoldsTime s (execFabricTimeTick s) := by
  unfold execFabricTimeTick
  rw [if_pos (by simp [hoff])]
  exact .idle s

/-! ### The timestamp (R356) -/

@[simp] theorem noteServed_rd (s : State) (r : RegDef) (ix : List Nat) : rd (noteServed s).m r ix = rd s.m r ix := by
  unfold noteServed
  split <;> rfl

@[simp] theorem noteServed_time (s : State) : (noteServed s).time = s.time := by
  unfold noteServed
  split <;> rfl

@[simp] theorem noteServed_replies (s : State) : (noteServed s).m.replies = s.m.replies := by
  unfold noteServed
  split <;> rfl

theorem noteServed_mgmtFrame (s : State) : MgmtFrame [] [] s (noteServed s) := by
  unfold noteServed
  split
  · refine ⟨fun p hp => ?_, .refl _ _⟩
    cases p <;> simp_all [Part.same]
  · exact .refl _ _ s

/-- R352, R355: over an interface of the FM API a command that works on the machine alone takes effect at once. -/
theorem deviceMach_of_served {who : Iface} {s : State} (h : CciServed who s) (i : Instr) (act : Nat → Mach → Mach) :
    deviceMach who i act s = onMachW act (noteServed s) := by
  obtain ⟨hapi, hreach, hhand⟩ := h
  cases who with
  | cci | pcie | i3c => simp [deviceMach, deviceCommand, cciCommand, fmApi, managed, hreach, hhand]
  | fld | brumin | doe | courier => cases hapi

/-- A round of the monitors after a served command adds the logs to what it changes. -/
theorem MgmtFrame.wmAll {ps : List Part} {rs : List (RegDef × List Nat)} {s t : State} (h : MgmtFrame ps rs s t) (now : Nat) :
    MgmtFrame ps rs s { t with m := wmAll now t.m } :=
  Frame.trans h (Frame.ofWatch t (wmAll_watch now t.m) (by simp) fun _ hi => isReg_false_of_append_right hi)

theorem answer_mgmtFrame (s : State) (who : Iface) (ret : Ret) (vals : List Nat) (body : List Byte) :
    MgmtFrame [] [] s { s with m := answer s.m who ret vals body } := by
  refine ⟨fun p hp => ?_, .refl _ _⟩
  cases p <;> simp_all [Part.same, answer, respond]

theorem rd_answer (m : Mach) (who : Iface) (ret : Ret) (vals : List Nat) (body : List Byte) (r : RegDef) (ix : List Nat) :
    rd (answer m who ret vals body) r ix = rd m r ix := rfl

theorem wr_mgmtFrame (s : State) (r : RegDef) (ix : List Nat) (w : Word) : MgmtFrame [] [(r, ix)] s { s with m := wr s.m r ix w } := by
  refine ⟨fun p _ => ?_, .ofWr _ _ _ _ _ (by simp [isReg])⟩
  cases p <;> simp [Part.same]

/-- A command that changes no register of its own may be said to change some. -/
theorem MgmtFrame.mono {rs : List (RegDef × List Nat)} {s t : State} (h : MgmtFrame [] [] s t) : MgmtFrame [] rs s t :=
  Frame.mono h (fun _ hp => hp) fun _ hi => isReg_false_of_append_right hi

/-- R356: Get Timestamp answers with MBX_TS_OFFSET and a quarter of Fabric Time. -/
theorem getTimestamp_answers {who : Iface} {s : State} (h : CciServed who s) :
    ∃ t, exec (.getTimestamp who) s = .next t ∧
      Answers who .success [(rd s.m Reg.MBX_TS_OFFSET [] + BitVec.ofNat 64 (s.time.now.toNat / 4)).toNat] [] s t ∧ t.time = s.time ∧
      MgmtFrame [] [] s t := by
  refine ⟨_, deviceMach_of_served h _ _, ?_, noteServed_time s, ?_⟩
  · simp [Answers, getTimestamp, answer, respond]
  · exact MgmtFrame.wmAll (Frame.trans (noteServed_mgmtFrame s) (answer_mgmtFrame (noteServed s) ..)) _

/-- R356: Set Timestamp writes MBX_TS_OFFSET so that Get Timestamp returns `v` now. -/
theorem setTimestamp_offsets {who : Iface} {s : State} (h : CciServed who s) (v : Word) :
    ∃ t, exec (.setTimestamp who v) s = .next t ∧
      rd t.m Reg.MBX_TS_OFFSET [] + BitVec.ofNat 64 (t.time.now.toNat / 4) = v ∧ t.time = s.time ∧ Answers who .success [] [] s t ∧
      MgmtFrame [] [(Reg.MBX_TS_OFFSET, [])] s t := by
  refine ⟨_, deviceMach_of_served h _ _, ?_, noteServed_time s, ?_, ?_⟩
  · dsimp only
    rw [rd_wmAll _ _ _ _ (by decide), setTimestamp, rd_answer, rd_wr_same, BitVec.sub_add_cancel]
  · simp [Answers, setTimestamp, answer, respond]
  · exact MgmtFrame.wmAll
      (Frame.trans (Frame.trans (noteServed_mgmtFrame s).mono (wr_mgmtFrame (noteServed s) ..)) (answer_mgmtFrame _ ..).mono) _

/-- R29: a step of a device with its Fabric Time locked holds it, or is a tick of the running clock, or a change of the power. -/
theorem exec_locked_time {c : Instr} {s t : State} (hl : s.time.locked = true) (h : exec c s = .next t) :
    (t.time.now = s.time.now ∧ t.time.locked = true) ∨ (c = .fabricTimeTick ∧ t.time.now = s.time.now + 1 ∧ t.time.locked = true) ∨
      c = .aonLoss ∨ ∃ vin en f, c = .vinRise vin en f := by
  cases hc : movesTime c with
  | false =>
    have ht := (exec_holdsTime c s hc).held t h
    exact .inl ⟨ht.now hl, ht.locked hl⟩
  | true =>
    unfold movesTime at hc
    split at hc
    · cases hon : s.m.inl.on with
      | false =>
        have ht := (execFabricTimeTick_off_holdsTime s hon).held t h
        exact .inl ⟨ht.now hl, ht.locked hl⟩
      | true =>
        have ht := (execFabricTimeTick_holdsTime s hon).held t h
        exact .inr (.inl ⟨rfl, ht.now hl, ht.locked hl⟩)
    · exact .inr (.inr (.inl rfl))
    · exact .inr (.inr (.inr ⟨_, _, _, rfl⟩))
    · cases hc

/-- Settles O6. Every command but the tick and the commands of power holds a locked Fabric Time (`exec_holdsTime`); a tick moves it by one
(`execFabricTimeTick_holdsTime`); the timestamp commands touch MBX_TS_OFFSET alone. -/
theorem lockedTimeMovesByTicks : Obligations.LockedTimeMovesByTicks := by
  refine ⟨fun s t c rest hq hl hstep => ?_, fun who s h => getTimestamp_answers h, fun who v s h => setTimestamp_offsets h v⟩
  rw [step, hq] at hstep
  exact exec_locked_time (s := { s with pending := rest }) hl hstep

end Sys2Proof.Machine
end

section
/-!
PROOFS. Monitoring (chapter 18), with the HEADs of the RAS log and the dead-letter log (R321, R441). The commands of counters, windows
and Tracking write registers and the monitoring state alone. A HEAD goes through `headWrite`, or `rdHeadWrite` on a ring of two laps:
each has one equation where the HEAD moves and one where the write is counted. The watermark monitors judged after a command put records
in the event queue, and so leave the pointers of the two other logs alone.
-/

namespace Sys2Proof.Machine
open Sys2Proof

/-! ### Frames -/

/-- A register write changes no part beside the register file. -/
theorem Frame.ofWr (s : State) (r : RegDef) (ix : List Nat) (w : Word) {ps : List Part} {q : Nat → Bool}
    (h : q (regAddr r ix) = true) : Frame ps q s { s with m := wr s.m r ix w } := by
  refine ⟨fun p _ => ?_, .ofWr q s.m r ix w h⟩
  cases p <;> simp [Part.same]

theorem Frame.ofSf (s : State) (f : FieldRef) (ix : List Nat) (v : Nat) {ps : List Part} {q : Nat → Bool}
    (h : q (regAddr f.reg ix) = true) : Frame ps q s { s with m := sf s.m f ix v } := .ofWr s f.reg ix _ h

theorem Frame.ofPmu (s : State) (x : Pmu) (q : Nat → Bool) : Frame [.pmu] q s { s with m := { s.m with pmu := x } } := by
  refine ⟨fun p hp => ?_, .ofEq q rfl⟩
  cases p <;> simp_all [Part.same]

/-- The registers of an array are among the array's. -/
theorem isReg_range (r : RegDef) {k n : Nat} (h : k < n) : isReg ((List.range n).map (fun k => (r, [k]))) (regAddr r [k]) = true := by
  rw [isReg, List.any_map, List.any_eq_true]
  exact ⟨k, List.mem_range.mpr h, by simp⟩

/-! ### Counters (R398) -/

theorem regAddr_ctrVal (c : Nat) : regAddr Reg.PMU_CTR_VAL [c] = 0xA020000 + 8 * c := by simp [regAddr, Reg.PMU_CTR_VAL]

/-- R398: a counter takes the value written, in its 48 bits. -/
theorem ctrValueWrite_writes {c : Nat} (v : Nat) (s : State) (hc : c < 2048) :
    ∃ t, exec (.ctrValueWrite c v) s = .next t ∧ gf t.m F.PMU_CTR_VAL_VALUE [c] = v % 2 ^ 48 ∧
      Frame [] (isReg [(Reg.PMU_CTR_VAL, [c])]) s t := by
  have h : ctrValueWrite c v s.time.now.toNat s.m = sf s.m F.PMU_CTR_VAL_VALUE [c] v := if_pos hc
  refine ⟨{ s with m := sf s.m F.PMU_CTR_VAL_VALUE [c] v }, ?_, gf_sf_same _ _ _ _ (by decide) (by decide), .ofSf _ _ _ _ (isReg_self _ _)⟩
  rw [← h]
  rfl

/-- A key that the filter drops reads as unlisted. -/
theorem tget_filter_dropped (d : Word) (t : Table Word) (p : Nat × Word → Bool) (i : Nat) (h : ∀ v, p (i, v) = false) :
    tget d (t.filter p) i = d := by
  induction t with
  | nil => rfl
  | cons x t ih =>
    obtain ⟨k, w⟩ := x
    by_cases hp : p (k, w) = true
    · have hk : k ≠ i := by
        rintro rfl
        simp [h] at hp
      simp [hp, tget, hk, ih]
    · simp [hp, ih]

/-- R398: CLEAR drops what every counter holds, and nothing else. -/
theorem pmuClear_clears (s : State) :
    ∃ t, exec .pmuClear s = .next t ∧ (∀ c, c < 2048 → gf t.m F.PMU_CTR_VAL_VALUE [c] = 0) ∧
      Frame [] (isReg ((List.range 2048).map (fun c => (Reg.PMU_CTR_VAL, [c])))) s t := by
  refine ⟨_, rfl, fun c hc => ?_, fun p _ => ?_, fun d i hi => ?_⟩
  · have hz : rd (pmuClear s.time.now.toNat s.m) Reg.PMU_CTR_VAL [c] = 0 :=
      tget_filter_dropped _ _ _ _ fun v => by
        rw [regAddr_ctrVal]
        simp only [Bool.not_eq_false', Bool.and_eq_true, decide_eq_true_eq, beq_iff_eq]
        omega
    exact congrArg (getBits · 47 0) hz
  · cases p <;> simp [Part.same, pmuClear]
  · refine tget_filter d _ _ i fun v => ?_
    -- every address that CLEAR drops is a counter's
    by_contra hdrop
    simp only [Bool.not_eq_true', Bool.not_eq_false, Bool.and_eq_true, decide_eq_true_eq, beq_iff_eq] at hdrop
    have hctr := isReg_range Reg.PMU_CTR_VAL (show (i - 0xA020000) / 8 < 2048 by omega)
    rw [regAddr_ctrVal, show 0xA020000 + 8 * ((i - 0xA020000) / 8) = i by omega, hi] at hctr
    cases hctr

theorem pmuFreeze_sets (on : Bool) (s : State) :
    ∃ t, exec (.pmuFreeze on) s = .next t ∧ gf t.m F.PMU_CTL_FREEZE [] = b2n on ∧ Frame [] (isReg [(Reg.PMU_CTL, [])]) s t := by
  refine ⟨_, rfl, (gf_sf_same s.m F.PMU_CTL_FREEZE [] _ (by decide) (by decide)).trans ?_, .ofSf s F.PMU_CTL_FREEZE _ _ (isReg_self _ _)⟩
  cases on <;> rfl

/-! ### Bandwidth windows (R401, R402) -/

theorem regAddr_bwIn (p : Nat) : regAddr Reg.PMU_BW_IN [p] = 0xA040000 + 16 * p := by simp [regAddr, Reg.PMU_BW_IN]

theorem regAddr_bwOut (p : Nat) : regAddr Reg.PMU_BW_OUT [p] = 0xA040008 + 16 * p := by simp [regAddr, Reg.PMU_BW_OUT]

/-- The registers of port `p` take the bytes that `bw` holds of window `w`, with `seq` as their WSEQ. -/
def bwShow (bw : Table Nat) (w seq : Nat) (n : Mach) (p : Nat) : Mach :=
  let n := sf (sf n F.PMU_BW_IN_BYTES [p] (tget 0 bw (bwKey w p 0))) F.PMU_BW_IN_WSEQ [p] seq
  sf (sf n F.PMU_BW_OUT_BYTES [p] (tget 0 bw (bwKey w p 1))) F.PMU_BW_OUT_WSEQ [p] seq

/-- The registers of port `p` read so. -/
structure BwShown (bw : Table Nat) (w seq : Nat) (n : Mach) (p : Nat) : Prop where
  inSeq : gf n F.PMU_BW_IN_WSEQ [p] = seq % 65536
  outSeq : gf n F.PMU_BW_OUT_WSEQ [p] = seq % 65536
  inBytes : gf n F.PMU_BW_IN_BYTES [p] = tget 0 bw (bwKey w p 0) % 2 ^ 48
  outBytes : gf n F.PMU_BW_OUT_BYTES [p] = tget 0 bw (bwKey w p 1) % 2 ^ 48

/-- Whether they read so is a matter of the register file alone. -/
theorem BwShown.of_regs_eq {bw : Table Nat} {w seq p : Nat} {m n : Mach} (h : BwShown bw w seq n p) (hr : m.regs = n.regs) :
    BwShown bw w seq m p :=
  ⟨(gf_congr hr _ _).trans h.inSeq, (gf_congr hr _ _).trans h.outSeq, (gf_congr hr _ _).trans h.inBytes,
    (gf_congr hr _ _).trans h.outBytes⟩

/-- The registers that the end of a window writes. -/
def bwRegs : List (RegDef × List Nat) :=
  (List.range 128).map (fun p => (Reg.PMU_BW_IN, [p])) ++ (List.range 128).map (fun p => (Reg.PMU_BW_OUT, [p]))

theorem isReg_bwIn {p : Nat} (hp : p < 128) : isReg bwRegs (regAddr Reg.PMU_BW_IN [p]) = true := by
  rw [bwRegs, isReg_append, isReg_range _ hp, Bool.true_or]

theorem isReg_bwOut {p : Nat} (hp : p < 128) : isReg bwRegs (regAddr Reg.PMU_BW_OUT [p]) = true := by
  rw [bwRegs, isReg_append, isReg_range Reg.PMU_BW_OUT hp, Bool.or_true]

section Show

variable (bw : Table Nat) (w seq : Nat)

theorem bwShow_shown (n : Mach) (p : Nat) : BwShown bw w seq (bwShow bw w seq n p) p := by
  have hio : regAddr Reg.PMU_BW_OUT [p] ≠ regAddr Reg.PMU_BW_IN [p] := by
    rw [regAddr_bwIn, regAddr_bwOut]
    omega
  constructor
  · rw [bwShow, gf_sf_other _ _ _ _ _ _ hio, gf_sf_other _ _ _ _ _ _ hio, gf_sf_same _ _ _ _ (by decide) (by decide)]
    rfl
  · rw [bwShow, gf_sf_same _ _ _ _ (by decide) (by decide)]
    rfl
  · rw [bwShow, gf_sf_other _ _ _ _ _ _ hio, gf_sf_other _ _ _ _ _ _ hio,
      gf_sf_field _ F.PMU_BW_IN_WSEQ F.PMU_BW_IN_BYTES _ _ rfl (by decide) (by decide) (.inl (by decide)),
      gf_sf_same _ _ _ _ (by decide) (by decide)]
    rfl
  · rw [bwShow, gf_sf_field _ F.PMU_BW_OUT_WSEQ F.PMU_BW_OUT_BYTES _ _ rfl (by decide) (by decide) (.inl (by decide)),
      gf_sf_same _ _ _ _ (by decide) (by decide)]
    rfl

theorem gf_bwShow_other (n : Mach) (f : FieldRef) {p q : Nat} (hi : regAddr Reg.PMU_BW_IN [p] ≠ regAddr f.reg [q])
    (ho : regAddr Reg.PMU_BW_OUT [p] ≠ regAddr f.reg [q]) : gf (bwShow bw w seq n p) f [q] = gf n f [q] := by
  rw [bwShow, gf_sf_other _ _ _ _ _ _ ho, gf_sf_other _ _ _ _ _ _ ho, gf_sf_other _ _ _ _ _ _ hi, gf_sf_other _ _ _ _ _ _ hi]

theorem bwShow_keeps {n : Mach} {p q : Nat} (hpq : p ≠ q) (h : BwShown bw w seq n q) : BwShown bw w seq (bwShow bw w seq n p) q := by
  have hin (f : FieldRef) (hf : f.reg = Reg.PMU_BW_IN) : gf (bwShow bw w seq n p) f [q] = gf n f [q] := by
    apply gf_bwShow_other <;> rw [hf, regAddr_bwIn] <;> simp only [regAddr_bwIn, regAddr_bwOut] <;> omega
  have hout (f : FieldRef) (hf : f.reg = Reg.PMU_BW_OUT) : gf (bwShow bw w seq n p) f [q] = gf n f [q] := by
    apply gf_bwShow_other <;> rw [hf, regAddr_bwOut] <;> simp only [regAddr_bwIn, regAddr_bwOut] <;> omega
  exact ⟨(hin _ rfl).trans h.inSeq, (hout _ rfl).trans h.outSeq, (hin _ rfl).trans h.inBytes, (hout _ rfl).trans h.outBytes⟩

/-- Shown port by port, every port reads as it was shown. -/
theorem foldl_bwShow_shown (m : Mach) {k p : Nat} (hp : p < k) : BwShown bw w seq ((List.range k).foldl (bwShow bw w seq) m) p := by
  induction k with
  | zero => omega
  | succ k ih =>
    rw [List.range_succ, List.foldl_append, List.foldl_cons, List.foldl_nil]
    by_cases hk : k = p
    · rw [hk]
      exact bwShow_shown bw w seq _ p
    · exact bwShow_keeps bw w seq hk (ih (by omega))

theorem bwShow_frame (s : State) {p : Nat} (hp : p < 128) : Frame [] (isReg bwRegs) s { s with m := bwShow bw w seq s.m p } :=
  have hi := isReg_bwIn hp
  have ho := isReg_bwOut hp
  (((Frame.ofSf s F.PMU_BW_IN_BYTES [p] _ hi).trans (.ofSf _ F.PMU_BW_IN_WSEQ [p] _ hi)).trans
    (.ofSf _ F.PMU_BW_OUT_BYTES [p] _ ho)).trans (.ofSf _ F.PMU_BW_OUT_WSEQ [p] _ ho)

theorem foldl_bwShow_frame (s : State) {k : Nat} (hk : k ≤ 128) :
    Frame [] (isReg bwRegs) s { s with m := (List.range k).foldl (bwShow bw w seq) s.m } := by
  induction k with
  | zero => exact .refl _ _ s
  | succ k ih =>
    rw [List.range_succ, List.foldl_append, List.foldl_cons, List.foldl_nil]
    exact (ih (by omega)).trans (bwShow_frame bw w seq _ (by omega))

end Show

/-- R401: at the first multiple of the window length after the last end, window `w` is the one that has completed. -/
theorem bwWindowEnd_due {w now : Nat} {m : Mach} (hlen : bwLen m ≠ 0) (hnow : now / bwLen m = w + 1)
    (hnext : m.pmu.bwNext = (w + 1) * bwLen m) :
    bwWindowEnd now m =
      { (List.range 128).foldl (bwShow m.pmu.bw w ((gf m F.PMU_BW_IN_WSEQ [0] + 1) % 65536)) m with
        pmu := { m.pmu with bw := m.pmu.bw.filter (fun x => decide (w < x.1 / 256)), bwNext := (w + 2) * bwLen m } } := by
  have hle : (w + 1) * bwLen m ≤ now := by
    rw [← hnow]
    exact Nat.div_mul_le_self now (bwLen m)
  have hlt : bwLen m ≤ now := (Nat.le_mul_of_pos_left _ (Nat.succ_pos w)).trans hle
  have hended : bwEnded now (bwLen m) m = 1 := by simp [bwEnded, hnow, hnext, hlen]
  have hcond : ¬ (bwLen m == 0 || decide (now < bwLen m) || decide (now < m.pmu.bwNext)) = true := by
    simp only [Bool.or_eq_true, beq_iff_eq, decide_eq_true_eq, hnext]
    omega
  unfold bwWindowEnd
  rw [if_neg hcond, hended, hnow]
  rfl

section Due

variable {w : Nat} {s : State} (hlen : bwLen s.m ≠ 0) (hnow : s.time.now.toNat / bwLen s.m = w + 1)
  (hnext : s.m.pmu.bwNext = (w + 1) * bwLen s.m)

include hlen hnow hnext

theorem bwWindowEnd_shown {p : Nat} (hp : p < 128) :
    BwShown s.m.pmu.bw w ((gf s.m F.PMU_BW_IN_WSEQ [0] + 1) % 65536) (bwWindowEnd s.time.now.toNat s.m) p := by
  rw [bwWindowEnd_due hlen hnow hnext]
  exact (foldl_bwShow_shown _ _ _ s.m hp).of_regs_eq rfl

theorem bwWindowEnd_frame : Frame [.pmu] (isReg bwRegs) s { s with m := bwWindowEnd s.time.now.toNat s.m } := by
  rw [bwWindowEnd_due hlen hnow hnext]
  have hframe := foldl_bwShow_frame s.m.pmu.bw w ((gf s.m F.PMU_BW_IN_WSEQ [0] + 1) % 65536) s (Nat.le_refl 128)
  exact (hframe.mono (by simp) fun _ hi => hi).trans (.ofPmu _ _ _)

/-- R401: the bytes of the completed window become readable at every port, with one new WSEQ. -/
theorem bwWindowEnd_shows :
    ∃ t, exec .bwWindowEnd s = .next t ∧
      (∀ p, p < 128 → gf t.m F.PMU_BW_IN_WSEQ [p] = (gf s.m F.PMU_BW_IN_WSEQ [0] + 1) % 65536 ∧
        gf t.m F.PMU_BW_OUT_WSEQ [p] = (gf s.m F.PMU_BW_IN_WSEQ [0] + 1) % 65536 ∧
        gf t.m F.PMU_BW_IN_BYTES [p] = tget 0 s.m.pmu.bw (bwKey w p 0) % 2 ^ 48 ∧
        gf t.m F.PMU_BW_OUT_BYTES [p] = tget 0 s.m.pmu.bw (bwKey w p 1) % 2 ^ 48) ∧
      t.m.pmu = { s.m.pmu with bw := s.m.pmu.bw.filter (fun x => decide (w < x.1 / 256)), bwNext := (w + 2) * bwLen s.m } ∧
      Frame [.pmu] (isReg bwRegs) s t := by
  refine ⟨_, rfl, fun p hp => ?_, ?_, bwWindowEnd_frame hlen hnow hnext⟩
  · obtain ⟨hinSeq, houtSeq, hinBytes, houtBytes⟩ := bwWindowEnd_shown hlen hnow hnext hp
    rw [Nat.mod_mod] at hinSeq houtSeq
    exact ⟨hinSeq, houtSeq, hinBytes, houtBytes⟩
  · exact congrArg Mach.pmu (bwWindowEnd_due hlen hnow hnext)

end Due

/-- The first multiple of `len` at or after `now`. -/
theorem firstMultiple_bounds (now : Nat) {len : Nat} (hlen : 0 < len) :
    (now + len - 1) / len * len % len = 0 ∧ now ≤ (now + len - 1) / len * len ∧ (now + len - 1) / len * len < now + len := by
  have hdiv := Nat.div_add_mod (now + len - 1) len
  have hmod := Nat.mod_lt (now + len - 1) hlen
  rw [Nat.mul_comm] at hdiv
  exact ⟨Nat.mul_mod_left _ _, by omega, by omega⟩

/-- R402: a new WIN discards what accumulates, and the next window begins at the first multiple of its length. -/
theorem bwWinChange_restarts {win : Nat} (s : State) (hwin : win ≤ 1000000) :
    ∃ t, exec (.bwWinChange win) s = .next t ∧ gf t.m F.PMU_BW_CFG_WIN [] = win ∧ t.m.pmu.bw = [] ∧
      (win ≠ 0 → ∃ b, t.m.pmu.bwNext = b + win * 4000 ∧ b % (win * 4000) = 0 ∧ s.time.now.toNat ≤ b ∧
        b < s.time.now.toNat + win * 4000) ∧
      Frame [.pmu] (isReg [(Reg.PMU_BW_CFG, [])]) s t := by
  have hfit : win % 2 ^ 20 = win := Nat.mod_eq_of_lt (by omega)
  refine ⟨_, if_neg (Nat.not_lt.mpr hwin), ?_, rfl, fun h0 => ?_, ?_⟩
  · exact (gf_sf_same s.m F.PMU_BW_CFG_WIN [] win (by decide) (by decide)).trans hfit
  · have hlen : win * 4000 ≠ 0 := by omega
    refine ⟨_, ?_, firstMultiple_bounds s.time.now.toNat (Nat.pos_of_ne_zero hlen)⟩
    simp [bwWinChange, h0]
  · exact (Frame.ofSf s F.PMU_BW_CFG_WIN [] win (isReg_self _ _)).trans (.ofPmu _ _ _)

/-- R402: with WIN 0 no window completes. -/
theorem bwWindowEnd_idle {s : State} (h : gf s.m F.PMU_BW_CFG_WIN [] = 0) : exec .bwWindowEnd s = .next s := by
  have hlen : bwLen s.m = 0 := by rw [bwLen, h]
  have hm : bwWindowEnd s.time.now.toNat s.m = s.m := by simp [bwWindowEnd, hlen]
  exact congrArg (fun m => Host.Outcome.next { s with m := m }) hm

/-! ### Tracking (R403) -/

/-- A write of PMU_TRK_CFG puts its bit 63, EN, in place. -/
theorem getBits_trkCfg_en (w : Word) : getBits (BitVec.ofNat 64 (w.toNat &&& Reg.PMU_TRK_CFG.rw)) 63 63 = getBits w 63 63 := by
  have hlt : w.toNat &&& Reg.PMU_TRK_CFG.rw < 2 ^ 64 := Nat.and_lt_two_pow _ (by decide)
  have hbit : Reg.PMU_TRK_CFG.rw >>> 63 = 1 := by decide
  simp only [getBits, bitsOf, BitVec.toNat_ofNat, Nat.mod_eq_of_lt hlt, Nat.shiftRight_and_distrib, hbit, Nat.and_one_is_mod]
  exact Nat.mod_mod _ _

theorem trackingReseed_turnsOn {w : Word} {s : State} (hres : trkReserved s.m w = false) (hon : getBits w 63 63 = 1)
    (hoff : gf s.m F.PMU_TRK_CFG_EN [] = 0) :
    ∃ t, exec (.trackingReseed w) s = .next t ∧ t.m.pmu = { s.m.pmu with lfsr := [] } ∧ gf t.m F.PMU_TRK_CFG_EN [] = 1 ∧
      Frame [.pmu] (isReg [(Reg.PMU_TRK_CFG, [])]) s t := by
  have hnew := (getBits_trkCfg_en w).trans hon
  have hold : getBits (rd s.m Reg.PMU_TRK_CFG) 63 63 = 0 := hoff
  have hm : trackingReseed w s.time.now.toNat s.m =
      reseedAll (wr s.m Reg.PMU_TRK_CFG [] (BitVec.ofNat 64 (w.toNat &&& Reg.PMU_TRK_CFG.rw))) := by
    rw [trackingReseed, hnew, hold]
    rfl
  refine ⟨{ s with m := trackingReseed w s.time.now.toNat s.m }, if_neg (by simp [hres]), ?_⟩
  rw [hm]
  exact ⟨rfl, (gf_wr_same s.m F.PMU_TRK_CFG_EN [] _).trans hnew, (Frame.ofWr s Reg.PMU_TRK_CFG [] _ (isReg_self _ _)).trans (.ofPmu _ _ _)⟩

theorem trackingReseed_unchanged {w : Word} {s : State} (hres : trkReserved s.m w = false)
    (hw : BitVec.ofNat 64 (w.toNat &&& Reg.PMU_TRK_CFG.rw) = rd s.m Reg.PMU_TRK_CFG []) :
    ∃ t, exec (.trackingReseed w) s = .next t ∧ t.m.pmu = s.m.pmu ∧ rd t.m Reg.PMU_TRK_CFG [] = rd s.m Reg.PMU_TRK_CFG [] ∧
      Frame [] (isReg [(Reg.PMU_TRK_CFG, [])]) s t := by
  have hm : trackingReseed w s.time.now.toNat s.m = wr s.m Reg.PMU_TRK_CFG [] (rd s.m Reg.PMU_TRK_CFG []) := by
    rw [trackingReseed, hw]
    refine if_neg ?_
    simp only [bne_self_eq_false, Bool.or_false, Bool.and_eq_true, beq_iff_eq]
    omega
  refine ⟨{ s with m := trackingReseed w s.time.now.toNat s.m }, if_neg (by simp [hres]), ?_⟩
  rw [hm]
  exact ⟨rfl, rd_wr_same _ _ _ _, .ofWr s Reg.PMU_TRK_CFG [] _ (isReg_self _ _)⟩

/-! ### A HEAD written -/

theorem headWrite_moves {m : Mach} {head tail : FieldRef} {size v : Nat}
    (h : (v + size - gf m head) % size ≤ (gf m tail + size - gf m head) % size) : headWrite m head tail size v = sf m head [] v := if_pos h

theorem headWrite_discards {m : Mach} {head tail : FieldRef} {size v : Nat}
    (h : (gf m tail + size - gf m head) % size < (v + size - gf m head) % size) : headWrite m head tail size v = countDiscard m :=
  if_neg (Nat.not_le.mpr h)

/-- R445: the count of discarded writes rises by one in its 16 bits. -/
theorem gf_countDiscard (m : Mach) : gf (countDiscard m) F.RAS_MGMT_ERR_DISCARD [] = (gf m F.RAS_MGMT_ERR_DISCARD [] + 1) % 65536 :=
  (gf_sf_same m F.RAS_MGMT_ERR_DISCARD [] _ (by decide) (by decide)).trans (Nat.mod_mod _ _)

theorem countDiscard_frame (s : State) : Frame [] (isReg [(Reg.RAS_MGMT_ERR, [])]) s { s with m := countDiscard s.m } :=
  .ofSf s F.RAS_MGMT_ERR_DISCARD [] _ (isReg_self _ _)

theorem trkHeadWrite_moves {v : Nat} {s : State}
    (h : (v % 8192 + 8192 - gf s.m F.PMU_TRK_PTR_HEAD []) % 8192 ≤
      (gf s.m F.PMU_TRK_PTR_TAIL [] + 8192 - gf s.m F.PMU_TRK_PTR_HEAD []) % 8192) :
    ∃ t, exec (.trkHeadWrite v) s = .next t ∧ gf t.m F.PMU_TRK_PTR_HEAD [] = v % 8192 ∧ Frame [] (isReg [(Reg.PMU_TRK_PTR, [])]) s t := by
  refine ⟨{ s with m := trkHeadWrite v s.time.now.toNat s.m }, rfl, ?_⟩
  rw [trkHeadWrite, headWrite_moves h]
  exact ⟨(gf_sf_same s.m F.PMU_TRK_PTR_HEAD [] _ (by decide) (by decide)).trans (Nat.mod_mod _ _),
    .ofSf s F.PMU_TRK_PTR_HEAD [] _ (isReg_self _ _)⟩

theorem trkHeadWrite_discards {v : Nat} {s : State}
    (h : (gf s.m F.PMU_TRK_PTR_TAIL [] + 8192 - gf s.m F.PMU_TRK_PTR_HEAD []) % 8192 <
      (v % 8192 + 8192 - gf s.m F.PMU_TRK_PTR_HEAD []) % 8192) :
    ∃ t, exec (.trkHeadWrite v) s = .next t ∧
      gf t.m F.RAS_MGMT_ERR_DISCARD [] = (gf s.m F.RAS_MGMT_ERR_DISCARD [] + 1) % 65536 ∧
      Frame [] (isReg [(Reg.RAS_MGMT_ERR, [])]) s t := by
  refine ⟨{ s with m := trkHeadWrite v s.time.now.toNat s.m }, rfl, ?_⟩
  rw [trkHeadWrite, headWrite_discards h]
  exact ⟨gf_countDiscard s.m, countDiscard_frame s⟩

/-! ### The HEAD of recorded delivery (R407) -/

/-- How far a position lies ahead of HEAD on the ring of two laps. -/
def rdAhead (m : Mach) (slot lap : Nat) : Nat :=
  (rdPos (gf m F.PMU_RD_CFG_CAP []) slot lap + 2 * gf m F.PMU_RD_CFG_CAP [] -
    rdPos (gf m F.PMU_RD_CFG_CAP []) (gf m F.PMU_RD_PTR_HEAD []) (gf m F.PMU_RD_PTR_HEAD_LAP [])) % (2 * gf m F.PMU_RD_CFG_CAP [])

/-- How far TAIL lies ahead of HEAD. -/
def rdHeld (m : Mach) : Nat := rdAhead m (gf m F.PMU_RD_PTR_TAIL []) (gf m F.PMU_RD_PTR_TAIL_LAP [])

theorem rdHeadWrite_moves {slot lap now : Nat} {m : Mach} (hslot : slot < gf m F.PMU_RD_CFG_CAP [])
    (h : rdAhead m slot (lap % 2) ≤ rdHeld m) :
    rdHeadWrite slot lap now m = sf (sf m F.PMU_RD_PTR_HEAD [] slot) F.PMU_RD_PTR_HEAD_LAP [] (lap % 2) := by
  have hfits : ¬ (gf m F.PMU_RD_CFG_CAP == 0 || decide (slot ≥ gf m F.PMU_RD_CFG_CAP)) = true := by
    simp only [Bool.or_eq_true, beq_iff_eq, decide_eq_true_eq]
    omega
  exact (if_neg hfits).trans (if_pos h)

theorem rdHeadWrite_discards {slot lap now : Nat} {m : Mach}
    (h : gf m F.PMU_RD_CFG_CAP [] ≤ slot ∨ rdHeld m < rdAhead m slot (lap % 2)) : rdHeadWrite slot lap now m = countDiscard m := by
  by_cases hslot : gf m F.PMU_RD_CFG_CAP [] ≤ slot
  · exact if_pos (by simp [hslot])
  · exact ite_eq_left_iff.mpr fun _ => if_neg (Nat.not_le.mpr (h.resolve_left hslot))

theorem rdHeadWrite_releases {slot lap : Nat} {s : State} (hslot : slot < gf s.m F.PMU_RD_CFG_CAP []) (hfit : slot < 2 ^ 27)
    (h : rdAhead s.m slot (lap % 2) ≤ rdHeld s.m) :
    ∃ t, exec (.rdHeadWrite slot lap) s = .next t ∧ gf t.m F.PMU_RD_PTR_HEAD [] = slot ∧ gf t.m F.PMU_RD_PTR_HEAD_LAP [] = lap % 2 ∧
      Frame [] (isReg [(Reg.PMU_RD_PTR, [])]) s t := by
  refine ⟨{ s with m := rdHeadWrite slot lap s.time.now.toNat s.m }, rfl, ?_⟩
  rw [rdHeadWrite_moves hslot h]
  refine ⟨?_, ?_, (Frame.ofSf s F.PMU_RD_PTR_HEAD [] slot (isReg_self _ _)).trans (.ofSf _ F.PMU_RD_PTR_HEAD_LAP [] _ (isReg_self _ _))⟩
  · rw [gf_sf_field _ F.PMU_RD_PTR_HEAD_LAP F.PMU_RD_PTR_HEAD _ _ rfl (by decide) (by decide) (.inl (by decide)),
      gf_sf_same _ _ _ _ (by decide) (by decide)]
    exact Nat.mod_eq_of_lt hfit
  · rw [gf_sf_same _ _ _ _ (by decide) (by decide)]
    exact Nat.mod_mod _ _

theorem rdHeadWrite_counts {slot lap : Nat} {s : State}
    (h : gf s.m F.PMU_RD_CFG_CAP [] ≤ slot ∨ rdHeld s.m < rdAhead s.m slot (lap % 2)) :
    ∃ t, exec (.rdHeadWrite slot lap) s = .next t ∧
      gf t.m F.RAS_MGMT_ERR_DISCARD [] = (gf s.m F.RAS_MGMT_ERR_DISCARD [] + 1) % 65536 ∧
      Frame [] (isReg [(Reg.RAS_MGMT_ERR, [])]) s t := by
  refine ⟨{ s with m := rdHeadWrite slot lap s.time.now.toNat s.m }, rfl, ?_⟩
  rw [rdHeadWrite_discards h]
  exact ⟨gf_countDiscard s.m, countDiscard_frame s⟩

/-! ### The monitors beside a HEAD of the RAS log or the dead-letter log -/

/-- The registers that a round of the monitors may change: theirs, and those of the event queue. -/
def monitorRegs : List (RegDef × List Nat) :=
  [(Reg.RAS_EVQ_PTR, []), (Reg.RAS_EVQ_STATUS, [])] ++ (List.range 64).map (fun k => (Reg.RAS_WM_STATUS, [k]))

theorem isReg_monitor {k : Nat} (h : k < 64) : isReg monitorRegs (regAddr Reg.RAS_WM_STATUS [k]) = true := by
  rw [monitorRegs, isReg_append, isReg_range Reg.RAS_WM_STATUS h, Bool.or_true]

theorem evqPut_monitor (m : Mach) (now type sev inst : Nat) (pm : Word) (detail : Nat) :
    LogFrame (isReg monitorRegs) m (evqPut m now type sev inst pm detail) :=
  ((LogFrame.ofLogs _ _ _).trans (.ofSf _ _ F.RAS_EVQ_PTR_TAIL _ _ (by decide))).trans (.ofAck _ _ F.RAS_EVQ_STATUS_NEW _ (by decide))

/-- R372 to R375: a record enters the event queue, after one of overflow where some were dropped, or is itself dropped. -/
theorem event_monitor (m : Mach) (now type sev inst : Nat) (pm : Postmark) (detail : Nat) :
    LogFrame (isReg monitorRegs) m (event m now type sev inst pm detail) := by
  have put {a b : Mach} (h : LogFrame (isReg monitorRegs) a b) :
      LogFrame (isReg monitorRegs) a (evqSignal (evqPut b now type sev inst (pmWord pm) detail)) :=
    (h.trans (evqPut_monitor ..)).trans (.ofLogs ..)
  unfold event
  dsimp only
  split_ifs
  · exact .refl _ _
  · exact (LogFrame.ofLogs _ _ _).trans (.ofSat _ _ F.RAS_EVQ_STATUS_LOST _ (by decide))
  · exact put ((evqPut_monitor ..).trans (.ofLogs ..))
  · exact put (.refl _ _)

theorem wmEval_monitor (fresh : Bool) (now : Nat) (m : Mach) {k : Nat} (hk : k < 64) :
    LogFrame (isReg monitorRegs) m (wmEval fresh now m k) := by
  have hw := isReg_monitor hk
  have set {a b : Mach} (f : FieldRef) (v : Nat) (hf : f.reg = Reg.RAS_WM_STATUS) (h : LogFrame (isReg monitorRegs) a b) :
      LogFrame (isReg monitorRegs) a (sf b f [k] v) := h.trans (.ofSf _ _ _ _ _ (hf ▸ hw))
  unfold wmEval
  dsimp only
  split_ifs
  · exact .refl _ _
  · exact .refl _ _
  · exact ((set _ 1 rfl (set _ _ rfl (.refl _ _))).trans (.ofAck _ _ F.RAS_WM_STATUS_CROSS _ hw)).trans (event_monitor ..)
  · exact (set _ 0 rfl (set _ _ rfl (.refl _ _))).trans (event_monitor ..)
  · exact set _ 0 rfl (set _ _ rfl (.refl _ _))
  · exact set _ _ rfl (.refl _ _)

theorem wmAll_monitor (now : Nat) (m : Mach) : LogFrame (isReg monitorRegs) m (wmAll now m) := by
  have rounds (k : Nat) (hk : k ≤ 64) : LogFrame (isReg monitorRegs) m ((List.range k).foldl (wmEval false now) m) := by
    induction k with
    | zero => exact .refl _ _
    | succ k ih =>
      rw [List.range_succ, List.foldl_append, List.foldl_cons, List.foldl_nil]
      exact (ih (by omega)).trans (wmEval_monitor false now _ (by omega))
  exact rounds 64 (Nat.le_refl _)

/-- R370: a HEAD that moves forward in a log that the monitors watch stands after their round as it was written. -/
theorem headWrite_wmAll_moves {s : State} {head tail : FieldRef} {size v : Nat} (hle : head.lo ≤ head.hi) (h64 : head.hi < 64)
    (hlog : isReg watchRegs (regAddr head.reg []) = true) (hother : isReg monitorRegs (regAddr head.reg []) = false)
    (hv : v < 2 ^ (head.hi + 1 - head.lo))
    (h : (v + size - gf s.m head) % size ≤ (gf s.m tail + size - gf s.m head) % size) :
    gf (wmAll s.time.now.toNat (headWrite s.m head tail size v)) head [] = v ∧
      Frame [.logs] (isReg watchRegs) s { s with m := wmAll s.time.now.toNat (headWrite s.m head tail size v) } := by
  rw [headWrite_moves h]
  refine ⟨?_, .ofWatch s ((LogFrame.ofSf _ s.m head [] v hlog).trans (wmAll_watch _ _)) (by simp) fun _ hi => hi⟩
  rw [(wmAll_monitor _ _).gf head [] hother, gf_sf_same _ _ _ _ hle h64, Nat.mod_eq_of_lt hv]

theorem headWrite_wmAll_discards {s : State} {head tail : FieldRef} {size v : Nat}
    (h : (gf s.m tail + size - gf s.m head) % size < (v + size - gf s.m head) % size) :
    gf (wmAll s.time.now.toNat (headWrite s.m head tail size v)) F.RAS_MGMT_ERR_DISCARD [] =
        (gf s.m F.RAS_MGMT_ERR_DISCARD [] + 1) % 65536 ∧
      Frame [.logs] (isReg ([(Reg.RAS_MGMT_ERR, [])] ++ watchRegs)) s
        { s with m := wmAll s.time.now.toNat (headWrite s.m head tail size v) } := by
  rw [headWrite_discards h]
  refine ⟨(gf_wmAll _ _ _ _ (by decide)).trans (gf_countDiscard s.m), ?_⟩
  exact ((countDiscard_frame s).mono (by simp) fun _ hi => isReg_false_of_append_left hi).trans
    (.ofWatch _ (wmAll_watch _ _) (by simp) fun _ hi => isReg_false_of_append_right hi)

/-- Settles O41. The commands of chapter 18 write their own registers and the monitoring state (R398, R401 to R403); a HEAD moves, or
its write is counted (`headWrite_moves`, `headWrite_discards`, and for two laps `rdHeadWrite_moves`, `rdHeadWrite_discards`). -/
theorem monitoringCommands : Obligations.MonitoringCommands :=
  ⟨fun _ v s hc => ctrValueWrite_writes v s hc, pmuClear_clears, pmuFreeze_sets,
    fun _ _ hlen hnow hnext => bwWindowEnd_shows hlen hnow hnext, fun _ s hwin => bwWinChange_restarts s hwin,
    fun _ _ hres hon hoff => trackingReseed_turnsOn hres hon hoff, fun _ _ hres hw => trackingReseed_unchanged hres hw,
    fun _ _ h => trkHeadWrite_moves h, fun _ _ h => trkHeadWrite_discards h,
    fun _ _ _ hslot hfit h => rdHeadWrite_releases hslot hfit h, fun _ _ _ h => rdHeadWrite_counts h,
    fun _ _ h => ⟨_, rfl, headWrite_wmAll_moves (by decide) (by decide) (by decide) (by decide) (Nat.mod_lt _ (by decide)) h⟩,
    fun _ _ h => ⟨_, rfl, headWrite_wmAll_discards h⟩,
    fun _ _ h => ⟨_, rfl, headWrite_wmAll_moves (by decide) (by decide) (by decide) (by decide) (Nat.mod_lt _ (by decide)) h⟩,
    fun _ _ h => ⟨_, rfl, headWrite_wmAll_discards h⟩,
    fun _ h => bwWindowEnd_idle h⟩

end Sys2Proof.Machine
end

section
/-!
PROOFS. The trips of the inlet guard (R414 to R418, R427) and the two ways its latch clears (R419). Each trip is the model's `trip` with
the bit of its cause, so that `trip_tripped` says what all of them leave; a clause adds when a reading comes to that trip. The latch
clears by `clearLatch`, at a rise of EN or at a write of REARM; the write goes through the path that every served register write takes.
-/

namespace Sys2Proof.Machine
open Sys2Proof

/-! ### Trips (R414 to R418, R427) -/

/-- The monitors judged after a trip leave the guard tripped. -/
theorem nextW_trip_tripped {k : Nat} (e : Nat) {s : State} (hk : k < 6) (hon : s.m.inl.on = true) (hl : s.m.inl.latched = false) :
    ∃ t, nextW (trip (2 ^ k) e s) = .next t ∧ GuardTripped k t :=
  ⟨_, rfl, (trip_tripped k e s hk hon hl).1.ofLog (wmAll_watch _ _)⟩

theorem prechargeTimeout_trips (e : Nat) {s : State} (hon : s.m.inl.on = true) (hpre : guardState s.m.inl = 2)
    (hlate : s.m.inl.since + 400000000 ≤ s.time.up) : ∃ t, exec (.prechargeTimeout e) s = .next t ∧ GuardTripped 4 t := by
  have hexec : exec (.prechargeTimeout e) s = nextW (trip (2 ^ 4) e s) := if_pos (by simp [hpre, hlate])
  have hl : s.m.inl.latched = false := (guardState_step (k := 1) hpre (by decide)).1
  rw [hexec]
  exact nextW_trip_tripped e (by decide) hon hl

theorem faultTimerTrip_trips {s : State} (hon : s.m.inl.on = true) (hl : s.m.inl.latched = false)
    (hlim : gf s.m F.INL_STATUS_LIMIT [] = 1) (htimer : timerLimit s.m ≤ timerNow s.m s.time.up) :
    ∃ t, exec .faultTimerTrip s = .next t ∧ GuardTripped 0 t := by
  have hexec : exec .faultTimerTrip s = nextW (trip (2 ^ 0) 0 s) := if_pos (by simp [gfb, hlim, htimer])
  rw [hexec]
  exact nextW_trip_tripped 0 (by decide) hon hl

theorem fastTrip_trips {iin : Nat} {s : State} (hon : s.m.inl.on = true) (hl : s.m.inl.latched = false) (hgate : 2 ≤ s.m.inl.gate)
    (hfast : 2 * iLim s.m < iin) : ∃ t, exec (.fastTrip iin) s = .next t ∧ GuardTripped 1 t := by
  have hexec : exec (.fastTrip iin) s = nextW (trip (2 ^ 1) 0 { s with m := sf s.m F.INL_MEAS_IIN [] (min iin 65535) }) :=
    if_pos (by simp [hgate, hfast])
  rw [hexec]
  exact nextW_trip_tripped 0 (by decide) (by simpa using hon) (by simpa using hl)

/-! ### The FET sensor (R417) -/

/-- A flag reads as it was set. -/
theorem gfb_sf_b2n (m : Mach) (f : FieldRef) (ix : List Nat) (b : Bool) (h : f.lo = f.hi) (h64 : f.hi < 64) :
    gfb (sf m f ix (b2n b)) f ix = b := by
  rw [gfb, gf_sf_same _ _ _ _ h.le h64, h, show f.hi + 1 - f.hi = 1 by omega]
  cases b <;> rfl

/-- A reading of the FET sensor changes the guard's count of good ones alone. -/
theorem noteFet_inl (m : Mach) (x model : Int) (ok : Bool) : ∃ n, (noteFet m x model ok).inl = { m.inl with good := n } :=
  ⟨_, by simp only [noteFet, modInl, sf_inl]; rfl⟩

theorem noteFet_valid_of_good {m : Mach} {x : Int} (model : Int) (hgood : 99 ≤ m.inl.good) (hlo : -550 ≤ x) (hhi : x ≤ 2000) :
    gfb (noteFet m x model true) F.INL_STATUS_SENSOR_VALID = true := by
  have hcount : min 100 (m.inl.good + 1) = 100 := by omega
  rw [noteFet, gfb_sf_b2n _ _ _ _ rfl (by decide)]
  simp [hlo, hhi, hcount]

theorem noteFet_invalid_of_bad {x : Int} {ok : Bool} (m : Mach) (model : Int) (hbad : ok = false ∨ x < -550 ∨ 2000 < x) :
    gfb (noteFet m x model ok) F.INL_STATUS_SENSOR_VALID = false := by
  rw [noteFet, gfb_sf_b2n _ _ _ _ rfl (by decide)]
  obtain rfl | hlo | hhi := hbad
  · simp
  · simp [Int.not_le.mpr hlo]
  · simp [Int.not_le.mpr hhi]

/-- A reading that the guard trips on trips it as the sensor then stands. -/
theorem nextW_trip_noteFet {k : Nat} (e : Nat) {s : State} (x model : Int) (ok : Bool) (hk : k < 6) (hon : s.m.inl.on = true)
    (hl : s.m.inl.latched = false) :
    ∃ t, nextW (trip (2 ^ k) e { s with m := noteFet s.m x model ok }) = .next t ∧ GuardTripped k t := by
  obtain ⟨n, hn⟩ := noteFet_inl s.m x model ok
  exact nextW_trip_tripped e hk ((congrArg Inl.on hn).trans hon) ((congrArg Inl.latched hn).trans hl)

theorem fetSensorRead_hot_trips {x : Int} (model : Int) (e : Nat) {s : State} (hon : s.m.inl.on = true) (hl : s.m.inl.latched = false)
    (hgood : 99 ≤ s.m.inl.good) (hhot : 1500 ≤ x) (hhi : x ≤ 2000) :
    ∃ t, exec (.fetSensorRead x true model e) s = .next t ∧ GuardTripped 2 t := by
  have hv := noteFet_valid_of_good model hgood (by omega) hhi
  have hexec : exec (.fetSensorRead x true model e) s = nextW (trip (2 ^ 2) e { s with m := noteFet s.m x model true }) :=
    (if_neg (by simp [hon])).trans (if_pos (by simp [hv, hhot]))
  rw [hexec]
  exact nextW_trip_noteFet e x model true (by decide) hon hl

theorem fetSensorRead_modelHot_trips {x model : Int} {ok : Bool} (e : Nat) {s : State} (hon : s.m.inl.on = true)
    (hl : s.m.inl.latched = false) (hbad : ok = false ∨ x < -550 ∨ 2000 < x) (hhot : 1400 ≤ model) :
    ∃ t, exec (.fetSensorRead x ok model e) s = .next t ∧ GuardTripped 3 t := by
  have hv := noteFet_invalid_of_bad s.m model hbad
  have hexec : exec (.fetSensorRead x ok model e) s = nextW (trip (2 ^ 3) e { s with m := noteFet s.m x model ok }) :=
    (if_neg (by simp [hon])).trans ((if_neg (by simp [hv])).trans (if_pos (by simp [hv, hhot])))
  rw [hexec]
  exact nextW_trip_noteFet e x model ok (by decide) hon hl

/-! ### The junction (R427) -/

/-- R426: a reading of the junction changes registers, and the logs by its event. -/
theorem noteTj_logs (now : Nat) (m : Mach) (tj : Int) : LogFrame (fun _ => true) m (noteTj now m tj) := by
  have hev (b : Mach) (sev inst : Nat) : LogFrame (fun _ => true) b (event b now 0x31 sev inst pmNone (signedField tj)) :=
    (event_watch ..).mono (by simp)
  have hshown : LogFrame (fun _ => true) m (sf m F.INL_THERM_TJ [] (signedField tj)) := .ofSf _ _ _ _ _ rfl
  unfold noteTj
  dsimp only
  split_ifs
  · exact ((hshown.trans (.ofSf _ _ _ _ _ rfl)).trans (.ofAck _ _ _ _ rfl)).trans (hev ..)
  · exact (hshown.trans (.ofSf _ _ _ _ _ rfl)).trans (hev ..)
  · exact hshown

@[simp] theorem noteTj_inl (now : Nat) (m : Mach) (tj : Int) : (noteTj now m tj).inl = m.inl :=
  (noteTj_logs now m tj).part Mach.inl fun _ _ _ => rfl

theorem junctionRead_trips {tj : Int} (e : Nat) {s : State} (hon : s.m.inl.on = true) (hl : s.m.inl.latched = false) (hhot : 1100 ≤ tj) :
    ∃ t, exec (.junctionRead tj e) s = .next t ∧ GuardTripped 5 t ∧ t.m.inl.thermN = true := by
  have hexec : exec (.junctionRead tj e) s = nextW (trip (2 ^ 5) e { s with m := noteTj s.time.now.toNat s.m tj }) := by
    change execJunctionRead tj e s = _
    simp [execJunctionRead, hon, hhot]
  obtain ⟨htrip, htherm⟩ := trip_tripped 5 e { s with m := noteTj s.time.now.toNat s.m tj } (by decide) (by simpa using hon)
    (by simpa using hl)
  exact ⟨_, hexec, htrip.ofLog (wmAll_watch _ _), (congrArg Inl.thermN (wmAll_inl _ _)).trans (htherm rfl)⟩

/-! ### The latch clears (R419) -/

/-- Beside its event, a clearing latch changes the guard and shows its STATE. -/
theorem clearLatch_logs (now : Nat) {m : Mach} (hl : m.inl.latched = true) :
    LogFrame (isReg watchRegs)
      (showGuard (modInl m (fun g => { g with latched := false, faultN := false, thermN := false, gate := 0 }))) (clearLatch now m) := by
  rw [clearLatch, if_neg (by simp [hl])]
  exact event_watch ..

/-- FAULT_N and THERM_TRIP_N are released with the latch, and the guard stands before a pre-charge. -/
theorem clearLatch_inl (now : Nat) {m : Mach} (hl : m.inl.latched = true) :
    (clearLatch now m).inl = { m.inl with latched := false, faultN := false, thermN := false, gate := 0 } :=
  ((clearLatch_logs now hl).part Mach.inl fun _ _ _ => rfl).trans (showGuard_inl _)

theorem enRise_clearsLatch {s : State} (hon : s.m.inl.on = true) (hen : s.m.inl.en = false) (hl : s.m.inl.latched = true)
    (hheld : max s.m.inl.enFell s.m.inl.tripAt + 40000000 ≤ s.time.up) :
    ∃ t, exec .enRise s = .next t ∧
      t.m.inl = { s.m.inl with en := true, latched := false, faultN := false, thermN := false, gate := 0 } := by
  have hexec : exec .enRise s =
      nextW { s with m := clearLatch s.time.now.toNat (showGuard (modInl s.m (fun g => { g with en := true }))) } := by
    change execEnRise s = _
    simp [execEnRise, hon, hen, hheld]
  refine ⟨_, hexec, (wmAll_inl _ _).trans ((clearLatch_inl _ ?_).trans ?_)⟩
  · simpa [modInl] using hl
  · simp [modInl]

/-! ### A served write of one register (R9 to R11, R353) -/

theorem natLe_length (n v : Nat) : (natLe n v).length = n := by
  induction n generalizing v with
  | zero => rfl
  | succ n ih => simp [natLe, ih]

/-- R479: eight bytes at an aligned address touch one word. -/
theorem wordsOf_aligned {a : Nat} (h : a % 8 = 0) : wordsOf a 8 = [a] := by
  have ha : a / 8 * 8 = a := by omega
  simp [wordsOf, ha, List.range_succ]

/-- The sum that `wordPart` takes over the bytes of a word is the number they spell, each by its `f`. -/
theorem sum_bytes_eq_foldr (f : Byte → Nat) (bs : List Byte) :
    ((List.range bs.length).map (fun k => (bs[k]?).elim 0 f * 256 ^ k)).sum = bs.foldr (fun b n => f b + 256 * n) 0 := by
  induction bs with
  | nil => rfl
  | cons b bs ih =>
    rw [List.length_cons, List.range_succ_eq_map, List.foldr_cons, ← ih, List.map_cons, List.sum_cons, List.map_map,
      ← List.sum_map_mul_left]
    simp [Function.comp_def, pow_succ, Nat.mul_comm, Nat.mul_assoc]

/-- The bytes of a number spell its remainder. -/
theorem natLe_value (n v : Nat) : (natLe n v).foldr (fun b k => b.toNat + 256 * k) 0 = v % 256 ^ n := by
  induction n generalizing v with
  | zero => simp [natLe, Nat.mod_one]
  | succ n ih =>
    rw [natLe, List.foldr_cons, ih, Nat.pow_succ', Nat.mod_mul]
    simp

/-- With every byte full they spell the largest such number. -/
theorem natLe_mask (n v : Nat) : (natLe n v).foldr (fun _ k => 255 + 256 * k) 0 = 256 ^ n - 1 := by
  induction n generalizing v with
  | zero => rfl
  | succ n ih =>
    have hpos : 0 < 256 ^ n := by positivity
    rw [natLe, List.foldr_cons, ih]
    omega

/-- A write of all eight bytes covers its word. -/
theorem wordPart_whole (a : Nat) (v : Word) : wordPart a (natLe 8 v.toNat) a = (v, allOnes) := by
  have hsum (f : Byte → Nat) := sum_bytes_eq_foldr f (natLe 8 v.toNat)
  simp only [natLe_length] at hsum
  simp only [wordPart, Nat.le_add_right, if_true, Nat.add_sub_cancel_left, hsum, natLe_value, natLe_mask]
  rw [show 256 ^ 8 = 2 ^ 64 by norm_num, Nat.mod_eq_of_lt v.isLt, BitVec.ofNat_toNat, BitVec.setWidth_eq]
  rfl

/-- R353: a write that takes effect commits its word, and is answered. -/
theorem putReg_of_accepts {who : Iface} {a : Nat} {v : Word} {r : RegDef} {ix : List Nat} {s : State} (h : Accepts who a v r ix s) :
    putReg who a v s = .next (writeDone who (commitWord who r ix v allOnes s)) := by
  obtain ⟨halign, hlow, hfind, hgate, hdenied, hkept, hres⟩ := h
  have hpass : gate who a 8 true s = (none, (gate who a 8 true s).2) := Prod.ext hgate rfl
  have hword : writeWord who a v allOnes s = .inr (commitWord who r ix v allOnes s, false) := by
    rw [writeWord, if_neg (by omega), if_neg (by omega), hfind]
    simp only [hkept, hres]
    rfl
  have hwords : writeWords who a (natLe 8 v.toNat) [a] s false = .inr (commitWord who r ix v allOnes s, false) := by
    simp [writeWords, wordPart_whole, hword]
  rw [putReg, regWrite, natLe_length, hpass, wordsOf_aligned halign]
  simp [wordPart_whole, hdenied, hwords, writeDone]

/-- R352, R358: over an interface that leads to the Postmaster, with no handover running, a command acts at once. -/
theorem managed_of_served {who : Iface} {s : State} (h : Served who s) (i : Instr) (act : State → Host.Outcome State Fault Refusal) :
    managed who i act s = act (noteServed s) := by
  obtain ⟨hreach, hhand⟩ := h
  simp [managed, hreach, hhand]

/-! ### REARM (R419) -/

@[simp] theorem noteServed_inl (s : State) : (noteServed s).m.inl = s.m.inl := by
  unfold noteServed
  split <;> rfl

/-- A write of INL_CTL changes its word alone. -/
theorem writeReg_inlCtl (now : Nat) (pm : Postmark) (m : Mach) (v mask : Word) :
    writeReg now pm m Reg.INL_CTL [] v mask = wr m Reg.INL_CTL [] (writtenWord Reg.INL_CTL (rd m Reg.INL_CTL []) v mask) := by
  have hafter (b : Mach) : afterWrite now pm m b Reg.INL_CTL [] mask = b := rfl
  have hrule (b : Mach) (old : Word) : noteRule b (regAddr Reg.INL_CTL []) old = b := if_neg (by simp [regAddr, Reg.INL_CTL])
  have hstrobe (b : Mach) (w : Word) : strobe now b Reg.INL_CTL [] w = b := rfl
  rw [writeReg, hafter, hrule, hstrobe]
  simp [Reg.INL_CTL, Reg.GRD_BARRIER]

theorem commitWord_rearm (who : Iface) {v : Word} (mask : Word) (s : State) (hv : wf v F.INL_CTL_REARM = 1) :
    commitWord who Reg.INL_CTL [] v mask s =
      { s with m := clearLatch s.time.now.toNat (wr s.m Reg.INL_CTL [] (writtenWord Reg.INL_CTL (rd s.m Reg.INL_CTL []) v mask)) } := by
  rw [← writeReg_inlCtl s.time.now.toNat ⟨tick48 s.time.now.toNat, 144, 0⟩]
  exact if_pos (by simp [hv])

/-- A committed write of REARM clears the latch. -/
theorem writeDone_rearm_inl (who : Iface) {v : Word} {s : State} (hv : wf v F.INL_CTL_REARM = 1) (hl : s.m.inl.latched = true) :
    (writeDone who (commitWord who Reg.INL_CTL [] v allOnes s)).m.inl =
      { s.m.inl with latched := false, faultN := false, thermN := false, gate := 0 } := by
  rw [commitWord_rearm who allOnes s hv]
  exact (wmAll_inl _ _).trans (clearLatch_inl _ hl)

theorem rearm_clearsLatch {who : Iface} {s : State}
    (htakes : WriteTakes who Reg.INL_CTL.base (setBits (rd s.m Reg.INL_CTL []) 16 16 1) Reg.INL_CTL [] s) (hl : s.m.inl.latched = true) :
    ∃ t, exec (.rearm who) s = .next t ∧ t.m.inl = { s.m.inl with latched := false, faultN := false, thermN := false, gate := 0 } := by
  obtain ⟨hserved, haccepts⟩ := htakes
  -- the other fields are written as they stand when the command is served
  rw [← noteServed_rd s] at haccepts
  have hexec : exec (.rearm who) s =
      putReg who Reg.INL_CTL.base (setBits (rd (noteServed s).m Reg.INL_CTL) 16 16 1) (noteServed s) := by
    change execRearm who s = _
    rw [execRearm, managed_of_served hserved]
  refine ⟨_, hexec.trans (putReg_of_accepts haccepts), ?_⟩
  rw [writeDone_rearm_inl who (getBits_setBits_same _ 16 16 1 (by decide) (by decide)) (by simpa using hl), noteServed_inl]

/-- Settles O13. Each trip command comes to `trip` with the bit of its cause (`trip_tripped`), and the latch clears by `clearLatch`
at a rise of EN or at REARM (`enRise_clearsLatch`, `rearm_clearsLatch`). -/
theorem inletTripsLatchTheGuard : Obligations.InletTripsLatchTheGuard := by
  refine ⟨fun e _ => prechargeTimeout_trips e, fun _ => faultTimerTrip_trips, fun _ _ => fastTrip_trips,
    fun _ model e _ => fetSensorRead_hot_trips model e, fun _ _ _ e _ => fetSensorRead_modelHot_trips e,
    fun _ e _ => junctionRead_trips e, fun s hon hen hl hheld _ => ?_, fun who s htakes hl => ?_⟩
  · obtain ⟨t, hexec, hinl⟩ := enRise_clearsLatch hon hen hl hheld
    exact ⟨t, hexec, by rw [hinl], by rw [hinl]⟩
  · obtain ⟨t, hexec, hinl⟩ := rearm_clearsLatch htakes hl
    exact ⟨t, hexec, by rw [hinl], by rw [hinl]⟩

end Sys2Proof.Machine
end
